-- ==== Sys2Proof/Word.lean ====
section
/-! DEFINITION. The words the machine is made of: bytes, the 40-bit tagged word of R70 and its field names, and
the plainest conversions between naturals, integers and bit vectors. -/

namespace Sys2Proof

abbrev Byte := BitVec 8
abbrev Word := BitVec 32
/-- A byte string, lowest address first. -/
abbrev Bytes := List (BitVec 8)

/-- The tagged word of R70: S in [39], F in [38], quality in [37:36], type in [35:32], payload in [31:0]. -/
structure TWord where
  sub : Bool
  forced : Bool
  q : BitVec 2
  ty : BitVec 4
  payload : Word
  deriving DecidableEq, Repr, Inhabited

namespace Ty
/-- Type codes of R71. -/
abbrev empty : BitVec 4 := 0x0
abbrev bool : BitVec 4 := 0x1
abbrev int : BitVec 4 := 0x2
abbrev word : BitVec 4 := 0x3
abbrev real : BitVec 4 := 0x4
abbrev duration : BitVec 4 := 0x5
abbrev stamp : BitVec 4 := 0x6
abbrev slotref : BitVec 4 := 0x7
abbrev coderef : BitVec 4 := 0x8
abbrev dataref : BitVec 4 := 0x9
abbrev sample16 : BitVec 4 := 0xA
abbrev poison : BitVec 4 := 0xF
end Ty

namespace Q
/-- Quality codes of R70, worst last (R73). -/
abbrev good : BitVec 2 := 0
abbrev uncertain : BitVec 2 := 1
abbrev stale : BitVec 2 := 2
abbrev bad : BitVec 2 := 3
end Q

/-- A word of quality GOOD with F = 0 and S = 0. -/
def TWord.mk0 (ty : BitVec 4) (p : Word) : TWord := ⟨false, false, Q.good, ty, p⟩

/-- EMPTY with quality GOOD, F = 0 and S = 0: what G0 reads (R135). -/
def TWord.empty : TWord := .mk0 Ty.empty 0

/-- The POISON word the ZPX writes (R71): quality BAD, F = 0, S = 0. Its payload is an argument: the spec defines none. -/
def TWord.poison (p : Word) : TWord := ⟨false, false, Q.bad, Ty.poison, p⟩

/-- The tag byte [39:32] of R90 byte 4. -/
def TWord.tag (w : TWord) : Byte :=
  BitVec.ofBool w.sub ++ BitVec.ofBool w.forced ++ w.q ++ w.ty

/-- The 40 bits of R70. -/
def TWord.bits (w : TWord) : BitVec 40 := w.tag ++ w.payload

/-- The word whose 40 bits are b. -/
def TWord.ofBits (b : BitVec 40) : TWord :=
  ⟨b.getLsbD 39, b.getLsbD 38, b.extractLsb' 36 2, b.extractLsb' 32 4, b.extractLsb' 0 32⟩

/-- The worse of two qualities (R73): the larger code. -/
def worse (a b : BitVec 2) : BitVec 2 := if a.toNat < b.toNat then b else a

/-- n, or the largest value of a saturating counter. -/
def satTo (top n : Nat) : Nat := if n ≤ top then n else top

end Sys2Proof
end

