-- ==== Sys2Proof/Syntax.lean ====
section
/-! DEFINITION. The commands of the block, one constructor per row of spec/opcode_table.json (R57, R168 to R190, R455 and
the events of the chapters), with the operands each carries, and the plain data those operands are made of. -/

namespace Sys2Proof

/-! ### Operands of host commands -/

/-- Where a host command came from: a command ring (R24), URG_COMMAND (R55), MGMT_UART (R492), the TAP (R468) or a
host-watchdog action (R435). -/
inductive Origin where
  | ring (n : Fin 64)
  | urg
  | uart
  | tap
  | watchdog
  deriving DecidableEq, Repr

/-- A command descriptor as the ZPX has read it (R32 to R35). The opcode is the constructor that carries it. `params` are
the descriptor's bytes from byte 16 to the end of the last entry before an authorization block; `payload` is the content of
an input payload; `object` is what the buffers of a scatter list hold, in list order (R126, R218); `auth` is the 128-byte
authorization block, or empty when auth_attached is 0. `addr` and `len` are the fields of R33 at bytes 8 to 15. `time` is the effect instant in units of 1/6 ns. -/
structure Request where
  origin : Origin
  time : Nat
  flags : Byte
  count : Nat
  cookie : Word
  addr : Nat
  len : Nat
  params : Bytes
  payload : Bytes
  object : Bytes
  auth : Bytes
  deriving DecidableEq, Repr

/-- What the ZPX gets back from host memory when it reads a published descriptor: an error completion (R30 code 3), or the
published entries from ci on, the input payload and the scatter buffers they name. -/
structure HostRead where
  time : Nat
  error : Bool
  entries : List Bytes
  payload : Bytes
  object : Bytes
  deriving DecidableEq, Repr

/-! ### Operands of Synna Code instructions (R142 to R144) -/

/-- Format L without fn, which the constructor fixes: d [24:20], a [19:15], b [14:10], qb [3], xf [2:0]. -/
structure LForm where
  d : Fin 32
  a : Fin 32
  b : Fin 32
  qb : Bool
  xf : Fin 8
  deriving DecidableEq, Repr

/-- Format I: d, a and a signed 15-bit immediate. -/
structure IForm where
  d : Fin 32
  a : Fin 32
  imm : BitVec 15
  deriving DecidableEq, Repr

/-- Format M: d, base, space and a signed word displacement. -/
structure MForm where
  d : Fin 32
  base : Fin 32
  sp : Fin 4
  disp : BitVec 13
  deriving DecidableEq, Repr

/-- Format J: the condition register and a signed parcel displacement. -/
structure JForm where
  a : Fin 32
  disp : BitVec 20
  deriving DecidableEq, Repr

/-- Format W: d and a 20-bit immediate. -/
structure WForm where
  d : Fin 32
  imm : BitVec 20
  deriving DecidableEq, Repr

/-- Format C2: d [10:6], a [5:1], qb [0]. -/
structure C2Form where
  d : Fin 32
  a : Fin 32
  qb : Bool
  deriving DecidableEq, Repr

/-- Formats CI and CM: a register and six bits (signed in CI, unsigned in CM); CC: the condition register and disp6. -/
structure C6Form where
  r : Fin 32
  imm : BitVec 6
  deriving DecidableEq, Repr

/-! ### Plain data that events and the machine's state share -/

/-- One scheduling record (R105) without its task number. -/
structure SchedRec where
  kind : Nat
  priority : Nat
  elastic : Bool
  dual : Bool
  startSuspended : Bool
  period : Nat
  offset : Nat
  budget : Nat
  budgetAction : Nat
  engines : BitVec 16
  trigger : Nat
  mode : Nat
  object : Nat
  delay : Nat
  deriving DecidableEq, Repr

/-- One slot descriptor (R75): its four words. -/
structure SlotDesc where
  cmpParam : Nat
  retentive : Bool
  cmpClass : Nat
  ty : BitVec 4
  ownerKind : Nat
  dir : Nat
  channel : Nat
  station : Nat
  subPayload : Word
  snapTask : Nat
  subTy : BitVec 4
  refRun : Bool
  refStaged : Bool
  deriving DecidableEq, Repr

/-- One entry of the force table (R94): slot, value, base tick of its setting. -/
structure Force where
  slot : Nat
  value : TWord
  tick : Nat
  deriving DecidableEq, Repr

/-- One port record of NET_CONFIG (R264). -/
structure PortRec where
  interface : Nat
  mode : Nat
  vid : Nat
  session : Nat
  mac : Nat
  deriving DecidableEq, Repr

/-- One station record of NET_CONFIG (R264). -/
structure SchedStation where
  station : Nat
  port : Nat
  periodCode : Nat
  phase : Nat
  position : Nat
  inLen : Nat
  outLen : Nat
  prep : Nat
  delay : Nat
  deriving DecidableEq, Repr

/-- A network frame as a port receives it (R241, R253): whether its FCS is good, its length with FCS, its VLAN tag if it has one,
its EtherType, its destination address, the bytes from the Lacework header on (header, data), the end-of-frame
timestamp in ns after t(k), and the end of a ring at which it arrived. -/
structure NetFrame where
  fcsOk : Bool
  len : Nat
  vid : Option Nat
  etherType : Nat
  dst : Nat
  bytes : Bytes
  endNs : Nat
  farEnd : Bool
  deriving DecidableEq, Repr

/-- The header of a Selvedge frame (R327) and whether its CRC passes. -/
structure SelHeader where
  crcOk : Bool
  resend : Bool
  epoch : Nat
  lseq : Nat
  tick : Nat
  deriving DecidableEq, Repr

/-- The kinds of notice of R327. -/
inductive NoticeKind where
  | fault | stage2 | leave | handoverRequest | yielding
  deriving DecidableEq, Repr

/-- The scheduler state of one task that a delta carries (R330). -/
structure TaskMirror where
  state : Nat
  suspendPending : Bool
  pendingLatch : Bool
  coalesced : Nat
  skips : Nat
  controlledSkips : Nat
  releases : Nat
  lastRelease : Nat
  timerLeft : Option Nat
  deriving DecidableEq, Repr

/-- A commit whose outcome is open (R283, R284, R292): of a configuration or of a parameter set, the id before it and the id that it
commits, and what a configuration that turns out committed puts in force: its channel entries and its times. -/
structure PendingCommit where
  config : Bool
  old : Word
  new : Word
  ins : List Bool
  outs : List Bool
  loss : Nat
  hold : Nat
  deriving DecidableEq, Repr

/-- What a delta carries of a station record (R268, R292, R330). -/
structure StationMirror where
  st : Nat
  ident : Bytes
  bootEpoch : Nat
  confirmed : Word
  inEntries : List Bool
  outEntries : List Bool
  lossTime : Nat
  holdTime : Nat
  sessionId : Nat
  kLast : Option Nat
  unresolved : Option PendingCommit
  deriving DecidableEq, Repr

/-- The marks of DELTA record 0x07 (R332, R235, R343). -/
inductive DeltaMark where
  | switch | changeAbort | changeRelease | handover
  deriving DecidableEq, Repr

/-- One record of a per-tick delta (R332). The configuration objects of record 0x06 are the ones R330 lists. -/
inductive DeltaRec where
  | data (addr : Nat) (words : List TWord)
  | image (slot : Nat) (words : List TWord)
  | legacy (addr : Nat) (words : List (BitVec 16))
  | task (n : Nat) (m : TaskMirror)
  | forceSet (f : Force)
  | forceClear (slot : Nat)
  | forceClearAll
  | schedRec (n : Nat) (r : SchedRec)
  | slotDesc (slot : Nat) (d : SlotDesc)
  | allocRun (base order : Nat)
  | freeRun (base order : Nat)
  | haltAll (on : Bool)
  | haltBit (station : Nat) (on : Bool)
  | pairState (k : Nat) (st : Nat)
  | discrepancy (slot : Nat) (n : Nat)
  | stationState (station : Nat) (m : StationMirror)
  | ports (p : List PortRec)
  | stations (l : List SchedStation)
  | ptp (source port domain threshold : Nat)
  | pairConfig (ports : Nat) (member autoResync : Bool)
  | network (running : Bool) (firstCycle : Nat)
  | device (state : Nat)
  | generations (running staged retained : Nat)
  | channels (l : List (Nat × Bool × Nat))
  | roleEpoch (e : Nat)
  | mark (m : DeltaMark)
  deriving DecidableEq, Repr

/-- What a BULK frame carries (R344): the offer of phase 1, the images and objects of phase 2, the pre-copy of phase 3 in
delta records, and the join of phase 4. -/
inductive BulkBody where
  | offer (side : Bool) (serial linkMajor : Nat)
  | image (current : Bool) (keySlot gen : Nat) (bytes : Bytes)
  | carryMap (bytes : Bytes)
  | records (phase : Nat) (r : List DeltaRec)
  | join (tick : Nat)
  | changeStage (keySlot gen : Nat) (image map : Bytes)
  deriving DecidableEq, Repr

/-- What a BULK_ACK carries (R344, R345): the phase acknowledged with the KiB done, a refusal of the offer, or a failure. -/
inductive BulkAckBody where
  | ok (phase kib : Nat)
  | refused (reason : Nat)
  | failed (status : Nat)
  | joined (tick : Nat)
  | staged (ok : Bool)
  deriving DecidableEq, Repr

/-- The body of a Selvedge frame that a module sends (R327). -/
inductive SelBody where
  | delta (r : List DeltaRec)
  | deltaEnd (records bytes : Nat)
  | relayDown (port : Nat) (frame : Bytes)
  | relayUp (port : Nat) (f : NetFrame)
  | bulk (b : BulkBody)
  | bulkAck (b : BulkAckBody)
  | notice (k : NoticeKind) (holdFrom : Nat)
  /-- TICK_STATUS without its two timestamps: serial, link_major, link_minor, tick of the last delta applied, persistence limit in KiB,
  and the stations missed at the sender's own end -/
  | tickStatus (serial major minor applied limitKib : Nat) (missed : List Nat)
  deriving DecidableEq, Repr

/-- What a read of a checked unit finds (R415, R417): nothing, a correctable error, or an uncorrectable one. -/
inductive Finding where
  | clean | correctable | uncorrectable
  deriving DecidableEq, Repr

/-- How the hardware part of a long operation ended, where that is decided outside the command interface: done, a NOR or
DDR access that failed, or a host read that failed. -/
inductive IoResult where
  | done | norFailed | integrity
  deriving DecidableEq, Repr

/-- The pins and clocks that BOOT samples (R387, R519). -/
structure BootEnv where
  time : Nat
  recoveryLow : Bool
  sideB : Bool
  pllLocked : Bool
  deriving DecidableEq, Repr

/-- What SELFTEST meets (R388): the checker that fails, if one does, the verification results of the compare pairs, and
the MRAM blocks with neither copy valid, by physical data page group. -/
structure SelftestEnv where
  time : Nat
  checkerFails : Option (Nat × Nat)
  pairFails : BitVec 8
  lostBlocks : List Nat
  tornBlocks : List Nat
  deriving DecidableEq, Repr

/-- One sample of the field die (R494, R496): the raw state of comparators A and B per channel, the input or output
current per channel in units of 10 µA (inputs) or 10 mA (outputs), and both supplies in mV. -/
structure FieldSample where
  time : Nat
  rawA : BitVec 32
  rawB : BitVec 32
  currents : List Nat
  supplyA : Nat
  supplyB : Nat
  deriving DecidableEq, Repr

/-- The commands of the block. Host commands carry a Request; Synna Code instructions carry the engine that executes them
and their encoded fields; register writes carry the value written; events carry what the outside world supplies. -/
inductive Instr where
  -- host commands (R57)
  | echo (r : Request)
  | getInfo (r : Request)
  | getState (r : Request)
  | handleQuery (r : Request)
  | handleRelease (r : Request)
  | handleCancel (r : Request)
  | resetDevice (r : Request)
  | programLoad (r : Request)
  | programStart (r : Request)
  | stopProgram (r : Request)
  | taskConfig (r : Request)
  | taskStatus (r : Request)
  | taskSuspend (r : Request)
  | taskResume (r : Request)
  | eventTrigger (r : Request)
  | engineSplit (r : Request)
  | engineJoin (r : Request)
  | slotAlloc (r : Request)
  | slotFree (r : Request)
  | slotRead (r : Request)
  | slotWrite (r : Request)
  | forceSet (r : Request)
  | forceClear (r : Request)
  | forceList (r : Request)
  | forceClearAll (r : Request)
  | snapshotRead (r : Request)
  | changeStage (r : Request)
  | changeCommit (r : Request)
  | changeAbort (r : Request)
  | changeRevert (r : Request)
  | changeRelease (r : Request)
  | netConfig (r : Request)
  | netStart (r : Request)
  | netStop (r : Request)
  | stationHaltOutputs (r : Request)
  | netHaltAllOutputs (r : Request)
  | stationAdmit (r : Request)
  | stationConfigure (r : Request)
  | stationFirmware (r : Request)
  | stationDiag (r : Request)
  | stationRelease (r : Request)
  | pairConfig (r : Request)
  | pairSync (r : Request)
  | pairSwitchover (r : Request)
  | pairLeave (r : Request)
  | pairStatus (r : Request)
  | timeSet (r : Request)
  | timeGet (r : Request)
  | timeShift (r : Request)
  | alarmSet (r : Request)
  | trimCurveSet (r : Request)
  | ptpConfig (r : Request)
  | logRead (r : Request)
  | logExport (r : Request)
  | logClear (r : Request)
  | logMark (r : Request)
  | fwBegin (r : Request)
  | fwData (r : Request)
  | fwFinish (r : Request)
  | fwActivate (r : Request)
  | fwStatus (r : Request)
  | fwRevert (r : Request)
  | energyStatus (r : Request)
  | powerCapSet (r : Request)
  | holdupConfig (r : Request)
  | cellConfig (r : Request)
  | authNonce (r : Request) (random : BitVec 128)
  | debugUnlock (r : Request)
  | fuseRead (r : Request)
  | fuseProgram (r : Request)
  | keyRevoke (r : Request)
  | memFill (r : Request)
  | scrubConfig (r : Request)
  | memTest (r : Request)
  | errStatus (r : Request)
  | fioConfig (r : Request)
  | fioStatus (r : Request)
  | fioTestPulse (r : Request)
  | wdgConfig (r : Request)
  | wdgEvidence (r : Request)
  -- Synna Code, arithmetic (R168)
  | add (e : Fin 16) (f : LForm)
  | sub (e : Fin 16) (f : LForm)
  | mul (e : Fin 16) (f : LForm)
  | div (e : Fin 16) (f : LForm)
  | mod (e : Fin 16) (f : LForm)
  | neg (e : Fin 16) (f : LForm)
  | abs (e : Fin 16) (f : LForm)
  | min (e : Fin 16) (f : LForm)
  | max (e : Fin 16) (f : LForm)
  | lim (e : Fin 16) (f : LForm)
  | addi (e : Fin 16) (f : IForm)
  | muli (e : Fin 16) (f : IForm)
  | sqrt (e : Fin 16) (f : LForm)
  | ln (e : Fin 16) (f : LForm)
  | exp (e : Fin 16) (f : LForm)
  | sin (e : Fin 16) (f : LForm)
  | cos (e : Fin 16) (f : LForm)
  | atan2 (e : Fin 16) (f : LForm)
  -- comparison (R173)
  | eq (e : Fin 16) (f : LForm)
  | ne (e : Fin 16) (f : LForm)
  | lt (e : Fin 16) (f : LForm)
  | le (e : Fin 16) (f : LForm)
  | gt (e : Fin 16) (f : LForm)
  | ge (e : Fin 16) (f : LForm)
  | unord (e : Fin 16) (f : LForm)
  | ceqi (e : Fin 16) (f : IForm)
  | clti (e : Fin 16) (f : IForm)
  | cgti (e : Fin 16) (f : IForm)
  -- bit and logic (R174)
  | and (e : Fin 16) (f : LForm)
  | or (e : Fin 16) (f : LForm)
  | xor (e : Fin 16) (f : LForm)
  | not (e : Fin 16) (f : LForm)
  | andn (e : Fin 16) (f : LForm)
  | shl (e : Fin 16) (f : LForm)
  | shr (e : Fin 16) (f : LForm)
  | sar (e : Fin 16) (f : LForm)
  | rol (e : Fin 16) (f : LForm)
  | ror (e : Fin 16) (f : LForm)
  | popc (e : Fin 16) (f : LForm)
  | clz (e : Fin 16) (f : LForm)
  | andi (e : Fin 16) (f : IForm)
  | ori (e : Fin 16) (f : IForm)
  | xori (e : Fin 16) (f : IForm)
  | btst (e : Fin 16) (f : LForm)
  | bset (e : Fin 16) (f : LForm)
  | bclr (e : Fin 16) (f : LForm)
  | bput (e : Fin 16) (f : LForm)
  -- moves, constants and selection (R175)
  | mov (e : Fin 16) (f : LForm)
  | sel (e : Fin 16) (f : LForm)
  | ldi (e : Fin 16) (f : WForm)
  | lui (e : Fin 16) (f : WForm)
  | ldd (e : Fin 16) (f : WForm)
  -- type, quality and conversion (R176 to R178)
  | typeof (e : Fin 16) (f : LForm)
  | qualof (e : Fin 16) (f : LForm)
  | isgood (e : Fin 16) (f : LForm)
  | flags (e : Fin 16) (f : LForm)
  | isempty (e : Fin 16) (f : LForm)
  | qset (e : Fin 16) (f : LForm)
  | qworse (e : Fin 16) (f : LForm)
  | subst (e : Fin 16) (f : LForm)
  | cvt (e : Fin 16) (fn : BitVec 6) (f : LForm)
  | raws (e : Fin 16) (f : LForm)
  | rawu (e : Fin 16) (f : LForm)
  | sflg (e : Fin 16) (f : LForm)
  | scale (e : Fin 16) (f : LForm)
  -- memory and slot access (R179)
  | ld (e : Fin 16) (f : MForm)
  | st (e : Fin 16) (f : MForm)
  | ldsA (e : Fin 16) (f : WForm)
  | stsA (e : Fin 16) (f : WForm)
  | lds (e : Fin 16) (f : LForm)
  | sts (e : Fin 16) (f : LForm)
  | ldsx (e : Fin 16) (f : LForm)
  | stsx (e : Fin 16) (f : LForm)
  | sdesc (e : Fin 16) (f : LForm)
  -- branches and calls (R180)
  | br (e : Fin 16) (f : JForm)
  | bt (e : Fin 16) (f : JForm)
  | bf (e : Fin 16) (f : JForm)
  | call (e : Fin 16) (f : JForm)
  | be (e : Fin 16) (f : JForm)
  | jr (e : Fin 16) (f : LForm)
  | callr (e : Fin 16) (f : LForm)
  | ret (e : Fin 16) (f : LForm)
  -- timers and counters (R182 to R185)
  | ton (e : Fin 16) (f : LForm)
  | tof (e : Fin 16) (f : LForm)
  | tp (e : Fin 16) (f : LForm)
  | ctu (e : Fin 16) (f : LForm)
  | ctd (e : Fin 16) (f : LForm)
  | crst (e : Fin 16) (f : LForm)
  | cld (e : Fin 16) (f : LForm)
  | tmstart (e : Fin 16) (f : IForm)
  | tmstop (e : Fin 16) (f : IForm)
  -- asynchronous sampling (R186)
  | tbread (e : Fin 16) (f : LForm)
  | tbtick (e : Fin 16) (f : LForm)
  | rtct (e : Fin 16) (f : LForm)
  | rtcd (e : Fin 16) (f : LForm)
  | lin (e : Fin 16) (f : LForm)
  -- event raising (R187)
  | raise (e : Fin 16) (f : IForm)
  | raiser (e : Fin 16) (f : LForm)
  | logev (e : Fin 16) (f : LForm)
  -- legacy operations (R188)
  | ldls (e : Fin 16) (f : MForm)
  | stlq (e : Fin 16) (f : MForm)
  | lbtst (e : Fin 16) (f : LForm)
  | lbput (e : Fin 16) (f : LForm)
  | lbputq (e : Fin 16) (f : LForm)
  | lgon (e : Fin 16) (f : LForm)
  | lgoff (e : Fin 16) (f : LForm)
  | lgcry (e : Fin 16) (f : LForm)
  | lgclr (e : Fin 16) (f : LForm)
  -- system (R189)
  | nop (e : Fin 16) (f : LForm)
  | endAct (e : Fin 16) (f : LForm)
  | trap (e : Fin 16) (f : LForm)
  | rdstat (e : Fin 16) (f : LForm)
  | wrstat (e : Fin 16) (f : LForm)
  | rdfeat (e : Fin 16) (f : LForm)
  | trapi (e : Fin 16) (f : WForm)
  -- the 16-bit forms (R146, R190)
  | cMov (e : Fin 16) (f : C2Form)
  | cAdd (e : Fin 16) (f : C2Form)
  | cSub (e : Fin 16) (f : C2Form)
  | cAnd (e : Fin 16) (f : C2Form)
  | cOr (e : Fin 16) (f : C2Form)
  | cAddi (e : Fin 16) (f : C6Form)
  | cLdk (e : Fin 16) (f : C6Form)
  | cLdl (e : Fin 16) (f : C6Form)
  | cStl (e : Fin 16) (f : C6Form)
  | cLds (e : Fin 16) (f : C2Form)
  | cSts (e : Fin 16) (f : C2Form)
  | cBr (e : Fin 16) (disp : BitVec 11)
  | cBt (e : Fin 16) (f : C6Form)
  | cBf (e : Fin 16) (f : C6Form)
  | cSysNop (e : Fin 16) (low : BitVec 6)
  | cSysRet (e : Fin 16) (low : BitVec 6)
  | cSysEnd (e : Fin 16) (low : BitVec 6)
  | cSysTrap (e : Fin 16) (low : BitVec 6)
  -- rings (R26 to R54)
  | ringCqEnable (n : Fin 64) (ctrl : Word)
  | ringCqDisable (n : Fin 64) (ctrl : Word)
  | ringKqEnable (n : Fin 64) (ctrl : Word)
  | ringKqDisable (n : Fin 64) (ctrl : Word)
  | ringCqPi (n : Fin 64) (v : Word)
  | descriptorTake (n : Fin 64) (rd : HostRead)
  | cq0DescriptorTake (rd : HostRead)
  | ringKqHead (n : Fin 64) (v : Word)
  | arm (n : Fin 64) (v : Word)
  | completionInterrupt (n : Fin 64) (waitedUs : Nat)
  | urgCommand (v : Word) (time : Nat)
  | finalCompletion (idx : Nat) (time : Nat) (io : IoResult)
  -- registers (R314, R412, R427, R433, R531 to R539)
  | wdgService (v : Word)
  | wdgServiceCapture (c : Nat)
  | hostWatchdogExpiry (c : Nat)
  | statDualFaultClear (v : Word)
  | statCalAlarmClear (v : Word)
  | errBucketClear (v : Word)
  | intCauseClear (v : Word)
  | intCtrl (v : Word)
  | intMask (v : Word)
  | msixTableWrite (off : Nat) (v : Word)
  | statLogSeqRead
  | sysTickLoRead
  | sysOptimeLoRead
  | registerWrite (off size : Nat) (v : Word)
  | hostInterfaceReset
  -- debug port and UART (R465 to R469, R492)
  | dbgChallenge (random : BitVec 128)
  | dbgResponse (dr : Bytes)
  | dbgAccessRead (space : Fin 16) (addr : Nat)
  | dbgAccessWrite (space : Fin 16) (addr : Nat) (data : BitVec 40)
  | dbgAccessControl (space : Fin 16) (addr : Nat) (data : BitVec 40)
  | extest (enter : Bool)
  | tapReset
  | uartRateFrame (code : Byte)
  | uartRateTimeout
  -- power, reset and start-up (R59, R367 to R389)
  | vaonRise
  | retainLost
  | mainRailsGood
  | pwrRstAssert (time : Nat)
  | pwrRstRelease
  | powerFail (time : Nat)
  | mainRailTrip (time : Nat)
  | powerReturn (time : Nat)
  | holdupSample (senseMv time : Nat)
  | rideThroughExpiry (time : Nat)
  | seal (time : Nat)
  | boot (env : BootEnv)
  | selftest (env : SelftestEnv)
  | arbitration (time : Nat)
  | deviceReset
  | fwWatchdogExpiry (pc : Word) (time : Nat)
  | serviceCoreRestart (time : Nat)
  | haltReqCapture (time : Nat)
  | haltReqRelease
  -- the scan (R16, R108 to R121)
  | baseTick
  | takeover (time : Nat)
  | yieldPrimary (time : Nat)
  | handover (time : Nat)
  | mastershipPass
  | switchWindowEnd (time : Nat)
  | freezeEnd (task : Fin 64) (time : Nat)
  | preemptionStop (e : Fin 16) (time : Nat)
  | budgetExpiry (task : Fin 64) (time : Nat)
  | taskTimerExpiry (task : Fin 64) (time : Nat)
  | commitFlush (k : Fin 8)
  | verificationActivation (k : Fin 8) (pass : Bool)
  -- code store and memories (R197 to R204, R362, R416, R421)
  | pageFill (gen page : Nat)
  | lineRefetch (frame line : Nat) (ddrBad : Bool)
  | pageRebuild (gen page : Nat) (lineFails readBackFails : Bool)
  | scrubRead (mem addr : Nat) (f : Finding)
  | bucketLeak
  | persistWrite
  -- energy, calendar, security clocks (R358, R372, R395 to R403, R445, R464, R469)
  | energyIntervalEnd (rails : List Nat) (senseMv time : Nat)
  | vbatMeasure (mv charge : Nat)
  | calendarRollover
  | trimEvaluation (temp : Int)
  | timeSetPendingLoad
  | shiftHoldEnd
  | nonceExpiry (time : Nat)
  | grantExpiry (time : Nat)
  | optimeSave (time : Nat)
  -- event record (R446 to R453)
  | eventRecordWrite
  | repeatUpdate
  | clearedOverwrite
  -- network (R240, R253 to R257, R265)
  | inputFrame (port : Fin 4) (f : NetFrame)
  | inputCutoff (time : Nat)
  | ringBroken (port : Fin 4)
  | portLinkDown (port : Fin 4)
  | scheduleSwitch
  | ptpMessage (port : Fin 4) (f : NetFrame) (offsetNs : Int)
  | delayReq (port : Fin 4) (f : NetFrame)
  | timebaseHoldover
  | timebaseStep
  | ppsInEdge (offsetNs : Int)
  -- stations (R276 to R288)
  | announce (port : Fin 4) (f : NetFrame)
  | answer (port : Fin 4) (f : NetFrame)
  | notify (port : Fin 4) (f : NetFrame)
  | sessionAnswerTimeout (station : Nat)
  | sessionWaitTimeout (station : Nat)
  | probeTimeout (station : Nat)
  | verificationRepeat (station : Nat)
  | stationReturnTimeout (station : Nat)
  -- the pair (R326 to R345)
  | status (h : SelHeader) (role state flags linkMajor lowestMissing : Nat)
  | tickStatus (h : SelHeader) (serial linkMajor linkMinor lastApplied limitKib : Nat) (offsetNs : Int) (missed : List Nat)
  | delta (h : SelHeader) (r : List DeltaRec)
  | deltaEnd (h : SelHeader) (records bytes : Nat)
  | relayDown (h : SelHeader) (port : Fin 4) (f : NetFrame)
  | relayUp (h : SelHeader) (port : Fin 4) (f : NetFrame)
  | bulk (h : SelHeader) (b : BulkBody)
  | bulkAck (h : SelHeader) (b : BulkAckBody)
  | notice (h : SelHeader) (k : NoticeKind) (holdFrom time : Nat)
  | selvedgeLinkDown (time : Nat)
  | laneLoss (lane : Fin 2)
  | peerAliveDecode (v : Fin 3) (time : Nat)
  | peerFault (low : Bool)
  | syncingTimeout
  | syncLinkTimeout
  -- field I/O (R493 to R510)
  | fieldLinkFrame (time : Nat)
  | fieldLinkLost (time : Nat)
  | fieldLinkUp
  | fieldSample (x : FieldSample)
  | filterChange (ch : Fin 32) (compB : Bool)
  | wireBreak (ch : Fin 32) (broken : Bool)
  | fieldSupply (group : Fin 2) (cond : Fin 3)
  | outputShutdown (ch : Fin 32)
  | readbackFail (ch : Fin 32)
  | testPulse (ch : Fin 32) (offRead onRead disturbed : Bool)
  -- units of long operations (R128, R220, R221, R425, R475)
  | memTestUnit (ce : Nat) (fails : Bool)
  | fuseBit (takes : Bool)
  | tracerCopy (addr : Nat)
  | programInstall (time : Nat)
  | changeStageInstall (time : Nat)
  -- link returns (R240, R326)
  | portLinkUp (port : Fin 4)
  | laneLock (lane : Fin 2)
  deriving DecidableEq, Repr

end Sys2Proof
end

