-- ==== Sys2Proof/Decode.lean ====
section
/-! DEFINITION. The words of the opcode table. No row of spec/opcode_table.json gives bits, so no word spells a command: host
commands arrive as descriptors (R32), which Machine/Take.lean reads, and Synna Code instructions in their formats (R142 to
R146), whose fields the constructors carry. -/

namespace Sys2Proof

/-- The command that a table word spells: none, since the table gives no row any bits. -/
def decodeTableWord (_nbits _w : Nat) : Option Instr := none

end Sys2Proof
end

