-- ==== Sys2Proof/Machine/Bytes.lean ====
section
/-! DEFINITION. Fields of byte strings: little-endian numbers (R4), big-endian numbers (the standards of R9), slices and CRC-32C. -/

namespace Sys2Proof.Machine

/-- Byte i of a string, 0 beyond its end. -/
def byteAt (b : Bytes) (i : Nat) : Nat := ((b[i]?).getD 0).toNat

/-- The little-endian number of a byte string. -/
def leNat : Bytes → Nat
  | [] => 0
  | x :: r => x.toNat + 256 * leNat r

/-- n bytes from offset i, short at the end of the string. -/
def slice (b : Bytes) (i n : Nat) : Bytes := (b.drop i).take n

/-- n bytes from offset i, padded with zeros. -/
def sliceZ (b : Bytes) (i n : Nat) : Bytes :=
  let x := slice b i n
  x ++ List.replicate (n - x.length) 0

/-- The little-endian field of n bytes at offset i (R4). -/
def le (b : Bytes) (i n : Nat) : Nat := leNat (slice b i n)

/-- The big-endian number of a byte string. -/
def beNat (b : Bytes) : Nat := b.foldl (fun a x => a * 256 + x.toNat) 0

/-- n little-endian bytes of a number. -/
def leBytes : Nat → Nat → Bytes
  | 0, _ => []
  | n + 1, v => BitVec.ofNat 8 v :: leBytes n (v / 256)

/-- n big-endian bytes of a number. -/
def beBytes (n v : Nat) : Bytes := (leBytes n v).reverse

/-- A signed number of n bytes, two's complement. -/
def toSigned (n v : Nat) : Int := if v < 2 ^ (8 * n - 1) then (v : Int) else (v : Int) - 2 ^ (8 * n)

/-- The n-byte two's complement code of an integer. -/
def ofSigned (n : Nat) (v : Int) : Nat := (v % (2 ^ (8 * n) : Int)).toNat

/-- All of the bytes from i to j − 1 are 0. -/
def zeroFrom (b : Bytes) (i j : Nat) : Bool := (slice b i (j - i)).all (· == 0)

/-- Bits [hi:lo] of a number. -/
def bits (v hi lo : Nat) : Nat := v / 2 ^ lo % 2 ^ (hi + 1 - lo)

/-- Bit i of a number. -/
def bitOf (v i : Nat) : Bool := v / 2 ^ i % 2 == 1

/-- A Bool as a number, shifted to bit i. -/
def flag (b : Bool) (i : Nat) : Nat := if b then 2 ^ i else 0

/-- One step of the reflected CRC-32C (R9) for one bit. -/
def crcBit (c : BitVec 32) : BitVec 32 :=
  if c.getLsbD 0 then (c >>> 1) ^^^ 0x82F63B78#32 else c >>> 1

/-- One byte of the CRC-32C. -/
def crcByte (c : BitVec 32) (b : Byte) : BitVec 32 :=
  crcBit (crcBit (crcBit (crcBit (crcBit (crcBit (crcBit (crcBit (c ^^^ b.setWidth 32))))))))

/-- CRC-32C (Castagnoli) of a byte string with the options of R9. -/
def crc32c (b : Bytes) : BitVec 32 := (b.foldl crcByte 0xFFFFFFFF#32) ^^^ 0xFFFFFFFF#32

/-- Cut a byte string into pieces of n bytes, at most k of them. -/
def pieces (n : Nat) : Nat → Bytes → List Bytes
  | 0, _ => []
  | k + 1, b => if b.isEmpty then [] else b.take n :: pieces n k (b.drop n)

end Sys2Proof.Machine
end

