-- ==== Sys2Proof/Machine/Sparse.lean ====
section
/-! DEFINITION. Sparse memories: lists of key and value with rising keys, in which an unlisted key reads as a fixed value. -/

namespace Sys2Proof.Machine

/-- The entry of a key, if the list has one. -/
def look {β : Type} : List (Nat × β) → Nat → Option β
  | [], _ => none
  | (k, v) :: r, a => if k = a then some v else look r a

/-- What key a reads as, an unlisted key reading as d. -/
def readAt {β : Type} (d : β) (l : List (Nat × β)) (a : Nat) : β := (look l a).getD d

/-- The list with no entry for key a. -/
def erase {β : Type} : List (Nat × β) → Nat → List (Nat × β)
  | [], _ => []
  | (k, v) :: r, a => if k = a then r else if a < k then (k, v) :: r else (k, v) :: erase r a

/-- The list with the entry (a, v), in its place among rising keys. -/
def insertAt {β : Type} : List (Nat × β) → Nat → β → List (Nat × β)
  | [], a, v => [(a, v)]
  | (k, w) :: r, a, v =>
    if a < k then (a, v) :: (k, w) :: r else if k = a then (a, v) :: r else (k, w) :: insertAt r a v

/-- A write in canonical form: writing what an unlisted key reads as removes the entry. -/
def writeAt {β : Type} [DecidableEq β] (d : β) (l : List (Nat × β)) (a : Nat) (v : β) : List (Nat × β) :=
  if v = d then erase l a else insertAt l a v

/-- Keys strictly rising, all of them from n on. -/
def risingFrom {β : Type} (n : Nat) : List (Nat × β) → Bool
  | [] => true
  | (k, _) :: r => decide (n ≤ k) && risingFrom (k + 1) r

/-- The canonical form of a sparse memory whose unlisted keys read as d. -/
def sparseWf {β : Type} [DecidableEq β] (d : β) (l : List (Nat × β)) : Bool :=
  risingFrom 0 l && l.all (fun e => decide (e.2 ≠ d))

/-- Writes to consecutive keys. -/
def writeRun {β : Type} [DecidableEq β] (d : β) (l : List (Nat × β)) (a : Nat) : List β → List (Nat × β)
  | [] => l
  | v :: r => writeRun d (writeAt d l a v) (a + 1) r

/-- The entries whose key is in [lo, lo + n), the keys counted from lo. -/
def window {β : Type} (l : List (Nat × β)) (lo n : Nat) : List (Nat × β) :=
  l.filterMap (fun e => if lo ≤ e.1 && e.1 < lo + n then some (e.1 - lo, e.2) else none)

/-- The list without the entries whose key is in [lo, lo + n). -/
def dropWindow {β : Type} (l : List (Nat × β)) (lo n : Nat) : List (Nat × β) :=
  l.filter (fun e => !(decide (lo ≤ e.1) && decide (e.1 < lo + n)))

/-- Insert a number into a rising list without repeats. -/
def insertNat : List Nat → Nat → List Nat
  | [], a => [a]
  | k :: r, a => if a < k then a :: k :: r else if a = k then k :: r else k :: insertNat r a

/-- The element at position i replaced by f of it. -/
def modifyNth {β : Type} (l : List β) (i : Nat) (f : β → β) : List β := l.modify i f

/-- The position-th element, or a default. -/
def nth {β : Type} (d : β) (l : List β) (i : Nat) : β := (l[i]?).getD d

/-- Fold a function over 0 to n − 1, in rising order. -/
def forUpTo {β : Type} (n : Nat) (f : Nat → β → β) (b : β) : β :=
  match n with
  | 0 => b
  | k + 1 => f k (forUpTo k f b)

/-- Fold a function over the elements of a list, first to last. -/
def forEach {α β : Type} (l : List α) (f : α → β → β) (b : β) : β := l.foldl (fun b a => f a b) b

end Sys2Proof.Machine
end

