-- ==== Sys2Proof/Config.lean ====
section
/-! DEFINITION. What one module fixes and the spec leaves open: the free values. None of them has a body, so nothing in Lean can
evaluate them and a claim about them holds for every value. -/

namespace Sys2Proof.Config

/-- The n-th free value of w bits. The machine draws them in order, with the counter `State.free`. Log entry 3. -/
opaque freeBits (n w : Nat) : BitVec w

/-- Which of the binary32 values within one unit in the last place a transcendental instruction of R170 gives: function
(0 LN, 1 EXP, 2 SIN, 3 COS, 4 ATAN2) and operand payloads to a choice. Every engine of every module makes the same choice
(R170), so the choice is a function of the operands. Log entry 4. -/
opaque ulpChoice (fn : Nat) (a b : BitVec 32) : Nat

/-- Boot ROM version (R52 bytes 8 to 9); the spec gives no value. Log entry 5. -/
opaque bootRomVersion : BitVec 16

/-- Fitted DDR in GiB, 1 to 16: the board fixes it. Log entry 5. -/
opaque ddrGib : Fin 16

/-- Path delay of a station to the far end of its ring in ns: the cable plant fixes it, and no record carries it. Log entry 5. -/
opaque farDelay (station : Nat) : Nat

/-- Bytes of the object in a CONFIG record of a delta (R332); the spec gives no layout. Log entry 5. -/
opaque configLength (r : DeltaRec) : Nat

end Sys2Proof.Config
end

