-- ==== Sys2Proof/Machine/State.lean ====
section
/-! DEFINITION. The state of the block as plain data: every register, memory, table, queue, counter, mode, input pin and pending
operation that spec/ names, in one structure per chapter, and the state after reset. Each field's comment gives its width
or range, the rule of spec/ that names it, and its reset value where that is not plainly zero, none or empty. -/

namespace Sys2Proof.Machine

/-- Why the machine stops with a fault. Nothing raises one: every row of the table has an effect the spec gives. Safe. -/
inductive Fault where
  /-- Reserved for an access to an address the spec says does not exist; the command interface answers such accesses
  itself (BAD_PARAM, ADDRESS, discarded write), so no meaning raises it. Safe. -/
  | noSuchAddress
  deriving DecidableEq, Repr

/-- Why a command has no meaning. -/
inductive Refusal where
  /-- Raised by exec's arm of a command whose meaning is not written. Safe: the machine stops where the hardware goes on. -/
  | notModelled (mnemonic : String)
  deriving DecidableEq, Repr

/-! ### Rings, handles and completions (02) -/

/-- A completion as R38 lays it out, without its phase bit. -/
structure Completion where
  status : Nat
  final : Bool
  ring : Nat
  cookie : Word
  handle : Word
  result : Bytes
  ci : Nat
  deriving DecidableEq, Repr

/-- The registers of one command ring (R26) and what the ZPX holds for it. -/
structure CqRing where
  /-- 20 bits, bits [31:12] of the base; R26; reset 0 -/
  baseLo : Nat
  /-- 16 bits; R26; reset 0 -/
  baseHi : Nat
  /-- 6 bits, bound completion ring; R26; reset 0 -/
  kq : Nat
  /-- 4 bits; R26; reset 0 -/
  sizeLog2 : Nat
  /-- 1 bit; R26, R28; reset 0 -/
  enable : Bool
  /-- 12 bits, producer index; R26, R29; reset 0 -/
  pi : Nat
  /-- 12 bits, consumer index; R26, R29; reset 0 -/
  ci : Nat
  /-- 16 bits, saturating; R26, R53; reset 0 -/
  heldDrops : Nat
  /-- 4 bits; R26, R30; reset 0 -/
  error : Nat
  /-- 1 bit; R26, R30; reset 0 -/
  running : Bool
  deriving DecidableEq, Repr

/-- The registers of one completion ring (R26) and its entries in host memory. -/
structure KqRing where
  /-- 20 bits; R26; reset 0 -/
  baseLo : Nat
  /-- 16 bits; R26; reset 0 -/
  baseHi : Nat
  /-- 1 bit; R26; reset 0 -/
  intEnable : Bool
  /-- 7 bits; R26; reset 0 -/
  vector : Nat
  /-- 4 bits; R26; reset 0 -/
  sizeLog2 : Nat
  /-- 1 bit; R26; reset 0 -/
  enable : Bool
  /-- 12 bits; R26, R27; reset 0 -/
  head : Nat
  /-- 12 bits; R26, R39; reset 0 -/
  tail : Nat
  /-- 1 bit; R26, R39; reset 1 -/
  phase : Bool
  /-- 16 bits; R26, R42; reset 0 -/
  irqTime : Nat
  /-- 8 bits; R26, R42; reset 1 -/
  irqCount : Nat
  /-- 4 bits; R26, R27; reset 0 -/
  error : Nat
  /-- 1 bit; R26; reset 0 -/
  running : Bool
  /-- 1 bit, interrupt armed; R42; reset 0 -/
  armed : Bool
  /-- the entries written, index to phase bit and completion, rising index (host memory); R38, R39; reset empty -/
  mem : List (Nat × Bool × Completion)
  /-- local time at which each entry was written, by index; R42; reset empty -/
  written : List (Nat × Nat)
  deriving DecidableEq, Repr

/-- A long operation behind a handle (R47 to R51). -/
structure LongOp where
  /-- 16-bit opcode of the command; R48 -/
  opcode : Nat
  /-- the command as it was accepted (its buffers belong to the ZPX until the end, R31) -/
  req : Request
  /-- command ring of the descriptor, 0xFF on the UART; R38 -/
  ring : Nat
  /-- completion ring bound at acceptance; R41 -/
  kq : Nat
  /-- work done and work total; R49 -/
  work : Nat
  total : Nat
  /-- waits for ledger headroom: a query gives ENERGY; R49, R360 -/
  waiting : Bool
  /-- admitted by the ledger; R360 -/
  admitted : Bool
  /-- 1 ms intervals waited for admission; R360 -/
  waited : Nat
  /-- suspended by HOLDUP; R68 -/
  suspended : Bool
  /-- outcome of the first cancel; R51 -/
  cancel : Option Nat
  /-- past its last cancel point; R51 -/
  past : Bool
  /-- FAULT, or a state in which its opcode is illegal, has been entered since its acceptance; R68 -/
  doomed : Bool
  /-- local time of its admission by the ledger, 0 before; R127, R360 -/
  admittedAt : Nat
  /-- acceptance order, for admission order; R360 -/
  order : Nat
  /-- final status and result bytes once the work has ended, before and after the final completion -/
  ending : Option (Nat × Bytes)
  /-- DONE: the final completion has been made; R48 -/
  done : Bool
  /-- counters of the operation: units passed, failed and so on, by opcode -/
  aux : List Nat
  deriving DecidableEq, Repr

/-- Rings, handles and the urgent register. -/
structure HostIf where
  /-- 64 command rings CQ0 to CQ63; R24; reset disabled -/
  cq : List CqRing
  /-- 64 completion rings KQ0 to KQ63; R24; reset disabled -/
  kq : List KqRing
  /-- rings with a doorbell waiting, in arrival order, one entry per ring; R18, R19; reset empty -/
  doorbells : List Nat
  /-- urgent writes and CQ0 doorbells waiting for the hardware command processor, in arrival order: a doorbell is none, a
  URG_COMMAND write its value; R54, R229; reset empty -/
  urgent : List (Option Word)
  /-- the CQ0 doorbell at the head of the urgent queue has been taken, and its entries go up to this producer index; R54; reset
  none -/
  cq0Upto : Option Nat
  /-- host writes and reads that wait because the endpoint withholds posted-write credits, oldest first; R19; reset empty -/
  withheld : List Instr
  /-- completion ring in which an entry is reserved for the descriptor being carried out; R40; reset none -/
  reserved : Option Nat
  /-- immediate completions of CQ1 to CQ63 held for a disabled completion ring: command ring, completion ring bound when the
  descriptor was taken, completion, in taking order; R28; reset empty -/
  heldImmediate : List (Nat × Nat × Completion)
  /-- ring served last by the round robin; R43; reset 63 (DESIGN CHOICE 63, log entry 6) -/
  lastServed : Nat
  /-- completions of CQ0 held with the completion ring bound when each was made, at most 64; R53; reset empty -/
  held0 : List (Nat × Completion)
  /-- final completions held: handle index, completion ring, completion, in end order; R41; reset empty -/
  heldFinals : List (Nat × Nat × Completion)
  /-- handle generation per index that has been allocated, in MRAM; R47; reset none issued (PRESUMED 0 before the first, log entry 6) -/
  gens : List (Nat × Nat)
  /-- the free queue: indexes never allocated since the reset are fresh to 4,095, then the released ones in order; R47; reset fresh 0 -/
  fresh : Nat
  freed : List Nat
  /-- handles PENDING or DONE, by index; R48; reset empty -/
  ops : List (Nat × LongOp)
  /-- acceptance counter; R360; reset 0 -/
  accepted : Nat
  /-- 8 bits, saturating; R56; reset 0 (cold start only) -/
  keyErrors : Nat
  /-- 8 bits; R56; reset 0 -/
  urgSeq : Nat
  /-- 8 bits; R56; reset 0 -/
  urgStatus : Nat
  /-- payload buffers written: host address and bytes, newest first; R31, R34; reset empty -/
  payloadOut : List (Nat × Bytes)
  /-- completion frames sent on MGMT_UART (ring = 0xFF), newest first; R492; reset empty -/
  uartOut : List Completion
  deriving DecidableEq, Repr

/-! ### Device state (03) -/

/-- Device states with the codes of R58. -/
inductive DevState where
  | off | retain | boot | selftest | recovery | configure | stop | run | changing | holdup | halted | fault
  deriving DecidableEq, Repr, Inhabited

/-- Pair roles with the codes of R58. -/
inductive Role where
  | solo | primary | standby | syncing
  deriving DecidableEq, Repr, Inhabited

structure Device where
  /-- R58, R59; reset BOOT -/
  st : DevState
  /-- R58; reset SOLO -/
  role : Role
  /-- return state in HOLDUP; R59, R69; reset none -/
  ret : Option DevState
  /-- hold-up stage 0 to 2; R69, R367; reset 0 -/
  stage : Nat
  /-- filtered HALT_REQ_N is low (input pin); R63, R69; reset low (DESIGN CHOICE true, the level of an absent source R391, log entry 6) -/
  haltReqLow : Bool
  /-- low 32 bits of the base tick of the last state change; R69; reset 0 -/
  changeTick : Nat
  /-- last device state recorded in MRAM and its return state; R386; reset BOOT (DESIGN CHOICE boot, log entry 6) -/
  lastState : DevState
  lastRet : Option DevState
  /-- restart mode 0 to 2 (MRAM); R386; reset 0 -/
  restartMode : Nat
  /-- scope of a reset that RESET_DEVICE or FW_ACTIVATE has scheduled; R389, R487; reset none -/
  resetScope : Option Nat
  /-- local time at which that reset takes effect, 20 µs after the completion; R389, R487; reset 0 -/
  resetDue : Nat
  /-- RECOVERY is entered at the next BOOT; R389; reset false -/
  recoveryNext : Bool
  /-- cause code of the START record: 0 power, 1 PWR_RST_N, 2 RESET_DEVICE, 3 failed boot; R455; reset 0 -/
  startCause : Nat
  /-- PWR_RST_N filtered low (input pin); R382; reset false -/
  pwrRstLow : Bool
  /-- the start follows a rise of the main rails, not yet counted; R387; reset true -/
  powerUp : Bool
  /-- POWER_FAIL_N filtered low (input pin); R367; reset false -/
  powerFailLow : Bool
  /-- PWR_RST_N was asserted in stage 2 and waits for its end; R382; reset false -/
  resetWaits : Bool
  /-- main rails good; R518; reset true -/
  railsGood : Bool
  /-- power has returned in stage 2; R370; reset false -/
  powerBack : Bool
  /-- VAON holds (above V_RET); R59; reset true -/
  vaon : Bool
  /-- RETAIN_LOST, STK; R373; reset 1 (VAON first rises, R379) -/
  retainLost : Bool
  /-- 32-bit saturating power-cycle count (MRAM); R59, R442; reset 0 -/
  powerCycles : Nat
  /-- local time in units of 1/6 ns; R15 to R17; reset 0 -/
  now : Nat
  /-- base tick in progress; R16; reset 0 -/
  tick : Nat
  /-- local time of the boundary of the tick in progress; R16; reset 0 -/
  tickAt : Nat
  /-- operating time at local time optimeAt, in ms (48 bits); R445; reset 0 -/
  optime : Nat
  optimeAt : Nat
  /-- operating time last written to the configuration region; R445; reset 0 -/
  optimeSaved : Nat
  /-- releases are being made from boundary releaseFrom on; R113, R129; reset none -/
  releasing : Option Nat
  /-- the configuration header of MRAM is valid; R383; reset false -/
  cfgValid : Bool
  /-- configuration format in the header; R383; reset 0 -/
  cfgFormat : Nat
  deriving DecidableEq, Repr

/-! ### Image (04) -/

structure Image where
  /-- 262,144 descriptors of 16 bytes by slot, the unlisted free; R75; reset free -/
  descs : List (Nat × SlotDesc)
  /-- live bank, 262,144 tagged words, the unlisted EMPTY; R14, R81; reset EMPTY -/
  live : List (Nat × TWord)
  /-- snapshot bank with the base tick of the freeze that wrote each word (none before the first); R81, R93; reset empty -/
  snap : List (Nat × TWord × Option Nat)
  /-- free runs (base, order), rising base; R77; reset one run of order 18 -/
  free : List (Nat × Nat)
  /-- runs allocated by one SLOT_ALLOC each (base, order), rising base; R80; reset empty -/
  runs : List (Nat × Nat)
  /-- force table, at most 4,096 entries, rising slot; R94; reset empty -/
  forces : List Force
  /-- the FABRIC tick of the last force command and the force table as it stood before that tick's first; R97; reset none -/
  forcesBefore : Option (Nat × List Force)
  /-- force table copy in MRAM; R98; reset empty -/
  forcesMram : List Force
  /-- the clear marker of FORCE_CLEAR_ALL is still to be written; R98, R369; reset false -/
  markerPending : Bool
  /-- 8-bit discrepancy counter per slot; R308; reset 0 -/
  disc : List (Nat × Nat)
  /-- output slots whose live word a running activation wrote: the word that the output latch still takes; R18; reset empty -/
  shown : List (Nat × TWord)
  /-- output values latched at the last t(k), by slot; R18, R95; reset empty -/
  latched : List (Nat × TWord)
  /-- BAR2 image view: entry and low 24 bits of the freeze tick; R540; reset empty -/
  view : List (Nat × TWord × Option Nat)
  deriving DecidableEq, Repr

/-! ### Programs and online change (06, 08, 09) -/

/-- What a task entry of an image fixes beside its scheduling record (R159). -/
structure TaskDef where
  sched : SchedRec
  entry : Nat
  pages : List Nat
  window : Nat
  context : Nat
  outputs : List Nat
  deriving DecidableEq, Repr

/-- A program generation as it is installed (R158 to R161, R212). -/
structure Program where
  gen : Nat
  keySlot : Nat
  image : Bytes
  codeLength : Nat
  dataWords : Nat
  retentiveWords : Nat
  trapPolicy : BitVec 8
  layoutHash : Bytes
  buildId : Bytes
  tasks : List TaskDef
  code : List (Nat × Bytes)
  slotRefs : List (Nat × Nat × Nat)
  init : List (Nat × TWord)
  pageMap : List Nat
  deriving DecidableEq, Repr

/-- One data entry of a carry map (R215). -/
structure CarryEntry where
  src : Nat
  dst : Nat
  count : Nat
  conv : Nat
  deriving DecidableEq, Repr

/-- One slot action of a carry map (R217). -/
inductive SlotAction where
  | move (order src dst : Nat)
  | free (order base : Nat)
  | retype (slot : Nat) (ty : BitVec 4) (subTy : BitVec 4) (subPayload : Word)
  deriving DecidableEq, Repr

/-- A carry map (R214). -/
structure CarryMap where
  fwd : List CarryEntry
  rev : List CarryEntry
  actions : List SlotAction
  codePairs : List (Nat × Nat)
  fromHash : Bytes
  toHash : Bytes
  raw : Bytes
  deriving DecidableEq, Repr

/-- A generation that is staged or retained beside the running one, with its carry map and the descriptors that its
slot actions replaced (R217, R220, R226, R231). -/
structure Beside where
  prog : Program
  map : CarryMap
  saved : List (Nat × SlotDesc)
  deriving DecidableEq, Repr

/-- A PENDING CHANGE_COMMIT or CHANGE_REVERT, or a switchover, that seeks a boundary (R224, R231, R342). -/
structure Attempt where
  revert : Bool
  holdFrom : Nat
  attempts : Nat
  maxWords : Nat
  gap : Nat
  made : Nat
  first : Nat
  skips : Nat
  handle : Nat
  deriving DecidableEq, Repr

/-- An open switch window (R226, R227). -/
structure Window where
  boundary : Nat
  w : Nat
  d : Nat
  endAt : Nat
  due : List (Nat × Nat)
  failures : Nat
  skips : Nat
  halt : Bool
  revert : Bool
  handle : Nat
  deriving DecidableEq, Repr

structure Change where
  /-- the running generation; R104, R128; reset none -/
  running : Option Program
  /-- the staged generation; R220; reset none -/
  staged : Option Beside
  /-- the retained generation; R226; reset none -/
  retained : Option Beside
  /-- a MOVE destination or conflicting slot of the staged change, on which FORCE_SET gives BUSY; R219; reset empty -/
  busySlots : List Nat
  /-- highest generation issued since the last cold start (MRAM); R128, R218; reset 0 -/
  highest : Nat
  /-- generation issued in the archive's current and previous entries with their images and key slots (NOR); R127, R478; reset empty -/
  archive : Option (Nat × Nat × Bytes)
  archivePrev : Option (Nat × Nat × Bytes)
  /-- the last switch record in MRAM: generation and page map; R226, R233; reset none -/
  switchRec : Option (Nat × List Nat)
  /-- tracer marks writes; R221, R223; reset 0 -/
  tracing : Bool
  /-- tracer runs in reverse; R222, R223; reset 0 -/
  reverse : Bool
  /-- pending traced words, addresses of the running generation, rising; R221; reset empty -/
  traced : List Nat
  /-- the pending commit or revert; R224; reset none -/
  attempt : Option Attempt
  /-- the open switch window; R226; reset none -/
  window : Option Window
  /-- event tasks held back by the attempt in progress; R224; reset empty -/
  heldTasks : List Nat
  /-- words whose conversion was refused; R216; reset 0 -/
  convFailures : Nat
  deriving DecidableEq, Repr

/-! ### Data memory, legacy area and persistence (06, 14) -/

/-- Which words a group of MRAM blocks holds (R361). -/
inductive GroupKey where
  | data (page run : Nat)
  | slots (run : Nat)
  deriving DecidableEq, Repr

/-- The record that decides how the next start restores (R366). -/
inductive SealRec where
  | none | sealed (writeSeq gen powerCycles optime : Nat) | open
  deriving DecidableEq, Repr

/-- A frame of the code store (R191): the page number it holds, the generations whose page with that number it is, and the 64 lines
of 64 bytes with the CRC-32C kept beside each. -/
structure Frame where
  page : Nat
  gens : List Nat
  lines : List (Bytes × Word)
  deriving DecidableEq, Repr

/-- The line CRC table of a generation in its two DDR copies, by line number 64 × page + line; none where an entry is uncorrectable
(R192, R202). -/
structure LineTable where
  copyA : List (Option Word)
  copyB : List (Option Word)
  deriving DecidableEq, Repr

structure Memory where
  /-- data memory, 4,194,304 tagged words by physical address, the unlisted EMPTY; R14, R212; reset EMPTY -/
  data : List (Nat × TWord)
  /-- legacy area, 65,536 words of 16 bits, the unlisted 0; R152; reset 0 -/
  legacy : List (Nat × BitVec 16)
  /-- legacy words that are uncorrectable until a store; R417; reset empty -/
  legacyBad : List Nat
  /-- MRAM groups by number (at most 32,768); R361; reset empty -/
  groups : List (Nat × GroupKey)
  /-- dirty blocks: block number (5 × group + block 0 to 4), local time it became dirty, oldest first; R362; reset empty -/
  dirty : List (Nat × Nat)
  /-- the two copy areas by block number: 32-bit write stamp and 64 bytes; R361; reset empty -/
  copyA : List (Nat × Nat × Bytes)
  copyB : List (Nat × Nat × Bytes)
  /-- 32-bit write sequence; R362; reset 0 -/
  writeSeq : Nat
  /-- seal or open marker; R366; reset none -/
  sealRec : SealRec
  /-- line CRC tables by generation; R192; reset empty -/
  tables : List (Nat × LineTable)
  /-- DDR spare pages used, of 256; R203; reset 0 -/
  spares : Nat
  /-- the spare page that stands for a page's DDR location, by generation and page; R203; reset empty -/
  spareMap : List ((Nat × Nat) × Nat)
  /-- code store frames that hold a page, by frame number 0 to 2,047; R191; reset empty -/
  frames : List (Nat × Frame)
  /-- frames that hold the resident set; R193, R194; reset empty -/
  resident : List (Nat × Nat)
  /-- lead loads in progress: task; R196; reset empty -/
  loading : List Nat
  /-- bad pages waiting for a rebuild; R202; reset empty -/
  badPages : List (Nat × Nat)
  /-- lost pages; R204; reset empty -/
  lostPages : List (Nat × Nat)
  /-- STAT_CODE_ERR counts; R211; reset 0 -/
  refetches : Nat
  rebuilds : Nat
  losts : Nat
  deriving DecidableEq, Repr

/-! ### Tasks and engines (05, 06, 12) -/

/-- Task states with the codes of R132. -/
inductive TState where
  | disabled | idle | suspended | held | ready | running | preempted | halted
  deriving DecidableEq, Repr, Inhabited

/-- What a saved context holds beside the words of the task's context area in data memory (R117, R159). -/
structure Ctx where
  /-- compared operations numbered so far, and the last words both engines of a pair wrote to DISCREPANCY slots; R301, R308 -/
  compared : Nat
  discA : List (Nat × TWord)
  discB : List (Nat × TWord)
  /-- a word of the context area was uncorrectable; R417 -/
  bad : Bool
  deriving DecidableEq, Repr

/-- An activation from its release to its end (R111, R119). -/
structure Activation where
  tick : Nat
  releasedAt : Nat
  capture : Nat
  source : Nat
  coalesced : Nat
  arg : TWord
  frozen : Bool
  ctx : Option Ctx
  fabricTicks : Nat
  /-- output slots that the activation has written, with the last word; R18 -/
  writes : List (Nat × TWord)
  /-- the end that has been executed and whose capture lies at or after the next boundary: its TIMEBASE capture, the reason of a
  halt, the engine time in FABRIC ticks; R17, R18 -/
  ending : Option (Nat × Option Nat × Nat)
  deriving DecidableEq, Repr

structure Task where
  /-- scheduling record in force, 32 bytes (MRAM); R105; reset disabled -/
  sched : SchedRec
  /-- R123; reset DISABLED -/
  st : TState
  /-- R123; reset 0 -/
  suspendPending : Bool
  /-- pending latch, with source and argument of the first trigger and its capture; R110, R111; reset none -/
  latch : Option (Nat × TWord × Nat)
  /-- 8-bit saturating coalesced count; R110; reset 0 -/
  coalesced : Nat
  /-- timer: local time at which it elapses; R107, R185; reset none -/
  timer : Option Nat
  /-- the activation; R119; reset none -/
  act : Option Activation
  /-- 64-bit releases since the last clear; R132; reset 0 -/
  releases : Nat
  /-- 32-bit saturating skip count; R119; reset 0 -/
  skips : Nat
  /-- controlled-skip count; R120; reset 0 -/
  controlledSkips : Nat
  /-- budget expiries; R132; reset 0 -/
  expiries : Nat
  /-- releases that were HELD; R132; reset 0 -/
  heldReleases : Nat
  /-- coalesced triggers, 32-bit saturating; R132; reset 0 -/
  coalescedTotal : Nat
  /-- tick of the last release; R110, R132; reset none -/
  lastRelease : Option Nat
  /-- E of the last ended activation and E_max in µs; R125; reset 0 -/
  eLast : Nat
  eMax : Nat
  /-- largest engine time in µs; R125; reset 0 -/
  engMax : Nat
  /-- engine of the running or last activation; R132; reset none -/
  engine : Option Nat
  /-- reason for HALTED: 0 none, 1 budget, 2 compare mismatch; R132; reset 0 -/
  haltReason : Nat
  /-- operating time in ms of the last end within the budget; R429; reset 0 -/
  lastGood : Nat
  deriving DecidableEq, Repr

/-- The external operations that a pair compares (R301). -/
inductive XOp where
  | readData (addr : Nat)
  | readSlot (slot : Nat)
  | readDesc (slot word : Nat)
  | readLegacy (addr : Nat)
  | writeSlot (slot : Nat) (w : TWord)
  | writeLegacy (addr : Nat) (w : TWord)
  | putLegacyBit (addr bit : Nat) (w : TWord)
  | raise (task : Nat) (w : TWord)
  | timerStart (task : Nat)
  | timerStop (task : Nat)
  | logEvent (code : BitVec 16) (w : TWord)
  | timeNow
  | trapped (cause : Nat)
  | ended
  | bufferFull
  deriving DecidableEq, Repr

/-- One scan engine (R135, R301, R303). -/
structure Engine where
  /-- the task it runs; R135; reset none -/
  task : Option Nat
  /-- G0 to G31, 40 bits each; R135; reset EMPTY (DESIGN CHOICE outside an activation, log entry 6) -/
  regs : List TWord
  /-- 28-bit program counter; R135; reset 0 -/
  pc : Nat
  /-- 8 bits; R135; reset 0 -/
  markCount : Nat
  /-- 4 bits; R135; reset 0 -/
  lastMark : Nat
  /-- 1 bit; R135, R154; reset 0 -/
  lgcCarry : Bool
  /-- 1 bit; R135, R154; reset 0 -/
  lgc : Bool
  /-- local store, 16,384 tagged words, the unlisted undefined (a free value); R14, R138; reset unlisted -/
  loc : List (Nat × TWord)
  /-- engine time of the activation in units of 1/6 ns; R118, R163; reset 0 -/
  clk : Nat
  /-- local time at which the engine took the activation, and at which it last became free; R118, R358; reset 0 -/
  since : Nat
  freeAt : Nat
  /-- the context it restored held an uncorrectable word: the first instruction traps POISON; R417; reset false -/
  ctxBad : Bool
  /-- instructions retired in the activation; R299; reset 0 -/
  retired : Nat
  /-- compared operations numbered so far in the activation; R301; reset 0 -/
  compared : Nat
  /-- the compared operation issued and not yet resolved, with its instruction; R301; reset none -/
  issued : Option (XOp × Instr)
  /-- results of the operations of the instruction in progress; R301; reset empty -/
  results : List TWord
  /-- commit buffer, 8,192 entries of address and word, oldest first; R303; reset empty -/
  buf : List (Nat × TWord)
  /-- data words of the instruction in progress that are in the commit buffer already; R303; reset 0 -/
  written : Nat
  /-- last words written to DISCREPANCY slots in the activation; R308; reset empty -/
  discWrites : List (Nat × TWord)
  /-- the engine's clock is stopped; R358; reset 0 -/
  parked : Bool
  /-- debug holds the engine; R467; reset 0 -/
  halted : Bool
  /-- debug lets the engine execute one instruction; R467; reset 0 -/
  stepOne : Bool
  /-- stop requested at the next instruction boundary by a preemption: the task that takes the engine; R116; reset none -/
  preemptFor : Option Nat
  /-- local time of that request; R114; reset 0 -/
  preemptAt : Nat
  /-- local time at which the engine was assigned, with the state, the context and the last engine that the activation had before;
  R114, R115, R132; reset none -/
  assigned : Option (Nat × TState × Option Ctx × Option Nat)
  deriving DecidableEq, Repr

/-- Compare-pair states with the codes of R298. -/
inductive PState where
  | split | joining | verifying | joined | splitting
  deriving DecidableEq, Repr, Inhabited

structure Scan where
  /-- 64 task entries; R104; reset DISABLED -/
  tasks : List Task
  /-- 16 engines E0 to E15; R14, R135; reset free -/
  engines : List Engine
  /-- 8 compare pairs (MRAM); R298; reset SPLIT -/
  pairs : List PState
  /-- the pair holds a verification it must pass after a mismatch before TASK_RESUME counts; R133; reset 0 -/
  verified : BitVec 8
  /-- STAT_DUAL fault bits, W1C; R320; reset 0 -/
  dualFault : BitVec 8
  /-- STAT_DUAL_CNT mismatches, 16-bit saturating; R320; reset 0 -/
  mismatches : Nat
  /-- STAT_DUAL_CNT verify_fail, 8-bit saturating; R320; reset 0 -/
  verifyFails : Nat
  /-- freezes in progress, in their order: task and its end; R87; reset empty -/
  freezes : List Nat
  /-- BAR2 task view, the records of the last boundary; R540; reset empty -/
  taskView : List (Nat × Bytes)
  deriving DecidableEq, Repr

/-! ### Network and stations (10, 11) -/

/-- The schedule of NET_CONFIG (R250, R251): the port and station records, its generation, and S.  -/
structure Schedule where
  gen : Nat
  ports : List PortRec
  stations : List SchedStation
  deriving DecidableEq, Repr

structure PortState where
  /-- PHY link; R267; reset 0 -/
  linkUp : Bool
  /-- 8-bit saturating drop counters fcs, foreign, late, overflow; R253, R267; reset 0 -/
  fcs : Nat
  foreign : Nat
  late : Nat
  overflow : Nat
  /-- 16-bit saturating; R267; reset 0 -/
  duplicate : Nat
  missing : Nat
  /-- rejected frames (check 9, R248, R337); R253; reset 0 -/
  rejected : Nat
  /-- ring_broken; R239, R267; reset 0 -/
  broken : Bool
  /-- consecutive cycles in which due frames reached one end only; R239; reset 0 -/
  oneEnd : Nat
  /-- input queue of 16 frames: station and frame; R18; reset empty -/
  queue : List (Nat × NetFrame)
  /-- frames seen this cycle: station, kind, far end; R253 check 8; reset empty -/
  seen : List (Nat × Nat × Bool)
  /-- PTP frames of the current second of PTP time, and that second; R253 check 2; reset 0 -/
  ptpCount : Nat
  ptpSecond : Nat
  /-- due stations of the last cycle that was cut off, and whether a frame of each reached the own end; R239; reset empty -/
  ended : List (Nat × Bool)
  /-- the session grant of the cycle: station and grant kind; R243, R275; reset none -/
  grant : Option (Nat × Nat)
  /-- stations whose Delay_Req waits for its Delay_Resp; R257; reset empty -/
  delayDue : List Nat
  /-- the last CONTROL frame sent, as bytes from the Lacework header on; R242, R243; reset none -/
  control : Option Bytes
  /-- the OUTPUT frames of the cycle: station, bytes from the header on; R244; reset empty -/
  outputs : List (Nat × Bytes)
  /-- SESSION_DOWN frames sent in the cycle: station, bytes; R271; reset empty -/
  sessionDown : List (Nat × Bytes)
  /-- round-robin position of each of the four grant classes: the station served last; R275; reset 0 (DESIGN CHOICE 0, log entry 6) -/
  rr : List Nat
  /-- Sync and Follow_Up go out in the time window of the cycle, and the stations whose Delay_Resp does; R257; reset false, empty -/
  syncSent : Bool
  delayResp : List Nat
  deriving DecidableEq, Repr

/-- Master states of a station with the codes of R269. -/
inductive MState where
  | absent | admitting | admitted | unconfigured | lost | verifying | mismatch
  deriving DecidableEq, Repr, Inhabited

/-- States of a master session (R276). -/
inductive SState where
  | opening | exchange | waiting | probing
  deriving DecidableEq, Repr, Inhabited

/-- A session at the master (R276 to R285). kind 1 to 6 as R272. -/
structure Session where
  kind : Nat
  st : SState
  /-- handle of the host operation, none for a verification of its own -/
  handle : Option Nat
  /-- message outstanding or to send: its msg_seq, type and body -/
  seq : Nat
  msgType : Nat
  body : Bytes
  sent : Bool
  /-- answer grants since the send, resends made, an answer to it was rejected; R276 -/
  grants : Nat
  resends : Nat
  rejected : Bool
  /-- the restart of R280 is used -/
  restarted : Bool
  /-- next chunk, number of chunks; R283, R285 -/
  chunk : Nat
  chunks : Nat
  /-- cycle of the next WAIT grant; R278 -/
  waitCycle : Nat
  /-- base ticks since the first WAIT of the message, in which the service core ran; R278, R291 -/
  waited : Nat
  /-- probe: grants left, cycle of the next, first identity seen; R281 -/
  firstIdent : Option Bytes
  /-- k_a or k_s; R281, R283 -/
  cycle : Nat
  /-- a COMMIT or ACTIVATE is unresolved; R276 -/
  committed : Bool
  deriving DecidableEq, Repr

/-- One station record (R268). -/
structure Station where
  /-- R269; reset ABSENT -/
  st : MState
  /-- recorded identity block, 32 bytes; R274 -/
  ident : Bytes
  /-- recorded boot epoch, 16 bits; R268 -/
  bootEpoch : Nat
  /-- confirmed configuration id; R268 -/
  confirmed : Word
  /-- channel entries of the confirmed configuration, true for WORD; R246, R282 -/
  inEntries : List Bool
  outEntries : List Bool
  /-- entries that apply from a cycle on; R283 -/
  nextEntries : Option (Nat × List Bool × List Bool)
  /-- base ticks; R282 -/
  lossTime : Nat
  holdTime : Nat
  /-- last session id, 16 bits; R268, R271 -/
  sessionId : Nat
  /-- last due cycle whose INPUT was counted; R268 -/
  kLast : Option Nat
  /-- missing due cycles in a row; R289 -/
  missed : Nat
  /-- the first cut-off with BAD has been recorded; R289 -/
  badNoted : Bool
  /-- flag [1] of the last INPUT; R289 -/
  failFlag : Bool
  /-- session_request of the last counted INPUT; R275 -/
  request : Bool
  /-- cycle of the rejoin seen; R290 -/
  rejoin : Option Nat
  /-- first cycle with OUTPUT frames k_a; R281 -/
  outputsFrom : Nat
  /-- INPUT frame counted in the current cycle; R83 -/
  counted : Option NetFrame
  /-- notification numbers recorded since the boot epoch changed; R287 -/
  notified : List Nat
  /-- notification to acknowledge; R287 -/
  noteAck : Option Nat
  /-- an unresolved commit; R283, R284, R292 -/
  unresolved : Option PendingCommit
  /-- the verification due; R288 -/
  verifyDue : Bool
  /-- cycle of the last verification; R288 -/
  verifyCycle : Nat
  /-- session answers discarded as stale and rejected; R276 -/
  stale : Nat
  rejected : Nat
  /-- the path delay record of the station and schedule was written; R265 -/
  delayNoted : Bool
  /-- input channels discarded since the first COMMIT of changed entries; R283 -/
  discard : Bool
  /-- cycle of the last Delay_Req grant; R257 -/
  delayGrant : Nat
  /-- waits for the station's return after ACTIVATE: the firmware operation's handle and the base tick of the answer; R285 -/
  returning : Option (Nat × Nat)
  /-- the boot epoch that the verification in progress or due expects of the station; R288 -/
  newEpoch : Nat
  /-- an INPUT frame has passed every check in the current cycle without being counted, a rejoin seen; R290 -/
  seenNow : Bool
  /-- a newer boot epoch seen while the service core is paused, acted upon when it resumes; R291 -/
  epochSeen : Option Nat
  /-- the ABORT still to be sent: the id of the session that it ends, and its msg_seq; R276 -/
  abortSeq : Option (Nat × Nat)
  session : Option Session
  deriving DecidableEq, Repr

/-- Timebase states with the codes of R258. -/
inductive TbState where
  | free | acquiring | locked | holdover
  deriving DecidableEq, Repr, Inhabited

structure Net where
  /-- schedule in force (MRAM); R265; reset none -/
  sched : Option Schedule
  /-- schedule computed and its first cycle; R265; reset none -/
  nextSched : Option (Nat × Schedule)
  /-- sched_gen counter; R243; reset 0 -/
  schedGen : Nat
  /-- cycles are running (MRAM flag); R266; reset false -/
  running : Bool
  /-- first cycle of the network; R266; reset 0 -/
  firstCycle : Nat
  /-- CONTROL frames go out in the cycle in progress; R266; reset false -/
  cycling : Bool
  /-- 4 ports; R236; reset as PortState -/
  ports : List PortState
  /-- station records by address; R268; reset empty -/
  stations : List (Nat × Station)
  /-- halt_all; R259; reset false -/
  haltAll : Bool
  /-- the halt of CONFIGURE; R262; reset false -/
  haltConfigure : Bool
  /-- EXTEST holds halt_all; R466; reset false -/
  haltExtest : Bool
  /-- halt bits by station (MRAM); R259, R261; reset empty -/
  haltBits : List Nat
  /-- halts set since the last CONTROL frame, carried even if lifted; R259; reset none -/
  haltLatched : Bool
  haltBitsLatched : List Nat
  /-- consecutive cycles with INPUT frames of a newer epoch; R337; reset 0 -/
  newerCycles : Nat
  newerSeen : Bool
  /-- timebase source 0 to 2, time-link port, domain, step threshold in ns (MRAM); R254, R258; reset 0, 0, 0, DESIGN CHOICE 1,000 (log entry 6) -/
  source : Nat
  tlPort : Nat
  domain : Nat
  threshold : Nat
  /-- timebase state; R255; reset FREE -/
  tb : TbState
  /-- frequency correction of the servo in ppb, held in HOLDOVER; R255; reset 0 -/
  freq : Int
  /-- last measured offset in ns, saturating at ±32,767; R267; reset 0 -/
  offset : Int
  /-- measured offset awaiting removal; R256; reset 0 -/
  stepOffset : Int
  /-- a step falls due at the next boundary; R256; reset false -/
  stepDue : Bool
  /-- consecutive measurements below 1 µs, to 16; R255; reset 0 -/
  goodMeasures : Nat
  /-- PTP seconds of the next TIME_PPS_IN edge; R254; reset 0 -/
  ppsSeconds : Nat
  /-- PTP seconds that the host gave the last TIME_PPS_IN edge; R254; reset 0 -/
  secondsBase : Nat
  /-- the cycle whose input cut-off has been made last; R83; reset none -/
  lastCut : Option Nat
  /-- station firmware library: 8 entries of object id and bytes (NOR); R285; reset empty -/
  library : List (Nat × Word × Bytes)
  /-- BAR2 station view, records of the last cut-off; R540, R541; reset empty -/
  stationView : List (Nat × Bytes)
  deriving DecidableEq, Repr

/-! ### Redundant pair (13) -/

structure Pair where
  /-- 32-bit role epoch (MRAM); R335; reset 0 -/
  epoch : Nat
  /-- side strap ROLE_PREF (input pin), true for side B; R322; reset false (DESIGN CHOICE side A, log entry 6) -/
  sideB : Bool
  /-- pair_ports, member, auto_resync, partner serial (MRAM); R347; reset 0 -/
  ports : BitVec 4
  member : Bool
  autoResync : Bool
  partnerSerial : Nat
  /-- lane locks; R326, R352; reset 0 -/
  lane0 : Bool
  lane1 : Bool
  /-- link up; R326; reset 0 -/
  linkUp : Bool
  /-- decoded PEER_ALIVE_IN 0 NONE, 1 ALIVE, 2 PRIMARY and its capture; R323; reset NONE -/
  line : Nat
  lineAt : Nat
  /-- the line reads otherwise than STATUS, and LINE_FAULT is recorded; R339; reset false -/
  lineFault : Bool
  /-- peer_fault; R325; reset 0 -/
  peerFault : Bool
  /-- partner's role, state, eligibility, side, link_major, epoch and serial as its frames report them; R327; reset none -/
  partnerRole : Option Nat
  partnerState : Nat
  partnerEligible : Bool
  partnerSideB : Bool
  partnerMajor : Nat
  partnerEpoch : Nat
  partnerId : Nat
  /-- highest epoch received from the partner; R335; reset 0 -/
  seenEpoch : Nat
  /-- own eligibility inputs: every delta applied, timebase within ±100 ns; R340; reset false -/
  inStep : Bool
  tbOk : Bool
  /-- link sequence sent, next expected, and those missing, rising; R327, R328; reset 0 -/
  lseqTx : Nat
  lseqRx : Nat
  missing : List Nat
  /-- the partner's report of its lowest missing lseq; R328; reset 0 -/
  resendFrom : Nat
  /-- deltas received and not yet applied: tick, records, the record and byte counts of DELTA_END; R332, R333; reset empty -/
  deltas : List (Nat × List DeltaRec × Option (Nat × Nat))
  /-- items of mirrored state changed in the tick in progress, as delta records; R330; reset empty -/
  changed : List DeltaRec
  /-- the last closed delta: tick and records; R330, R333; reset none -/
  closed : Option (Nat × List DeltaRec)
  /-- tick of the last delta applied; R327; reset 0 -/
  lastApplied : Nat
  /-- tick of the last delta the partner applied; R327; reset 0 -/
  partnerApplied : Nat
  /-- last and largest delta in KiB; R351, R352; reset 0 -/
  deltaKib : Nat
  deltaMax : Nat
  /-- relay bytes of the tick in progress; R333; reset 0 -/
  relayBytes : Nat
  /-- stations the partner's last TICK_STATUS shows as missed; R334; reset empty -/
  partnerMissed : List Nat
  /-- synchronisation phase 0 to 4, handle of PAIR_SYNC, phase 2 complete, join tick, paused; R344, R345, R348; reset 0 -/
  syncPhase : Nat
  syncHandle : Option Nat
  phase2 : Bool
  joinTick : Nat
  syncPaused : Bool
  /-- local time at which the link went down in a synchronisation; R345; reset 0 -/
  pausedAt : Nat
  refusal : Nat
  /-- a PAIR_SYNC with receive = 1 awaits an offer; R348; reset false -/
  awaiting : Bool
  /-- the switchover in progress: hold_from and first boundary; R342; reset none -/
  switchover : Option (Nat × Nat)
  /-- tasks held by the switchover; R342; reset empty -/
  heldTasks : List Nat
  /-- a handover falls due at the boundary of the tick in progress; R342; reset false -/
  handoverDue : Bool
  /-- a handover has been made: the base tick at which mastership passes; R343; reset none -/
  handoverAt : Option Nat
  /-- cycle master on the pair ports, ROLE_OUT; R324, R343; reset false -/
  master : Bool
  /-- local time at which a takeover is due, with its cause; R341; reset none -/
  takeoverDue : Option (Nat × Nat)
  /-- yield at the next boundary; R337; reset false -/
  yieldDue : Bool
  /-- the staged generation that the partner has reported installed; R225, R234; reset none -/
  partnerGen : Option Nat
  /-- persistence limit the partner reports, in bytes; R365; reset none -/
  partnerLimit : Option Nat
  /-- STAT_PAIR_CNT, 8-bit saturating; R352; reset 0 -/
  takeovers : Nat
  handovers : Nat
  linkLosses : Nat
  syncs : Nat
  /-- link frames sent in the last two ticks, newest first: lseq, tick, resend flag, body; R327, R328; reset empty -/
  outbox : List (Nat × Nat × Bool × SelBody)
  /-- downstream frames that the standby sends from its end in the cycle: port and bytes; R334; reset empty -/
  copies : List (Nat × Bytes)
  /-- arbitration after SELFTEST: its start; R338; reset none -/
  deciding : Option Nat
  deriving DecidableEq, Repr

/-! ### Energy (14) -/

structure Holdup where
  cConfig : Nat
  vmin : Nat
  eta : Nat
  margin : Nat
  pBoard : Nat
  ride : Nat
  ceiling : Nat
  ratio : Nat
  deriving DecidableEq, Repr

structure Energy where
  /-- power of the six rails over the last interval, mW; R354; reset 0 -/
  rails : List Nat
  /-- module power of the last intervals, newest first, at most 100, mW; R354; reset empty -/
  samples : List Nat
  /-- rolling average in mW; R354; reset 0 -/
  average : Nat
  /-- cap in units of 10 mW, 0 disabled (MRAM); R375; reset 0 -/
  cap : Nat
  /-- floor class (MRAM); R375; reset 3 -/
  floor : Nat
  /-- elastic class 0 to 3; R357; reset 0 -/
  cls : Nat
  /-- class at entry to HOLDUP; R370; reset 0 -/
  clsEntry : Nat
  /-- energy_over; R358; reset 0 -/
  energyOver : Bool
  /-- intervals since the last step of R358, intervals over the cap with steps exhausted, intervals under; R358; reset DESIGN CHOICE 100, 0, 0 (log entry 6) -/
  sinceStep : Nat
  overRun : Nat
  underRun : Nat
  /-- step 1 has paused the background jobs; R358; reset false -/
  paused : Bool
  /-- hold-up configuration (MRAM); R376; reset 0, 1,000 mV, 50 %, 250 %, 0, 0, 4 KiB, 1.00 -/
  cfg : Holdup
  /-- C_est in µF while valid (MRAM); R356; reset none -/
  cEst : Option Nat
  /-- bank voltage V in units of 10 mV; R355; reset 0 -/
  v : Nat
  /-- E_avail in nJ; R355; reset 0 -/
  avail : Nat
  /-- dirty limit L in bytes; R363; reset 4,096 -/
  limit : Nat
  /-- values of L at the last interval ends, newest first, at most 100; R363; reset empty -/
  limits : List Nat
  /-- holdup_short; R363; reset 1 -/
  short : Bool
  /-- 32-bit saturating counters: persist_stalls, returns in stage 1, entries to stage 2, intervals with energy_over; R374; reset 0 -/
  stalls : Nat
  returns : Nat
  stage2s : Nat
  overIntervals : Nat
  /-- the second in which the last stall was recorded; R364; reset none -/
  stallSecond : Option Nat
  /-- duration of the last dip in µs; R374; reset 0 -/
  lastDip : Nat
  /-- stage 1: start, V at start, lowest V, energy metered in nJ and the local time to which it is; R356, R370; reset 0 -/
  stageAt : Nat
  v1 : Nat
  vLow : Nat
  used : Nat
  meterAt : Nat
  /-- D at entry to stage 2 in bytes and E_avail then, duration of stage 1 in µs; R369; reset 0 -/
  dStage2 : Nat
  availStage2 : Nat
  stage1Us : Nat
  /-- charge drawn in units of 0.01 µAh, capacity in mAh, low threshold in %, unknown (RETAIN_LOST); R372, R377; reset 0, DESIGN CHOICE 0 mAh and 1 % (log entry 6), unknown -/
  drawn : Nat
  capacity : Nat
  lowPct : Nat
  cellUnknown : Bool
  /-- cell_low and cell_absent; R372; reset 0 -/
  cellLow : Bool
  cellAbsent : Bool
  /-- VBAT last measured in mV; R372; reset 0 -/
  vbat : Nat
  /-- seal_missing; R366; reset 0 -/
  sealMissing : Bool
  deriving DecidableEq, Repr

/-! ### Calendar (16) -/

/-- The BCD fields of R393 in the order of TIME_GET. -/
structure CalFields where
  seconds : Byte
  minutes : Byte
  hours : Byte
  weekday : BitVec 4
  day : Byte
  month : Byte
  year : Byte
  century : Byte
  deriving DecidableEq, Repr

structure Alarm where
  value : CalFields
  mask : Byte
  enable : Bool
  oneShot : Bool
  /-- the flag of STAT_CAL -/
  flag : Bool
  /-- a match in RETAIN waits for its record -/
  inRetain : Bool
  deriving DecidableEq, Repr

structure Calendar where
  /-- R393; reset 2000-01-01 00:00:00, weekday 6 -/
  fields : CalFields
  /-- 15 bits; R393; reset 0 -/
  subsec : Nat
  /-- TIME_VALID, STK; R405; reset 0 -/
  valid : Bool
  /-- DATE_SUSPECT, STK; R394; reset 0 -/
  suspect : Bool
  /-- alarms 0 and 1; R404; reset disabled -/
  alarm0 : Alarm
  alarm1 : Alarm
  /-- trim curve a0, a2, T0 and its source (host = true), host curve in MRAM; R398, R400, R411; reset 0 (DESIGN CHOICE, unprogrammed fuse trim words, log entry 6), factory -/
  a0 : Int
  a2 : Int
  t0 : Int
  hostCurve : Bool
  mramCurve : Option (Int × Int × Int)
  /-- N of the latest evaluation and of the current window, temperature in 0.25 °C; R398, R399; reset 0 -/
  nNext : Int
  n : Int
  temp : Int
  /-- 5-bit rollover counter of the window, corrections made in it, and a removal made at the eligible value that subsec
  still shows; R399, R403; reset 0, 0, false -/
  winCount : Nat
  corrections : Nat
  removed : Bool
  /-- AON ticks a retard hold still lasts; R403; reset 0 -/
  hold : Nat
  /-- a mode-1 TIME_SET that waits; R402; reset none -/
  pendingSet : Option CalFields
  deriving DecidableEq, Repr

/-! ### Memory integrity (17) -/

structure Integrity where
  /-- 16-bit saturating; R427; reset 0 -/
  sramCe : Nat
  ddrCe : Nat
  /-- 8-bit saturating; R427; reset 0 -/
  sramUe : Nat
  ddrUe : Nat
  mramUe : Nat
  restored : Nat
  /-- leaky bucket level 0 to 16, bucket_over, overflows; R416, R427; reset 0 -/
  level : Nat
  bucketOver : Bool
  overflows : Nat
  /-- ERR_LAST memory and address; R427; reset 0 -/
  lastMem : Nat
  lastAddr : Nat
  /-- scrub periods of groups 0 to 3 in s (MRAM); R421, R422; reset 10, 10, 3,600, 86,400 -/
  periods : List Nat
  /-- passes completed in group 0, 32 bits; R422; reset 0 -/
  passes : Nat
  /-- local time of the end of the last pass in group 0; R421; reset 0 -/
  passAt : Nat
  /-- a scrub burst has met an uncorrectable error; R422; reset false -/
  burstUe : Bool
  deriving DecidableEq, Repr

/-! ### Watchdogs (18) -/

/-- The evidence record of R437: words +0x00 to +0x10. -/
structure Evidence where
  where0 : Word
  where1 : Word
  good : Nat
  count : Nat
  deltaMs : Nat
  deriving DecidableEq, Repr

structure Watchdogs where
  /-- enable, lock, action, open_ms, close_ms (MRAM); R432, R435, R439; reset disabled, action 0, DESIGN CHOICE 1 and 2 ms (log entry 6) -/
  enabled : Bool
  locked : Bool
  action : Nat
  openMs : Nat
  closeMs : Nat
  /-- window in force, until the next reference point; R439; reset as above -/
  openNow : Nat
  closeNow : Nat
  /-- reference point s in WDOG ticks; R432; reset 0 -/
  s : Nat
  /-- present WDOG tick; R428; reset 0 -/
  tick : Nat
  /-- R434, R436; reset 0 -/
  armed : Bool
  /-- 4 bits; R436; reset 0 -/
  lastCause : Nat
  /-- queue of 4 writes towards WDOG; R433; reset empty -/
  queue : List Word
  /-- the configured action of a failure inside a switch window, carried out at its end; R229, R435; reset none -/
  waiting : Option Nat
  /-- operating time of the last good host service; R437; reset 0 -/
  lastGood : Nat
  /-- evidence records: task budget, firmware, host, STK; R437; reset 0 -/
  evTask : Evidence
  evFw : Evidence
  evHost : Evidence
  deriving DecidableEq, Repr

/-! ### Event record (19) -/

/-- An event as the record writer's queue holds it (R446). -/
structure Event where
  code : Nat
  data : Bytes
  fw : Bool
  tick : Nat
  time : Nat
  cal : Option (CalFields × Bool)
  deriving DecidableEq, Repr

/-- A record of the event record (R442). -/
structure LogRec where
  seq : Nat
  time : Nat
  pcc : Nat
  code : Nat
  flags : Byte
  cal : Bytes
  reps : Nat
  last : Nat
  data : Bytes
  deriving DecidableEq, Repr

structure Log where
  /-- records written, newest first, at most 65,535 readable (MRAM); R441; reset empty -/
  recs : List LogRec
  /-- high-water value (MRAM); R444; reset 1 (DESIGN CHOICE 1, log entry 6) -/
  highWater : Nat
  /-- next sequence number, from 1; R442, R444; reset 1 -/
  next : Nat
  /-- queue of 256 events, oldest first; R446; reset empty -/
  queue : List Event
  /-- events lost to a full queue since the last start, 8-bit saturating; R454; reset 0 -/
  lost : Nat
  /-- sequence numbers that the last start skipped; R444, R455; reset 0 -/
  skip : Nat
  /-- events lost since the last QUEUE_LOST record; R446; reset 0 -/
  lostNew : Nat
  /-- a repeat update of the newest record has not reached MRAM; R448; reset false -/
  pendingRepeat : Bool
  /-- the version of the newest record that its tail shadow holds; R448; reset none -/
  shadow : Option LogRec
  /-- the version of the newest record in its own slot; R448; reset none -/
  own : Option LogRec
  /-- the next repeat update goes to the shadow; R448; reset true -/
  toShadow : Bool
  /-- sequence number of the newest CLEARED record, the first of the log; R453; reset 0 -/
  cleared : Nat
  /-- sequence numbers of discarded records whose slots are still to be overwritten; R453; reset empty -/
  toErase : List Nat
  /-- the writer is stopped (after stage 2 step 6); R446; reset false -/
  stopped : Bool
  deriving DecidableEq, Repr

/-! ### Security (20) -/

structure Security where
  /-- fuse array, 128 words of 32 bits; R456; reset 0 (DESIGN CHOICE: a BLANK module, log entry 6) -/
  fuses : List Word
  /-- shadow registers are loaded; R456, R471; reset false -/
  shadows : Bool
  /-- key store: public keys of root slots 0 to 3 then authorization slots 0 to 3; R460; reset none -/
  keys : List (Option Bytes)
  /-- current nonce with the operating time of its issue; R464; reset none -/
  nonce : Option (BitVec 128 × Nat)
  /-- grant in force: observe, control, end in operating ms; R469; reset none -/
  grant : Option (Bool × Bool × Nat)
  /-- TAP: outcome of the last response, EXTEST in force, data of the last operation (status, read data); R467, R468; reset 0 -/
  tapOutcome : Nat
  extest : Bool
  dbgStatus : Nat
  dbgData : BitVec 40
  /-- debug holds the service core; R467; reset false -/
  coreHeld : Bool
  /-- the TAP's last challenge register, 256 bits; R468; reset 0 -/
  challenge : BitVec 256
  /-- the TAP is in Test-Logic-Reset; R466; reset true -/
  tlr : Bool
  /-- 8-bit TAP instruction in force; R465; reset IDCODE (PRESUMED 0x01 from IEEE 1149.1, log entry 6) -/
  ir : Byte
  deriving DecidableEq, Repr

/-! ### Firmware (21) -/

/-- A seal (R482). -/
structure FwSeal where
  valid : Bool
  rollback : Nat
  seq : Nat
  digest : Bytes
  deriving DecidableEq, Repr

/-- A firmware bank in NOR (R478 to R482). -/
structure Bank where
  /-- the control sector has a valid control header; R479 -/
  control : Bool
  /-- erase count of the control sector; R479 -/
  erases : Nat
  /-- seal slots used, oldest first, of 32; R479, R482 -/
  seals : List FwSeal
  /-- sector 1: the 512-byte header and the hash list when the sector is valid; R481 -/
  header : Bytes
  list : List Bytes
  /-- data sectors written and valid: block number and bytes; R480 -/
  blocks : List (Nat × Bytes)
  /-- sectors left open; R480 -/
  opened : List Nat
  deriving DecidableEq, Repr

structure Firmware where
  /-- banks A and B; R478; reset empty (DESIGN CHOICE: the banks' contents are not the spec's, log entry 6) -/
  bankA : Bank
  bankB : Bank
  /-- update record (MRAM): state 0 to 3, bank, header digest, N, next block; R483; reset IDLE -/
  upd : Nat
  updBank : Nat
  updDigest : Bytes
  updN : Nat
  updNext : Nat
  /-- running bank 0 A, 1 B, 0xFF boot ROM; R52; reset 0xFF -/
  running : Nat
  /-- version of the running firmware, 32 bits; R52; reset 0 (DESIGN CHOICE 0 while the part runs from the boot ROM, log entry 6) -/
  version : Word
  /-- link_major and link_minor it declares, its configuration format; R353, R383; reset 0 -/
  linkMajor : Nat
  linkMinor : Nat
  cfgFormat : Nat
  /-- failed boots f (MRAM); R387; reset 0 -/
  failed : Nat
  /-- the service core runs and serves commands; R13; reset false -/
  coreUp : Bool
  /-- reloads failed in succession; R380; reset 0 -/
  reloadFails : Nat
  /-- FW_ACTIVATE or FW_REVERT in step 4: handle, target bank, former bank; R487; reset none -/
  activating : Option (Nat × Nat × Nat)
  /-- MGMT_UART rate code 0 to 5; R10, R492; reset 0 -/
  uartRate : Nat
  /-- local time of the last valid frame of MGMT_UART; R492; reset 0 -/
  uartAt : Nat
  /-- XSPI_RESET_N is driven low; R431; reset true -/
  norReset : Bool
  deriving DecidableEq, Repr

/-! ### Local field I/O (22) -/

structure Channel where
  /-- mode 0 to 2 (MRAM); R495; reset 1 for CH0 to CH23, 0 for CH24 to CH31 -/
  mode : Nat
  /-- wire-break enable (MRAM); R507; reset 0 -/
  wbe : Bool
  /-- filter in 0.1 ms (MRAM); R497; reset 30 (guarded channels: DESIGN CHOICE 30, log entry 6) -/
  filter : Nat
  /-- raw states of A and B at the last sample; R496; reset 0 -/
  rawA : Bool
  rawB : Bool
  /-- filtered states; R497; reset 0 -/
  filtA : Bool
  filtB : Bool
  /-- samples in a row that differ from the filtered state; R497; reset 0 -/
  diffA : Nat
  diffB : Nat
  /-- the next sample sets the filtered states; R497; reset true -/
  first : Bool
  /-- break set, samples in a row against it; R498; reset 0 -/
  broken : Bool
  breakCount : Nat
  /-- output_fault; R504; reset 0 -/
  outputFault : Bool
  /-- readback_fault and samples in a row against it; R505; reset 0 -/
  readbackFault : Bool
  readbackCount : Nat
  /-- applied output state and the local time of the apply that last changed it; R501, R505; reset off -/
  applied : Bool
  changedAt : Nat
  /-- current at the last sample, in 10 µA (input) or 10 mA (output); R509; reset 0 -/
  current : Nat
  /-- filtered states and break as the last field link frame carried them to the main die; R186, R494; reset 0 -/
  linkA : Bool
  linkB : Bool
  linkBreak : Bool
  /-- the value of the first sample has reached the main die without being an edge; R497; reset true -/
  setNotEdge : Bool
  deriving DecidableEq, Repr

structure Supply where
  /-- 0 good, 1 low, 2 missing; R500; reset missing -/
  cond : Nat
  /-- voltage of the last sample in mV; R500; reset 0 -/
  mv : Nat
  /-- samples in a row below 9 V, below 19.2 V, at or above 9.5 V, at or above 19.7 V; R500; reset 0 -/
  below9 : Nat
  below19 : Nat
  above9 : Nat
  above19 : Nat
  deriving DecidableEq, Repr

structure FieldIo where
  /-- 32 channels; R495; reset as Channel -/
  ch : List Channel
  /-- L+A and L+B; R500; reset missing -/
  supplyA : Supply
  supplyB : Supply
  /-- field link up; R493; reset false -/
  linkUp : Bool
  /-- local time of the last sample; R494; reset 0 -/
  sampleAt : Nat
  /-- a sample waits for its field link frame; R494; reset false -/
  sampleWaiting : Bool
  /-- the drivers are commanded off by a filtered HALT_REQ_N; R502; reset false -/
  haltOff : Bool
  /-- a halt governs what is applied in the tick in progress; R502; reset false -/
  halted : Bool
  /-- outputs latched for the next apply: bit per channel, and whether a halt governs it; R501, R502; reset off -/
  nextApply : BitVec 32
  nextHalt : Bool
  /-- what the apply of the tick in progress commanded: bit per channel; R501, R510; reset off -/
  command : BitVec 32
  /-- FIO_TEST_PULSE in progress: handle, channels left, channel under test with its start; R510; reset none -/
  test : Option (Nat × List Nat × Option (Nat × Nat))
  /-- the test of the channel has been disturbed; R510; reset false -/
  testHit : Bool
  /-- start-up step 5 has configured the field die; R388, R392; reset false -/
  configured : Bool
  deriving DecidableEq, Repr

/-! ### Register map (24) -/

structure Regs where
  /-- INT_CTRL fields; R534; reset 0 -/
  devEnable : Bool
  devVector : Nat
  errEnable : Bool
  errVector : Nat
  /-- INT_MASK and INT_CAUSE, 11 bits; R534, R535; reset 0 -/
  mask : BitVec 11
  cause : BitVec 11
  /-- INT_RING_ERR0 and INT_RING_ERR1 as 64 bits; R537; reset 0 -/
  ringErr : BitVec 64
  /-- MSI-X table words by offset (128 entries of 16 bytes), the unlisted at reset: address and data 0, vector control 1 (masked); R538; PRESUMED vector control mask bit 1 (PCI Express 3.1, log entry 7) -/
  msix : List (Nat × Word)
  /-- function mask; R538; reset 0 -/
  functionMask : Bool
  /-- pending bit array, 128 bits; R538; reset 0 -/
  pba : BitVec 128
  /-- MSI-X messages sent: vectors, newest first; R42, R538; reset empty -/
  messages : List Nat
  /-- local time of the last raise of the device event vector; R536; reset none -/
  devRaisedAt : Option Nat
  /-- latches of SYS_TICK_LO, SYS_OPTIME_LO and STAT_LOG_SEQ reads; R533, R454; reset 0 -/
  tickHi : Nat
  optimeHi : Nat
  statLog : Word
  /-- the value returned by the last register read; R531; reset 0 -/
  readData : Word
  deriving DecidableEq, Repr

/-! ### The whole state -/

structure State where
  host : HostIf
  dev : Device
  img : Image
  chg : Change
  mem : Memory
  scan : Scan
  net : Net
  pair : Pair
  energy : Energy
  cal : Calendar
  integ : Integrity
  wdg : Watchdogs
  log : Log
  sec : Security
  fw : Firmware
  fio : FieldIo
  regs : Regs
  /-- counter of the free values drawn; the model's own field (log entry 3); reset 0 (DESIGN CHOICE) -/
  free : Nat
  /-- commands waiting, first in, first out; the model's own field; reset empty -/
  pending : List Instr
  deriving DecidableEq, Repr

/-! ### Reset -/

def CqRing.reset : CqRing := ⟨0, 0, 0, 0, false, 0, 0, 0, 0, false⟩
def KqRing.reset : KqRing := ⟨0, 0, false, 0, 0, false, 0, 0, true, 0, 1, 0, false, false, [], []⟩

def HostIf.reset : HostIf :=
  { cq := List.replicate 64 .reset, kq := List.replicate 64 .reset, doorbells := [], urgent := [], cq0Upto := none, withheld := [],
    reserved := none, heldImmediate := [], lastServed := 63,
    held0 := [], heldFinals := [], gens := [], fresh := 0, freed := [], ops := [], accepted := 0,
    keyErrors := 0, urgSeq := 0, urgStatus := 0, payloadOut := [], uartOut := [] }

def Device.reset : Device :=
  { st := .boot, role := .solo, ret := none, stage := 0, haltReqLow := true, changeTick := 0, lastState := .boot,
    lastRet := none, restartMode := 0, resetScope := none, resetDue := 0, recoveryNext := false, startCause := 0, pwrRstLow := false, powerUp := true,
    powerFailLow := false, resetWaits := false, railsGood := true, powerBack := false, vaon := true, retainLost := true,
    powerCycles := 0, now := 0, tick := 0, tickAt := 0, optime := 0, optimeAt := 0, optimeSaved := 0, releasing := none,
    cfgValid := false, cfgFormat := 0 }

def Image.reset : Image :=
  { descs := [], live := [], snap := [], free := [(0, 18)], runs := [], forces := [], forcesBefore := none, forcesMram := [],
    markerPending := false, disc := [], shown := [], latched := [], view := [] }

def Change.reset : Change :=
  { running := none, staged := none, retained := none, busySlots := [], highest := 0, archive := none,
    archivePrev := none, switchRec := none, tracing := false, reverse := false, traced := [], attempt := none,
    window := none, heldTasks := [], convFailures := 0 }

def Memory.reset : Memory :=
  { data := [], legacy := [], legacyBad := [], groups := [], dirty := [], copyA := [], copyB := [], writeSeq := 0,
    sealRec := .none, tables := [], spares := 0, spareMap := [], frames := [], resident := [], loading := [], badPages := [], lostPages := [],
    refetches := 0, rebuilds := 0, losts := 0 }

/-- A disabled task's record holds 0 in every field (R106). -/
def schedDisabled : SchedRec := ⟨0, 0, false, false, false, 0, 0, 0, 0, 0, 0, 0, 0, 0⟩

def Task.reset : Task :=
  { sched := schedDisabled, st := .disabled, suspendPending := false, latch := none, coalesced := 0, timer := none,
    act := none, releases := 0, skips := 0, controlledSkips := 0, expiries := 0, heldReleases := 0,
    coalescedTotal := 0, lastRelease := none, eLast := 0, eMax := 0, engMax := 0, engine := none, haltReason := 0,
    lastGood := 0 }

def Engine.reset : Engine :=
  { task := none, regs := List.replicate 32 .empty, pc := 0, markCount := 0, lastMark := 0, lgcCarry := false,
    lgc := false, loc := [], clk := 0, since := 0, freeAt := 0, ctxBad := false, retired := 0, compared := 0, issued := none, results := [], buf := [],
    written := 0, discWrites := [], parked := false, halted := false, stepOne := false, preemptFor := none, preemptAt := 0, assigned := none }

def Scan.reset : Scan :=
  { tasks := List.replicate 64 .reset, engines := List.replicate 16 .reset, pairs := List.replicate 8 .split,
    verified := 0, dualFault := 0, mismatches := 0, verifyFails := 0, freezes := [], taskView := [] }

def PortState.reset : PortState :=
  { linkUp := false, fcs := 0, foreign := 0, late := 0, overflow := 0, duplicate := 0, missing := 0, rejected := 0,
    broken := false, oneEnd := 0, queue := [], seen := [], ptpCount := 0, ptpSecond := 0, ended := [], grant := none, delayDue := [],
    control := none, outputs := [], sessionDown := [], rr := [0, 0, 0, 0], syncSent := false, delayResp := [] }

def Net.reset : Net :=
  { sched := none, nextSched := none, schedGen := 0, running := false, firstCycle := 0, cycling := false,
    ports := List.replicate 4 .reset, stations := [], haltAll := false, haltConfigure := false, haltExtest := false,
    haltBits := [], haltLatched := false, haltBitsLatched := [], newerCycles := 0, newerSeen := false, source := 0,
    tlPort := 0, domain := 0, threshold := 1000, tb := .free, freq := 0, offset := 0, stepOffset := 0, stepDue := false, goodMeasures := 0,
    ppsSeconds := 0, secondsBase := 0, lastCut := none, library := [], stationView := [] }

def Pair.reset : Pair :=
  { epoch := 0, sideB := false, ports := 0, member := false, autoResync := false, partnerSerial := 0, lane0 := false,
    lane1 := false, linkUp := false, line := 0, lineAt := 0, lineFault := false, peerFault := false, partnerRole := none,
    partnerState := 0, partnerEligible := false, partnerSideB := false, partnerMajor := 0, partnerEpoch := 0,
    partnerId := 0, seenEpoch := 0, inStep := false, tbOk := false, lseqTx := 0, lseqRx := 0, missing := [], resendFrom := 0,
    deltas := [], changed := [], closed := none, lastApplied := 0, partnerApplied := 0, deltaKib := 0, deltaMax := 0,
    relayBytes := 0, partnerMissed := [], syncPhase := 0, syncHandle := none, phase2 := false, joinTick := 0,
    syncPaused := false, pausedAt := 0, refusal := 0, awaiting := false, switchover := none, heldTasks := [], handoverDue := false, handoverAt := none,
    master := false, takeoverDue := none, yieldDue := false, partnerGen := none, partnerLimit := none,
    takeovers := 0, handovers := 0, linkLosses := 0, syncs := 0, outbox := [], copies := [], deciding := none }

/-- The parameters until the first HOLDUP_CONFIG (R376). -/
def Holdup.reset : Holdup := ⟨0, 1000, 50, 250, 0, 0, 4, 100⟩

def Energy.reset : Energy :=
  { rails := [0, 0, 0, 0, 0, 0], samples := [], average := 0, cap := 0, floor := 3, cls := 0, clsEntry := 0,
    energyOver := false, sinceStep := 100, overRun := 0, underRun := 0, paused := false, cfg := .reset, cEst := none,
    v := 0, avail := 0, limit := 4096, limits := [], short := true, stalls := 0, returns := 0, stage2s := 0,
    overIntervals := 0, stallSecond := none, lastDip := 0, stageAt := 0, v1 := 0, vLow := 0, used := 0, meterAt := 0, dStage2 := 0,
    availStage2 := 0, stage1Us := 0, drawn := 0, capacity := 0, lowPct := 1, cellUnknown := true, cellLow := false,
    cellAbsent := false, vbat := 0, sealMissing := false }

/-- Saturday 2000-01-01 00:00:00 (R393). -/
def CalFields.reset : CalFields := ⟨0x00, 0x00, 0x00, 0x6, 0x01, 0x01, 0x00, 0x20⟩

def Alarm.reset : Alarm := ⟨⟨0, 0, 0, 0, 0, 0, 0, 0⟩, 0, false, false, false, false⟩

def Calendar.reset : Calendar :=
  { fields := .reset, subsec := 0, valid := false, suspect := false, alarm0 := .reset, alarm1 := .reset, a0 := 0,
    a2 := 0, t0 := 0, hostCurve := false, mramCurve := none, nNext := 0, n := 0, temp := 0, winCount := 0,
    corrections := 0, removed := false, hold := 0, pendingSet := none }

def Integrity.reset : Integrity :=
  { sramCe := 0, ddrCe := 0, sramUe := 0, ddrUe := 0, mramUe := 0, restored := 0, level := 0, bucketOver := false,
    overflows := 0, lastMem := 0, lastAddr := 0, periods := [10, 10, 3600, 86400], passes := 0, passAt := 0, burstUe := false }

def Evidence.reset : Evidence := ⟨0, 0, 0, 0, 0⟩

def Watchdogs.reset : Watchdogs :=
  { enabled := false, locked := false, action := 0, openMs := 1, closeMs := 2, openNow := 1, closeNow := 2, s := 0,
    tick := 0, armed := false, lastCause := 0, queue := [], waiting := none, lastGood := 0, evTask := .reset, evFw := .reset,
    evHost := .reset }

def Log.reset : Log :=
  { recs := [], highWater := 1, next := 1, queue := [], lost := 0, skip := 0, lostNew := 0, pendingRepeat := false,
    shadow := none, own := none, toShadow := true, cleared := 0, toErase := [], stopped := false }

def Security.reset : Security :=
  { fuses := List.replicate 128 0, shadows := false, keys := List.replicate 8 none, nonce := none, grant := none,
    tapOutcome := 0, extest := false, dbgStatus := 0, dbgData := 0, coreHeld := false, challenge := 0, tlr := true, ir := 0x01 }

def Bank.reset : Bank := ⟨false, 0, [], [], [], [], []⟩

def Firmware.reset : Firmware :=
  { bankA := .reset, bankB := .reset, upd := 0, updBank := 0, updDigest := [], updN := 0, updNext := 0,
    running := 0xFF, version := 0, linkMajor := 0, linkMinor := 0, cfgFormat := 0, failed := 0, coreUp := false,
    reloadFails := 0, activating := none, uartRate := 0, uartAt := 0, norReset := true }

/-- The default configuration of a channel (R508). -/
def Channel.reset (c : Nat) : Channel :=
  { mode := if c < 24 then 1 else 0, wbe := false, filter := 30, rawA := false, rawB := false, filtA := false,
    filtB := false, diffA := 0, diffB := 0, first := true, broken := false, breakCount := 0, outputFault := false,
    readbackFault := false, readbackCount := 0, applied := false, changedAt := 0, current := 0, linkA := false,
    linkB := false, linkBreak := false, setNotEdge := true }

def Supply.reset : Supply := ⟨2, 0, 0, 0, 0, 0⟩

def FieldIo.reset : FieldIo :=
  { ch := (List.range 32).map Channel.reset, supplyA := .reset, supplyB := .reset, linkUp := false, sampleAt := 0,
    sampleWaiting := false, haltOff := false, halted := false, nextApply := 0, nextHalt := false, command := 0, test := none, testHit := false, configured := false }

def Regs.reset : Regs :=
  { devEnable := false, devVector := 0, errEnable := false, errVector := 0, mask := 0, cause := 0, ringErr := 0,
    msix := [], functionMask := false, pba := 0, messages := [], devRaisedAt := none, tickHi := 0, optimeHi := 0,
    statLog := 0, readData := 0 }

/-- The module at the release of reset after its first power-up: in BOOT, before the boot ROM's first step (R59, R387, R533). -/
def State.reset : State :=
  { host := .reset, dev := .reset, img := .reset, chg := .reset, mem := .reset, scan := .reset, net := .reset,
    pair := .reset, energy := .reset, cal := .reset, integ := .reset, wdg := .reset, log := .reset, sec := .reset,
    fw := .reset, fio := .reset, regs := .reset, free := 0, pending := [] }

end Sys2Proof.Machine
end

