-- ==== Sys2Proof/Machine/Legality.lean ====
section
/-! DEFINITION. Which opcodes are legal in which device state (R62). -/

namespace Sys2Proof.Machine

/-- A cell of the tables of R62 and R66: every opcode of the class, or the listed low bytes. -/
inductive Cell where
  | all
  | only (l : List Nat)
  deriving DecidableEq, Repr

def Cell.has (c : Cell) (low : Nat) : Bool :=
  match c with
  | .all => true
  | .only l => l.contains low

/-- The table of R62: the columns RECOVERY, CONFIGURE, STOP, RUN, CHANGING, HOLDUP, HALTED, FAULT of each class. -/
def stateTable (cls : Nat) : List Cell :=
  match cls with
  | 0x0 => [.all, .all, .all, .all, .all, .only [1, 2, 3, 6, 7, 8], .all, .all]
  | 0x1 => [.only [], .only [1, 3, 9, 0xA], .only [1, 2, 3, 4, 5, 9, 0xA], .only [3, 5, 6, 7, 8, 9, 0xA],
      .only [3, 5, 6, 7, 8], .only [3, 5], .only [2, 3, 5, 9, 0xA], .only [3, 5]]
  | 0x2 => [.only [], .all, .all, .all, .only [3, 4, 5, 6, 7, 8, 9], .only [3, 7, 8, 9], .all, .only [3, 7, 8, 9]]
  | 0x3 => [.only [], .only [], .only [], .only [1, 4, 5], .only [2, 3], .only [], .only [5], .only []]
  | 0x4 => [.only [], .all, .all, .only [1, 4, 5, 6, 7, 8, 9, 0xA], .only [1, 4, 5, 6, 7, 8, 9, 0xA], .only [9, 0xA],
      .all, .only [9, 0xA]]
  | 0x5 => [.only [], .all, .all, .all, .all, .only [3, 5], .all, .only [3, 5]]
  | 0x6 => [.only [], .all, .all, .all, .all, .only [2], .all, .only [2]]
  | 0x7 => [.only [1], .all, .all, .all, .all, .only [1], .all, .only [1, 2, 4]]
  | 0x8 => [.all, .all, .all, .all, .only [1, 2, 3, 5], .only [5], .all, .only [5]]
  | 0x9 => [.only [], .all, .all, .all, .all, .only [1], .all, .only [1]]
  | 0xA => [.only [1, 4], .all, .all, .only [1, 3, 4, 6], .only [1, 3, 4, 6], .only [], .only [1, 3, 4, 6], .only [1, 4]]
  | 0xB => [.only [], .all, .all, .only [2, 3, 4], .only [2, 3, 4], .only [], .only [2, 3, 4], .only [4]]
  | 0xC => [.only [], .all, .all, .only [2, 3], .only [2, 3], .only [2], .all, .only [2]]
  | 0xD => [.only [2], .all, .all, .all, .all, .all, .all, .only [2]]
  | _ => []

/-- The column of a device state in the table of R62. -/
def stateColumn : DevState → Option Nat
  | .recovery => some 0 | .configure => some 1 | .stop => some 2 | .run => some 3 | .changing => some 4
  | .holdup => some 5 | .halted => some 6 | .fault => some 7
  | _ => none

/-- Legal by the table of R62. -/
def legalState (op : Nat) (st : DevState) : Bool :=
  match stateColumn st with
  | some c => (nth (.only []) (stateTable (op / 4096)) c).has (op % 4096)
  | none => false

end Sys2Proof.Machine
end

