-- ==== Sys2Proof/Machine/Ops.lean ====
section
/-! DEFINITION. The operations that every family shares: time, free values, updates of one part of the state, the event queue,
interrupt vectors and causes, the rings, handles and completions, and the change of device state and role. -/

namespace Sys2Proof.Machine

abbrev Out := Host.Outcome State Fault Refusal

/-- The end of every meaning: the next state, whose queue of waiting commands is the one the command left behind. -/
def finish (s t : State) : Out := .next { t with pending := s.pending }

/-! ### One part of the state -/

def onHost (f : HostIf → HostIf) (s : State) : State := { s with host := f s.host }
def onDev (f : Device → Device) (s : State) : State := { s with dev := f s.dev }
def onImg (f : Image → Image) (s : State) : State := { s with img := f s.img }
def onChg (f : Change → Change) (s : State) : State := { s with chg := f s.chg }
def onMem (f : Memory → Memory) (s : State) : State := { s with mem := f s.mem }
def onScan (f : Scan → Scan) (s : State) : State := { s with scan := f s.scan }
def onNet (f : Net → Net) (s : State) : State := { s with net := f s.net }
def onPair (f : Pair → Pair) (s : State) : State := { s with pair := f s.pair }
def onEnergy (f : Energy → Energy) (s : State) : State := { s with energy := f s.energy }
def onCal (f : Calendar → Calendar) (s : State) : State := { s with cal := f s.cal }
def onInteg (f : Integrity → Integrity) (s : State) : State := { s with integ := f s.integ }
def onWdg (f : Watchdogs → Watchdogs) (s : State) : State := { s with wdg := f s.wdg }
def onLog (f : Log → Log) (s : State) : State := { s with log := f s.log }
def onSec (f : Security → Security) (s : State) : State := { s with sec := f s.sec }
def onFw (f : Firmware → Firmware) (s : State) : State := { s with fw := f s.fw }
def onFio (f : FieldIo → FieldIo) (s : State) : State := { s with fio := f s.fio }
def onRegs (f : Regs → Regs) (s : State) : State := { s with regs := f s.regs }

/-- A function applied only under a condition. -/
def whenB (c : Bool) (f : State → State) (s : State) : State := if c then f s else s

/-! ### Time and free values -/

/-- Local time never goes back: an event at time t is not earlier than what has happened. -/
def advance (t : Nat) : State → State := onDev (fun d => { d with now := max d.now t })

/-- Operating time in ms (R445): it counts while the main rails are good. -/
def optimeMs (s : State) : Nat :=
  if s.dev.railsGood then s.dev.optime + (s.dev.now - s.dev.optimeAt) / 6000000 else s.dev.optime

/-- The next free value of w bits (log entry 3). -/
def draw (w : Nat) (s : State) : BitVec w × State := (Config.freeBits s.free w, { s with free := s.free + 1 })

/-! ### The event queue (R446) -/

/-- Event x goes before y when both are captured in the same FABRIC tick: ascending code, hardware first (R446). -/
def eventBefore (x y : Event) : Bool :=
  decide (x.tick = y.tick) && (decide (x.code < y.code) || (decide (x.code = y.code) && !x.fw && y.fw))

/-- The queue with an event in its place. -/
def enqueue (e : Event) : List Event → List Event
  | [] => [e]
  | x :: r => if eventBefore e x then e :: x :: r else x :: enqueue e r

/-- The event as it is captured now, with its operating time and calendar stamp (R446, R442). -/
def eventOf (code : Nat) (data : Bytes) (fw : Bool) (s : State) : Event :=
  { code := code, data := data, fw := fw, tick := s.dev.now / 10, time := optimeMs s,
    cal := if s.cal.valid then some (s.cal.fields, s.cal.suspect) else none }

/-- Messages of MSI-X vector v (R538): sent, or its pending bit set while the table entry or the function masks it. -/
def raiseVector (v : Nat) (s : State) : State :=
  let masked := s.regs.functionMask || (readAt (1#32) s.regs.msix (16 * v + 12)).getLsbD 0
  if masked then onRegs (fun r => { r with pba := r.pba ||| (1#128 <<< v) }) s
  else onRegs (fun r => { r with messages := v :: r.messages }) s

/-- The device event vector, raisings within 1 µs coalesced into one (R536). -/
def raiseDevice (s : State) : State :=
  if !s.regs.devEnable then s
  else
    match s.regs.devRaisedAt with
    | some t => if s.dev.now - t < 6000 then s
      else raiseVector s.regs.devVector (onRegs (fun r => { r with devRaisedAt := some s.dev.now }) s)
    | none => raiseVector s.regs.devVector (onRegs (fun r => { r with devRaisedAt := some s.dev.now }) s)

/-- An event sets cause bit n (R535, R536). -/
def setCause (n : Nat) (s : State) : State :=
  let s1 := onRegs (fun r => { r with cause := r.cause ||| (1#11 <<< n) }) s
  if s1.regs.mask.getLsbD n then raiseDevice s1 else s1

/-- Capture an event: it joins the queue of 256, or is lost when the queue is full (R446). -/
def capture (fw : Bool) (code : Nat) (data : Bytes) (s : State) : State :=
  if s.log.queue.length < 256 then
    onLog (fun l => { l with queue := enqueue (eventOf code data fw s) l.queue }) s
  else
    setCause 9 (onLog (fun l => { l with lost := satTo 255 (l.lost + 1), lostNew := l.lostNew + 1 }) s)

/-- A hardware event. -/
def logHw : Nat → Bytes → State → State := capture false
/-- A firmware event. -/
def logFw : Nat → Bytes → State → State := capture true

/-! ### State and role (R58, R59) -/

def DevState.code : DevState → Nat
  | .off => 0 | .retain => 1 | .boot => 2 | .selftest => 3 | .recovery => 4 | .configure => 5 | .stop => 6
  | .run => 7 | .changing => 8 | .holdup => 9 | .halted => 10 | .fault => 11

def DevState.ofCode (n : Nat) : DevState :=
  match n with
  | 0 => .off | 1 => .retain | 2 => .boot | 3 => .selftest | 4 => .recovery | 5 => .configure | 6 => .stop
  | 7 => .run | 8 => .changing | 9 => .holdup | 10 => .halted | _ => .fault

def Role.code : Role → Nat
  | .solo => 0 | .primary => 1 | .standby => 2 | .syncing => 3

/-- The event record can take records: not without main power, nor before BOOT has started the writer (R446). -/
def DevState.logs : DevState → Bool
  | .off | .retain | .boot => false
  | _ => true

/-- The STATE record of a change of state or role (R455). Its cause code has no values in the spec: a free value. -/
def recordState (old : DevState) (s : State) : State :=
  let (c, s1) := draw 8 s
  let s2 := setCause 3 s1
  if s.dev.st.logs then
    logHw 0x0002 [BitVec.ofNat 8 old.code, BitVec.ofNat 8 s.dev.st.code, BitVec.ofNat 8 s.dev.role.code, c] s2
  else s2

/-- EXTEST is honoured in a state (R466). -/
def DevState.honoursExtest : DevState → Bool
  | .configure | .stop | .halted | .fault | .recovery => true
  | _ => false

/-- EXTEST ends in a state: halt_all goes with it unless HALTED, FAULT, HALT_REQ_N or the halt of R262 holds it (R261, R466; log
entry 17). -/
def leaveExtest (st : DevState) (s : State) : State :=
  if s.sec.extest then
    onNet (fun n =>
      { n with haltExtest := false,
               haltAll := n.haltAll &&
                 (n.haltConfigure || s.dev.haltReqLow || st == .halted || st == .fault || (st == .holdup && s.dev.ret == some .halted)) })
      (onSec (fun c => { c with extest := false }) s)
  else s

/-- In a state that does not honour EXTEST it is decoded as BYPASS: it is in force no longer (R466). -/
def dropExtest (st : DevState) (s : State) : State := if st.honoursExtest then s else leaveExtest st s

/-- What the entry to a state asks of a long operation (R68): in FAULT every one, elsewhere one whose opcode is illegal there,
ends at its next cancel point; HOLDUP suspends instead, and FAULT ends a suspension. -/
def opEnters (st : DevState) (o : LongOp) : LongOp :=
  { o with doomed := o.doomed || (st != .holdup && (st == .fault || !legalState o.opcode st)),
           suspended := o.suspended && st != .fault }

/-- The operations not yet done meet the entry to a state. -/
def opsEnter (st : DevState) : State → State :=
  onHost (fun h => { h with ops := h.ops.map (fun e => (e.1, if e.2.done then e.2 else opEnters st e.2)) })

/-- Enter a device state, with the tick of the change (R69), the last state in MRAM (R386) and the record. -/
def enter (st : DevState) (s : State) : State :=
  if s.dev.st = st then s
  else
    recordState s.dev.st
      (onDev (fun d => { d with st := st, changeTick := d.tick % 2 ^ 32, lastState := st,
                                lastRet := if st = .holdup then d.ret else none }) (opsEnter st (dropExtest st s)))

/-- Take a pair role (R58, R335). -/
def takeRole (r : Role) (s : State) : State :=
  if s.dev.role = r then s else recordState s.dev.st (onDev (fun d => { d with role := r }) s)

/-- The state whose rules govern tasks and outputs: the return state in HOLDUP (R59). -/
def effState (s : State) : DevState := if s.dev.st = .holdup then (s.dev.ret).getD .holdup else s.dev.st

/-- Change the return state in HOLDUP, the device state otherwise (R59). -/
def enterOrReturn (st : DevState) (s : State) : State :=
  if s.dev.st = .holdup then onDev (fun d => { d with ret := some st, lastRet := some st }) s else enter st s

/-! ### Rings (R26 to R42) -/

def getCq (s : State) (n : Nat) : CqRing := nth CqRing.reset s.host.cq n
def getKq (s : State) (n : Nat) : KqRing := nth KqRing.reset s.host.kq n
def onCq (n : Nat) (f : CqRing → CqRing) : State → State := onHost (fun h => { h with cq := modifyNth h.cq n f })
def onKq (n : Nat) (f : KqRing → KqRing) : State → State := onHost (fun h => { h with kq := modifyNth h.kq n f })

def CqRing.size (q : CqRing) : Nat := 2 ^ q.sizeLog2
def KqRing.size (q : KqRing) : Nat := 2 ^ q.sizeLog2

/-- Descriptor entries published and not taken (R29). -/
def CqRing.published (q : CqRing) : Nat := (q.pi + q.size - q.ci) % q.size

/-- Entries the host has not consumed (R27). -/
def KqRing.unconsumed (q : KqRing) : Nat := (q.tail + q.size - q.head) % q.size

/-- A completion may be written (R40). -/
def KqRing.room (q : KqRing) : Bool := q.enable && decide ((q.tail + 1) % q.size ≠ q.head)

/-- Room for a completion, beside the entry reserved for the descriptor being carried out (R40, R41). -/
def roomBeside (s : State) (k : Nat) : Bool :=
  (getKq s k).room && (s.host.reserved != some k || decide (((getKq s k).tail + 2) % (getKq s k).size ≠ (getKq s k).head))

/-- A threshold of R42 is met: the count of unconsumed entries, or the time that the oldest of them has waited. -/
def KqRing.due (q : KqRing) (now : Nat) : Bool :=
  decide (max 1 q.irqCount ≤ q.unconsumed) ||
    (q.irqTime != 0 && q.unconsumed != 0 && decide (6000 * q.irqTime ≤ now - readAt now q.written q.head))

/-- An armed completion ring whose interrupt is enabled raises its vector when a threshold is met, and is armed no longer (R42). -/
def kqCheck (k : Nat) (s : State) : State :=
  let q := getKq s k
  if q.intEnable && q.armed && q.due s.dev.now then
    raiseVector q.vector (onKq k (fun q => { q with armed := false }) s)
  else s

/-- Write one completion at tail (R39). The ring has room. -/
def kqWrite (k : Nat) (c : Completion) (s : State) : State :=
  kqCheck k
    (onKq k (fun q =>
      { q with
        mem := insertAt q.mem q.tail (q.phase, c)
        written := insertAt q.written q.tail s.dev.now
        tail := (q.tail + 1) % q.size
        phase := if (q.tail + 1) % q.size = 0 then !q.phase else q.phase }) s)

/-- Write the held final completions of a completion ring in the order in which their operations ended, as far as there is
room (R41). -/
def flushFinals (k : Nat) : List (Nat × Nat × Completion) → State → State
  | [], s => s
  | (i, kq, c) :: r, s =>
    if kq = k && roomBeside s k then
      flushFinals k r (kqWrite k { c with ci := (getCq s c.ring).ci }
        (onHost (fun h => { h with heldFinals := h.heldFinals.filter (fun e => !(e.1 == i)) }) s))
    else flushFinals k r s

/-- Write the held completions of CQ0 that belong to completion ring k, in order, as far as there is room (R53). -/
def flushHeld0 (k : Nat) : List (Nat × Completion) → State → State
  | [], s => s
  | (kq, c) :: r, s =>
    if kq = k && (getKq s k).room then
      flushHeld0 k r (kqWrite k { c with ci := (getCq s c.ring).ci }
        (onHost (fun h => { h with held0 := h.held0.erase (kq, c) }) s))
    else flushHeld0 k r s

/-- Write the immediate completions held back for completion ring k, in the order in which their descriptors were taken (R28). -/
def flushImmediate (k : Nat) : List (Nat × Nat × Completion) → State → State
  | [], s => s
  | (n, kq, c) :: r, s =>
    if kq = k && (getKq s k).room then
      flushImmediate k r (kqWrite k { c with ci := (getCq s c.ring).ci }
        (onHost (fun h => { h with heldImmediate := h.heldImmediate.erase (n, kq, c) }) s))
    else flushImmediate k r s

/-- Everything that waits for room in completion ring k. -/
def flushKq (k : Nat) (s : State) : State :=
  let s1 := flushImmediate k s.host.heldImmediate s
  let s2 := flushHeld0 k s1.host.held0 s1
  flushFinals k s2.host.heldFinals s2

/-! ### Answers and completions (R38, R45) -/

/-- What a command answers: status, result bytes, handle. -/
structure Answer where
  status : Nat
  result : Bytes := []
  handle : Nat := 0
  deriving DecidableEq, Repr

abbrev stOk : Nat := 0x00
abbrev stAccepted : Nat := 0x01
abbrev stPending : Nat := 0x02
abbrev stBadOpcode : Nat := 0x10
abbrev stBadParam : Nat := 0x11
abbrev stState : Nat := 0x12
abbrev stNoResource : Nat := 0x13
abbrev stBusy : Nat := 0x14
abbrev stAuthRequired : Nat := 0x15
abbrev stAuthFailed : Nat := 0x16
abbrev stStaleHandle : Nat := 0x17
abbrev stForceConflict : Nat := 0x18
abbrev stIntegrity : Nat := 0x19
abbrev stTimeout : Nat := 0x1A
abbrev stPartnerError : Nat := 0x1B
abbrev stAborted : Nat := 0x1C
abbrev stEnergy : Nat := 0x1D
abbrev stRole : Nat := 0x1E

/-- The completion of an answer, with 16 result bytes (R38). -/
def Answer.completion (a : Answer) (ring ci : Nat) (cookie : Word) : Completion :=
  { status := a.status, final := false, ring := ring, cookie := cookie, handle := BitVec.ofNat 32 a.handle,
    result := sliceZ a.result 0 16, ci := ci }

/-- The 32 bytes of a completion ring entry, little-endian (R4, R38). -/
def Completion.bytes (phase : Bool) (c : Completion) : Bytes :=
  [BitVec.ofNat 8 c.status, BitVec.ofNat 8 (phase.toNat + 2 * c.final.toNat), BitVec.ofNat 8 c.ring, 0] ++ leBytes 4 c.cookie.toNat ++
    leBytes 4 c.handle.toNat ++ sliceZ c.result 0 16 ++ leBytes 2 c.ci ++ [0, 0]

/-- The host memory of entry i of completion ring k: zeros until the ZPX has written it (R39). -/
def kqEntry (s : State) (k i : Nat) : Bytes :=
  match look (getKq s k).mem i with
  | some (phase, c) => c.bytes phase
  | none => List.replicate 32 0

/-- The 64-bit ring number of an origin as a completion shows it: 0xFF on the UART (R492). -/
def originRing : Origin → Nat
  | .ring n => n.val
  | _ => 0xFF

/-- The completion of a CQ0 command: written, held while its ring is full or disabled, or dropped and counted (R53). -/
def complete0 (c : Completion) (s : State) : State :=
  let k := (getCq s 0).kq
  if !(s.host.held0.any (fun e => e.1 == k)) && (getKq s k).room then kqWrite k c s
  else if s.host.held0.length < 64 then onHost (fun h => { h with held0 := h.held0 ++ [(k, c)] }) s
  else onCq 0 (fun q => { q with heldDrops := satTo 0xFFFF (q.heldDrops + 1) }) s

/-- An entry of the completion ring is reserved for the descriptor that a ring of CQ1 to CQ63 gives (R40). -/
def reserve (o : Origin) (s : State) : State :=
  match o with
  | .ring n => if n.val = 0 then s else onHost (fun h => { h with reserved := some (getCq s n.val).kq }) s
  | _ => s

/-- The immediate completion of CQ1 to CQ63: it takes the entry reserved for it, or is held while the completion ring is disabled
(R28, R40). -/
def completeN (n : Nat) (c : Completion) (s : State) : State :=
  let k := (getCq s n).kq
  let s1 := onHost (fun h => { h with reserved := none }) s
  if (getKq s1 k).room then kqWrite k c s1
  else onHost (fun h => { h with heldImmediate := h.heldImmediate ++ [(n, k, c)] }) s1

/-- Give a command's answer to where the command came from. -/
def answer (r : Request) (a : Answer) (s : State) : State :=
  match r.origin with
  | .ring n =>
    let c := a.completion n.val (getCq s n.val).ci r.cookie
    if n.val = 0 then complete0 c s else completeN n.val c s
  | .urg => onHost (fun h => { h with urgStatus := a.status, urgSeq := (h.urgSeq + 1) % 256 }) s
  | .uart => onFw (fun f => { f with uartAt := s.dev.now }) (onHost (fun h => { h with uartOut := a.completion 0xFF 0 r.cookie :: h.uartOut }) s)
  | .tap => s
  | .watchdog => s

/-! ### Handles (R47 to R51) -/

/-- A free handle exists. -/
def handleFree (s : State) : Bool := decide (s.host.fresh < 4096) || !s.host.freed.isEmpty

/-- The next generation of an index: 1 to 0xFFFFF, then 1 again (R47). -/
def nextGen (g : Nat) : Nat := if g = 0xFFFFF then 1 else g + 1

/-- The index at the head of the free queue. -/
def headIndex (s : State) : Nat := if s.host.fresh < 4096 then s.host.fresh else (s.host.freed.head?).getD 0

/-- A long operation as it begins. -/
def newOp (op : Nat) (r : Request) (total : Nat) (aux : List Nat) (s : State) : LongOp :=
  { opcode := op, req := r, ring := originRing r.origin,
    kq := match r.origin with
      | .ring n => (getCq s n.val).kq
      | _ => 0
    work := 0, total := total, waiting := false, admitted := false, waited := 0, suspended := false, cancel := none,
    past := false, doomed := false, admittedAt := 0, order := s.host.accepted, ending := none, done := false, aux := aux }

/-- Allocate a handle to an operation (R47). -/
def allocHandle (o : LongOp) (s : State) : Nat × State :=
  let i := headIndex s
  let g := nextGen (readAt 0 s.host.gens i)
  (i + 4096 * g,
    onHost (fun h =>
      { h with
        fresh := if h.fresh < 4096 then h.fresh + 1 else h.fresh
        freed := if h.fresh < 4096 then h.freed else h.freed.drop 1
        gens := insertAt h.gens i g
        ops := insertAt h.ops i o
        accepted := h.accepted + 1 }) s)

/-- The operation whose handle is v: PENDING or DONE with the matching generation (R48). -/
def findOp (s : State) (v : Nat) : Option LongOp :=
  if readAt 0 s.host.gens (v % 4096) = v / 4096 then look s.host.ops (v % 4096) else none

def getOp (s : State) (i : Nat) : Option LongOp := look s.host.ops i
def onOp (i : Nat) (f : LongOp → LongOp) (s : State) : State :=
  match look s.host.ops i with
  | none => s
  | some o => onHost (fun h => { h with ops := insertAt h.ops i (f o) }) s

/-- The handle of the operation at index i. -/
def handleOf (s : State) (i : Nat) : Nat := i + 4096 * readAt 0 s.host.gens i

/-- Post the final completion of operation i (R38, R41). -/
def postFinal (i : Nat) (o : LongOp) (status : Nat) (result : Bytes) (s : State) : State :=
  let c : Completion :=
    { status := status, final := true, ring := o.ring, cookie := o.req.cookie, handle := BitVec.ofNat 32 (handleOf s i),
      result := sliceZ result 0 16, ci := (getCq s o.ring).ci }
  match o.req.origin with
  | .ring _ =>
    if roomBeside s o.kq && !(s.host.heldFinals.any (fun e => e.2.1 == o.kq)) then kqWrite o.kq c s
    else onHost (fun h => { h with heldFinals := h.heldFinals ++ [(i, o.kq, c)] }) s
  | .uart => onHost (fun h => { h with uartOut := { c with ci := 0 } :: h.uartOut }) s
  | _ => s

/-- Operation i ends: its handle is DONE and its final completion is written or held (R41, R48). -/
def endOp (i : Nat) (status : Nat) (result : Bytes) (s : State) : State :=
  match getOp s i with
  | none => s
  | some o =>
    if o.done then s
    else postFinal i o status result (onOp i (fun o => { o with ending := some (status, result), done := true }) s)

/-- A PENDING operation of one of the opcodes exists (objects in use: BUSY, R45). -/
def opActive (s : State) (ops : List Nat) : Bool :=
  s.host.ops.any (fun e => !e.2.done && ops.contains e.2.opcode)

/-- The index of the PENDING operation of an opcode, if there is one. -/
def opIndex (s : State) (op : Nat) : Option Nat :=
  (s.host.ops.find? (fun e => !e.2.done && e.2.opcode == op)).map (·.1)

/-- The index of the first PENDING operation of one of the opcodes. -/
def opIndexOf (s : State) (ops : List Nat) : Option Nat :=
  (s.host.ops.find? (fun e => !e.2.done && ops.contains e.2.opcode)).map (·.1)

/-! ### Event data and the delta -/

/-- Consecutive little-endian fields of given sizes. -/
def fields : List (Nat × Nat) → Bytes
  | [] => []
  | (n, v) :: r => leBytes n v ++ fields r

/-- Event data whose second part begins at byte 48 (R455). -/
def keyed (k rest : Bytes) : Bytes := sliceZ k 0 8 ++ rest

/-- The entry of a tagged word under R90: payload, tag, and bytes 5 to 7. -/
def entry (w : TWord) (tail : Nat) : Bytes := leBytes 4 w.payload.toNat ++ [w.tag] ++ leBytes 3 tail

/-- The word of an entry (R90). -/
def entryWord (b : Bytes) : TWord :=
  TWord.ofBits (BitVec.ofNat 8 (byteAt b 4) ++ BitVec.ofNat 32 (le b 0 4))

/-- The module sends its changes to a partner: as primary, or while it synchronises one (R330, R344). -/
def mirrors (s : State) : Bool := s.dev.role == .primary || (s.dev.role == .solo && decide (2 ≤ s.pair.syncPhase))

/-- An item of mirrored state has changed in the tick in progress (R330). -/
def mirror (d : DeltaRec) (s : State) : State :=
  if mirrors s then onPair (fun p => { p with changed := d :: p.changed }) s else s

/-- Send a Selvedge frame, with the next lseq (R327); the frames of the last two ticks are kept for resending (R328). -/
def sendSel (b : SelBody) (s : State) : State :=
  onPair (fun p =>
    { p with outbox := (p.lseqTx, s.dev.tick, false, b) :: p.outbox.filter (fun x => decide (s.dev.tick ≤ x.2.1 + 1)),
             lseqTx := (p.lseqTx + 1) % 2 ^ 32 }) s

/-! ### Host access -/

/-- BAR0 can be reached: the main die is powered (R61). -/
def hostAccess (s : State) : Bool := !(s.dev.st == .off || s.dev.st == .retain)

/-- The URG_COMMAND writes that wait in the urgent queue; it holds 16 (R18, R19). -/
def urgentWrites (s : State) : Nat := (s.host.urgent.filter (·.isSome)).length

/-- An access to BAR0 is a read, which needs no posted-write credit. -/
def isRead : Instr → Bool
  | .statLogSeqRead | .sysTickLoRead | .sysOptimeLoRead => true
  | _ => false

/-- An access waits: the endpoint withholds posted-write credits while the urgent queue holds 16 writes, and nothing passes a posted
write that waits (R19). -/
def withholds (i : Instr) (s : State) : Bool := !s.host.withheld.isEmpty || (!isRead i && decide (16 ≤ urgentWrites s))

/-- A host's access i to BAR0, whose effect is f: nothing happens while BAR0 cannot be reached, and while the endpoint withholds
posted-write credits the access waits behind those before it (R19). -/
def hostReg (i : Instr) (f : State → State) (s : State) : Out :=
  finish s
    (if !hostAccess s then s
    else if !withholds i s then f s
    else onHost (fun h => { h with withheld := h.withheld ++ [i] }) s)

/-- Without the service core the timebase holds its last correction (R13, R255). -/
def holdTimebase : State → State :=
  onNet (fun n => if n.source != 0 && n.tb != .free then { n with tb := .holdover, goodMeasures := 0 } else n)

/-- The service core pauses or restarts: CQ1 to CQ63 stand still, and the timebase is in holdover (R13). -/
def pauseCore (s : State) : State := holdTimebase (onFw (fun f => { f with coreUp := false }) s)

/-! ### Small views -/

def b8 (n : Nat) : Byte := BitVec.ofNat 8 n

/-- The physical address of a data address of a generation (R212). -/
def physOf (p : Program) (a : Nat) : Nat := 1024 * nth 4096 p.pageMap (a / 1024) + a % 1024

/-- The running generation, 0 when none is loaded (R69). -/
def runningGen (s : State) : Nat :=
  match s.chg.running with
  | some p => p.gen
  | none => 0

/-- The base tick in which time t lies, seen from the tick in progress. -/
def tickOf (s : State) (t : Nat) : Nat := s.dev.tick + (t - s.dev.tickAt) / 1500000

/-- PTP time of local time t in ns: boundaries t(n) are n × 250 µs (R16). -/
def ptpNs (s : State) (t : Nat) : Nat := s.dev.tick * 250000 + (t - s.dev.tickAt) / 6

end Sys2Proof.Machine
end

