-- ==== Sys2Proof/Machine/SecOps.lean ====
section
/-! DEFINITION. The decisions of the security block (R456 to R471): the fuse fields, lifecycle and debug level, key slots, the
verification of signatures, nonces and tokens, and the debug grant. -/

namespace Sys2Proof.Machine

/-- The module serves from the fuse shadows; before BOOT step 1 there are none, and every word reads 0 (R456, R471). -/
def fuseWord (s : State) (i : Nat) : Word := if s.sec.shadows then nth 0 s.sec.fuses i else 0

/-- Number of ones among the bits [hi:lo] of a word. -/
def ones (w : Word) (hi lo : Nat) : Nat :=
  ((List.range (hi + 1 - lo)).filter (fun i => w.getLsbD (lo + i))).length

/-- Lifecycle code (R457): the highest step with at least 5 of its 8 bits blown. -/
def lifecycle (s : State) : Nat :=
  let w := fuseWord s 0
  if 5 ≤ ones w 23 16 then 3 else if 5 ≤ ones w 15 8 then 2 else if 5 ≤ ones w 7 0 then 1 else 0

/-- Rollback level (R462): blown bits in words 2 and 3. -/
def rollbackLevel (s : State) : Nat := ones (fuseWord s 2) 31 0 + ones (fuseWord s 3) 31 0

/-- Debug level code (R458): 0 OPEN, 1 AUTH, 2 BOUNDARY, 3 CLOSED. -/
def debugLevel (s : State) : Nat :=
  let w := fuseWord s 1
  match lifecycle s with
  | 0 => 0
  | 1 => if w.getLsbD 16 then 1 else 0
  | 2 => match bits w.toNat 18 17 with
    | 2 => 2
    | 3 => 3
    | _ => 1
  | _ => 2

/-- The 48 hash bytes of a key slot: root when kind = 0, authorization when kind = 1 (R456). -/
def slotHash (s : State) (kind n : Nat) : Bytes :=
  (List.range 12).flatMap (fun i => leBytes 4 (fuseWord s ((if kind = 0 then 8 else 56) + 12 * n + i)).toNat)

/-- The check word of a key slot (R456). -/
def slotCheck (s : State) (kind n : Nat) : Word := fuseWord s ((if kind = 0 then 112 else 116) + n)

/-- Either revocation bit of the slot is blown (R457). -/
def slotRevokedBit (s : State) (kind n : Nat) : Bool :=
  let b := (if kind = 0 then 0 else 8) + 2 * n
  (fuseWord s 1).getLsbD b || (fuseWord s 1).getLsbD (b + 1)

/-- Slot state (R457, R474): 0 empty, 1 valid, 2 revoked, 3 damaged. -/
def slotState (s : State) (kind n : Nat) : Nat :=
  let h := slotHash s kind n
  let z := h.all (· == 0)
  if z && slotCheck s kind n == 0 && !slotRevokedBit s kind n then 0
  else if slotRevokedBit s kind n then 2
  else if !z && slotCheck s kind n == crc32c h then 1
  else 3

/-- The slot verifies signatures: valid, and the part is not RETIRED (R459, R460). -/
def slotValid (s : State) (kind n : Nat) : Bool := slotState s kind n == 1 && lifecycle s != 3

/-- The key of a slot in the key store, when it hashes to the slot's fuse hash (R460). -/
def storeKey (s : State) (kind n : Nat) : Option Bytes :=
  match nth none s.sec.keys (4 * kind + n) with
  | some k => if sha384 k = slotHash s kind n then some k else none
  | none => none

/-- A signature over a digest by a key of the key store (R460). -/
def storeVerify (s : State) (kind n : Nat) (digest sig : Bytes) : Bool :=
  slotValid s kind n &&
    match storeKey s kind n with
    | some k => ecdsaVerify k digest (slice sig 0 48) (slice sig 48 48)
    | none => false

/-- Signatures on images and authorization are required from PROVISIONED on (R459, R463). -/
def enforced (s : State) : Bool := lifecycle s != 0

/-- A nonce is current: issued less than 600 s of operating time ago (R464). -/
def nonceCurrent (s : State) : Option (BitVec 128) :=
  match s.sec.nonce with
  | some (v, t) => if optimeMs s < t + 600000 then some v else none
  | none => none

/-- Issue a nonce, which replaces the current one (R464). -/
def issueNonce (v : BitVec 128) (s : State) : State := onSec (fun c => { c with nonce := some (v, optimeMs s) }) s

/-- The 16 bytes of a nonce as AUTH_NONCE returns them, byte i from bits [8i + 7:8i]. -/
def nonceBytes (v : BitVec 128) : Bytes := leBytes 16 v.toNat

/-- The digest that a token signs (R36): nonce, opcode, parameter bytes, and the payload's digest when there is a payload. -/
def tokenDigest (nonce : Bytes) (op : Nat) (params : Bytes) (payload : Option Bytes) : Bytes :=
  sha384 (nonce ++ leBytes 2 op ++ params ++ (match payload with
    | some p => sha384 p
    | none => []))

/-- The outcome of an authorization: none when it verifies, the status otherwise. -/
def tokenFails (s : State) (op : Nat) (params auth : Bytes) (payload : Option Bytes) : Bool :=
  !(byteAt auth 1 == 1 && decide (byteAt auth 0 < 4) && lifecycle s != 3 &&
    (match nonceCurrent s with
      | some v => decide (slice auth 8 16 = nonceBytes v)
      | none => false) &&
    storeVerify s 1 (byteAt auth 0) (tokenDigest (slice auth 8 16) op params payload) (slice auth 32 96))

/-- The nonce is used (R37). -/
def useNonce : State → State := onSec (fun c => { c with nonce := none })

/-- AUTH_FAILED writes a record with repeat counting (R464, R455). -/
def recordAuthFailed (slot op : Nat) : State → State := logHw 0xA001 (b8 slot :: leBytes 2 op)

/-- Engines and service core that debug holds are resumed (R469). -/
def debugRelease (s : State) : State :=
  onSec (fun c => { c with coreHeld := false })
    (onScan (fun x => { x with engines := x.engines.map (fun e => { e with halted := false, stepOne := false }) }) s)

/-- The grant ends (R469). -/
def endGrant (s : State) : State :=
  if s.sec.grant.isSome then debugRelease (onSec (fun c => { c with grant := none }) s) else s

/-- Seconds of the grant that remain, rounded up. -/
def grantLeft (s : State) : Nat :=
  match s.sec.grant with
  | some (_, _, e) => (e - optimeMs s + 999) / 1000
  | none => 0

end Sys2Proof.Machine
end

