-- ==== Sys2Proof/Machine/Command.lean ====
section
/-! DEFINITION. How the part judges a command: the rings served (R61), the legality tables (R62 to R66), the order of checks
(R45), authorization (R35 to R37, R463) and the answer. -/

namespace Sys2Proof.Machine

/-! ### Fields of a request -/

/-- Descriptor byte i, from byte 16 on (R32, R33). -/
def pByte (r : Request) (i : Nat) : Nat := byteAt r.params (i - 16)

/-- The little-endian field of n bytes at descriptor byte i. -/
def pField (r : Request) (i n : Nat) : Nat := le r.params (i - 16) n

/-- The descriptor bytes from i to j − 1. -/
def pSlice (r : Request) (i j : Nat) : Bytes := slice r.params (i - 16) (j - i)

/-- The descriptor bytes from i to j − 1 are all 0. -/
def pZero (r : Request) (i j : Nat) : Bool := zeroFrom r.params (i - 16) (j - 16)

def byPointer (r : Request) : Bool := r.flags.getLsbD 2
def hasAuth (r : Request) : Bool := r.flags.getLsbD 1
def urgentFlag (r : Request) : Bool := r.flags.getLsbD 0

/-- The payload rule of an opcode for one request (R34): none is defined, one may be given, one must be given; and whether
its length is right. -/
inductive PayRule where
  | never
  | may (ok : Bool)
  | must (ok : Bool)
  deriving DecidableEq, Repr

/-- What one opcode asks of the checks of R45, and its effect. -/
structure Cmd where
  op : Nat
  used : Request → Nat
  shape : Request → Bool := fun _ => true
  pay : Request → PayRule := fun _ => .never
  also : Request → State → Bool := fun _ _ => true
  range : Request → State → Option Answer := fun _ _ => none
  auth : Request → State → Bool := fun _ _ => false
  busy : Request → State → Option Answer := fun _ _ => none
  lack : Request → State → Option Answer := fun _ _ => none
  long : Bool := false
  effect : Request → State → Answer × State

/-! ### Legality (R61 to R66) -/

/-- The five urgent opcodes (R53). -/
def urgentOps : List Nat := [0x1003, 0x400A, 0x4009, 0x5003, 0x2008]

/-- The opcodes that MGMT_UART serves outside RECOVERY (R492). -/
def uartOps : List Nat := [0x0001, 0x0002, 0x0003, 0x0006, 0x7001, 0x8005, 0xB004, 0xD002]

/-- The complete set of opcodes (R57). -/
def allOps : List Nat :=
  [0x0001, 0x0002, 0x0003, 0x0005, 0x0006, 0x0007, 0x0008, 0x1001, 0x1002, 0x1003, 0x1004, 0x1005, 0x1006, 0x1007,
    0x1008, 0x1009, 0x100A, 0x2001, 0x2002, 0x2003, 0x2004, 0x2005, 0x2006, 0x2007, 0x2008, 0x2009, 0x3001, 0x3002,
    0x3003, 0x3004, 0x3005, 0x4001, 0x4002, 0x4003, 0x4004, 0x4005, 0x4006, 0x4007, 0x4008, 0x4009, 0x400A, 0x5001,
    0x5002, 0x5003, 0x5004, 0x5005, 0x6001, 0x6002, 0x6003, 0x6004, 0x6005, 0x6006, 0x7001, 0x7002, 0x7003, 0x7004,
    0x8001, 0x8002, 0x8003, 0x8004, 0x8005, 0x8006, 0x9001, 0x9002, 0x9003, 0x9004, 0xA001, 0xA003, 0xA004, 0xA005,
    0xA006, 0xB001, 0xB002, 0xB003, 0xB004, 0xC001, 0xC002, 0xC003, 0xD001, 0xD002]

/-- The table of R66: the columns SOLO, PRIMARY, STANDBY, SYNCING of each class. -/
def roleTable (cls : Nat) : List Cell :=
  match cls with
  | 0x1 => [.all, .all, .only [5], .only [5]]
  | 0x2 => [.all, .all, .only [3, 7, 9], .only [3, 7, 9]]
  | 0x3 => [.all, .all, .only [], .only []]
  | 0x4 => [.all, .all, .only [], .only []]
  | 0x5 => [.only [1, 2, 5], .only [2, 3, 4, 5], .only [3, 4, 5], .only [4, 5]]
  | 0x8 => [.all, .all, .all, .only [5]]
  | 0xB => [.all, .all, .all, .only [4]]
  | 0xC => [.all, .all, .only [2], .only [2]]
  | _ => [.all, .all, .all, .all]

/-- Legal by the table of R66. -/
def legalRole (op : Nat) (r : Role) : Bool := (nth (.only []) (roleTable (op / 4096)) r.code).has (op % 4096)

/-- Firmware serves CQ1 to CQ63: it runs, and debug does not hold the service core (R13, R467). -/
def firmwareServes (s : State) : Bool := s.fw.coreUp && !s.sec.coreHeld

/-- Firmware, or the boot ROM in its place, carries on the long operations (R12, R59). -/
def opsProceed (s : State) : Bool := s.dev.st == .recovery || firmwareServes s

/-- The device state is CONFIGURE or one that follows it (R64). -/
def DevState.configured : DevState → Bool
  | .configure | .stop | .run | .changing | .holdup | .halted | .fault => true
  | _ => false

/-- The path a command came by is served (R61, R491, R492). A ring whose immediate completion is held gives no further descriptor
until it has been written (R28, R43). -/
def served (o : Origin) (s : State) : Bool :=
  match o with
  | .ring n =>
    if n.val = 0 then !(s.dev.st == .off || s.dev.st == .retain)
    else !(s.host.heldImmediate.any (fun e => e.1 == n.val)) &&
      (s.dev.st == .recovery ||
        (s.dev.st.configured && firmwareServes s && !(s.dev.st == .holdup && s.dev.stage == 2)))
  | .urg => !(s.dev.st == .off || s.dev.st == .retain)
  | .uart => s.dev.st == .recovery ||
      (s.dev.st.configured && firmwareServes s && !(s.dev.st == .holdup && s.dev.stage == 2))
  | .tap | .watchdog => true

/-- The path is the hardware command processor's: CQ0 or URG_COMMAND (R53, R55). -/
def urgentPath (o : Origin) : Bool :=
  match o with
  | .ring n => decide (n.val = 0)
  | .urg => true
  | _ => false

/-! ### The checks of R45 -/

/-- Authorization is required of this request (R463): never in BLANK. -/
def authNeeded (c : Cmd) (r : Request) (s : State) : Bool := enforced s && c.auth r s

/-- Step 2: reserved bits and bytes are 0 and the rules of R34 are met. -/
def structureOk (c : Cmd) (r : Request) (s : State) : Bool :=
  r.flags.toNat < 8 &&
  (if urgentPath r.origin then urgentFlag r && !hasAuth r && !byPointer r && r.count == 1
    else !urgentFlag r) &&
  (if byPointer r then
      r.len != 0 && r.addr % 64 == 0 && (r.origin != .uart || r.addr == 0) &&
        match c.pay r with
        | .never => false
        | .may ok => ok
        | .must ok => ok
    else r.addr == 0 && r.len == 0 &&
      match c.pay r with
      | .must _ => false
      | _ => true) &&
  zeroFrom r.params (c.used r - 16) r.params.length &&
  c.shape r &&
  (if hasAuth r then authNeeded c r s && r.auth.length == 128 && zeroFrom r.auth 2 8 && zeroFrom r.auth 24 32 else true)

/-- STATE and ROLE completions carry the state and role codes (R45). -/
def stateRole (s : State) : Bytes := [b8 s.dev.st.code, b8 s.dev.role.code]

/-- Step 3: legal in the device state (R62 to R64). -/
def stateOk (c : Cmd) (r : Request) (s : State) : Bool :=
  (if urgentPath r.origin then s.dev.st.configured else legalState c.op s.dev.st) && c.also r s

/-- Steps 2 to 5. -/
def judgeEarly (c : Cmd) (r : Request) (s : State) : Option Answer :=
  if !structureOk c r s then some { status := stBadParam }
  else if !stateOk c r s then some { status := stState, result := stateRole s }
  else if !legalRole c.op s.dev.role then some { status := stRole, result := stateRole s }
  else c.range r s

/-- Step 7. -/
def judgeLate (c : Cmd) (r : Request) (s : State) : Option Answer :=
  match c.busy r s with
  | some a => some a
  | none => match c.lack r s with
    | some a => some a
    | none => if c.long && !handleFree s then some { status := stNoResource } else none

/-- The effect, or the answer of step 7. -/
def runLate (c : Cmd) (r : Request) (s : State) : Answer × State :=
  match judgeLate c r s with
  | some a => (a, s)
  | none => c.effect r (reserve r.origin s)

/-- Steps 2 to 7 and the effect. On the urgent path steps 6 and 7 are omitted (R54). -/
def runChecks (c : Cmd) (r : Request) (s : State) : Answer × State :=
  match judgeEarly c r s with
  | some a => (a, if a.status = stAuthFailed then recordAuthFailed (byteAt r.payload 11) c.op s else s)
  | none =>
    if urgentPath r.origin then c.effect r s
    else if authNeeded c r s then
      if !hasAuth r then ({ status := stAuthRequired }, s)
      else if tokenFails s c.op r.params r.auth (if byPointer r then some r.payload else none) then
        ({ status := stAuthFailed }, recordAuthFailed (byteAt r.auth 0) c.op s)
      else runLate c r (useNonce s)
    else runLate c r s

/-- A command from its taking to its answer. A path that is not served leaves the command where it is (R61), and so does a
switch window, but for the output halt (R229). -/
def serve (c : Cmd) (r : Request) (s : State) : State :=
  let s := advance r.time s
  if !served r.origin s || (s.chg.window.isSome && c.op != 0x400A) then s
  else if urgentPath r.origin && !urgentOps.contains c.op then answer r { status := stBadOpcode } s
  else if r.origin == .uart && s.dev.st != .recovery && !uartOps.contains c.op then
    answer r { status := stBadOpcode } s
  else
    let (a, t) := runChecks c r s
    answer r a t

/-- Begin a long operation: a handle, and the answer ACCEPTED (R47). -/
def accept (op : Nat) (r : Request) (total : Nat) (aux : List Nat) (s : State) : Answer × State :=
  let (h, t) := allocHandle (newOp op r total aux s) s
  ({ status := stAccepted, handle := h }, t)

/-- Give the payload buffer its output (R31). -/
def putPayload (r : Request) (b : Bytes) : State → State :=
  onHost (fun h => { h with payloadOut := (r.addr, b) :: h.payloadOut })

/-- The payload is at least n bytes long. -/
def payHolds (r : Request) (n : Nat) : Bool := decide (n ≤ 64 * r.len)

/-- The payload length is ⌈n / 64⌉ units (R34). -/
def payExact (r : Request) (n : Nat) : Bool := r.len == (n + 63) / 64

/-! ### Long operations (R47 to R51, R68) -/

/-- The operation is to end with ABORTED at its next cancel point: a cancel is registered, FAULT or a state in which its opcode is
illegal has been entered since it was accepted, or it is illegal now (R51, R68). -/
def stopAsked (s : State) (o : LongOp) : Bool :=
  o.cancel == some 0 || o.doomed || (s.dev.st != .holdup && !legalState o.opcode s.dev.st)

/-- Operation i goes on, or ends with ABORTED where it stands at a cancel point and is asked to; while HOLDUP suspends it
nothing happens. -/
def goOn (i : Nat) (f : LongOp → State → State) (s : State) : State :=
  match getOp s i with
  | none => s
  | some o =>
    if o.done || o.suspended then s
    else if (!o.past && stopAsked s o) || o.cancel == some 0 then endOp i stAborted [] s else f o s

/-- The first PENDING operation of an opcode goes on. -/
def goOnOp (op : Nat) (f : Nat → LongOp → State → State) (s : State) : State :=
  match opIndex s op with
  | some i => goOn i (f i) s
  | none => s

/-- A background job stands at a cancel point and waits for its admission (R360). -/
def waitHere (i : Nat) : State → State := onOp i (fun o => { o with waiting := true })

def bad : Option Answer := some { status := stBadParam }
def badIf (c : Bool) : Option Answer := if c then bad else none
def busyIf (c : Bool) : Option Answer := if c then some { status := stBusy } else none
def lackIf (c : Bool) : Option Answer := if c then some { status := stNoResource } else none
def okAnswer : Answer := { status := stOk }

end Sys2Proof.Machine
end

