-- ==== Sys2Proof/Machine/Float.lean ====
section
/-! DEFINITION. binary32 arithmetic (R170, R177): exact values as signed integers times powers of two, rounded once; the functions
that R170 only bounds to within one unit in the last place, as the two binary32 values around the exact one. -/

namespace Sys2Proof.Machine

/-! ### Classes and values -/

abbrev fNan : Word := 0x7FC00000#32
abbrev fInf (neg : Bool) : Word := if neg then 0xFF800000#32 else 0x7F800000#32
abbrev fZero (neg : Bool) : Word := if neg then 0x80000000#32 else 0#32

def fSign (w : Word) : Bool := w.getLsbD 31
def fExp (w : Word) : Nat := bits w.toNat 30 23
def fFrac (w : Word) : Nat := bits w.toNat 22 0
def fIsNan (w : Word) : Bool := fExp w == 255 && fFrac w != 0
def fIsInf (w : Word) : Bool := fExp w == 255 && fFrac w == 0
def fIsZero (w : Word) : Bool := fExp w == 0 && fFrac w == 0

/-- Significand and exponent of a finite value: it is the significand times 2 to the exponent. -/
def fMant (w : Word) : Nat := if fExp w = 0 then fFrac w else fFrac w + 2 ^ 23
def fScale (w : Word) : Int := if fExp w = 0 then -149 else (fExp w : Int) - 150

/-- Number of bits of a natural number. -/
def bitLen (n : Nat) : Nat := if n = 0 then 0 else Nat.log2 n + 1

/-- Rounding modes of R177: 0 nearest with ties to even, 1 toward zero, 2 toward −∞, 3 toward +∞. Whether the kept part is
raised, from its parity, the discarded part against one half, and bits below that. -/
def roundUp (mode : Nat) (neg : Bool) (odd : Bool) (part half : Nat) (sticky : Bool) : Bool :=
  match mode with
  | 0 => decide (half < part) || (part == half && half != 0 && (sticky || odd))
  | 1 => false
  | 2 => neg && (part != 0 || sticky)
  | _ => !neg && (part != 0 || sticky)

/-- The binary32 value of (−1)^neg × (m + something below when sticky) × 2^e. With sticky set, m has at least 26 bits. -/
def fPack (mode : Nat) (neg : Bool) (m : Nat) (e : Int) (sticky : Bool) : Word :=
  if m = 0 then fZero neg
  else
    let top := e + (bitLen m : Int) - 1
    let q := max (top - 23) (-149)
    let code :=
      if q ≤ e then
        m * 2 ^ (e - q).toNat
      else
        let sh := (q - e).toNat
        let kept := m / 2 ^ sh
        let part := m % 2 ^ sh
        if roundUp mode neg (kept % 2 == 1) part (2 ^ (sh - 1)) sticky then kept + 1 else kept
    let enc := if q = -149 then code else (q + 149).toNat * 2 ^ 23 + code
    if 0x7F800000 ≤ enc then
      (if mode = 1 || (mode = 2 && !neg) || (mode = 3 && neg) then fInf neg - 1 else fInf neg)
    else BitVec.ofNat 32 (enc + (if neg then 2 ^ 31 else 0))

/-! ### Arithmetic: none for a NaN (INVALID, R170) -/

/-- The signed integer of a finite value in units of 2^e, for e at most its exponent. -/
def fInt (w : Word) (e : Int) : Int :=
  let m := fMant w * 2 ^ (fScale w - e).toNat
  if fSign w then -(m : Int) else (m : Int)

def fAdd (a b : Word) : Option Word :=
  if fIsNan a || fIsNan b then none
  else if fIsInf a then (if fIsInf b && fSign a != fSign b then none else some a)
  else if fIsInf b then some b
  else
    let e := min (fScale a) (fScale b)
    let x := fInt a e + fInt b e
    if x = 0 then some (fZero (fSign a && fSign b)) else some (fPack 0 (decide (x < 0)) x.natAbs e false)

def fNeg (a : Word) : Word := a ^^^ 0x80000000#32
def fAbs (a : Word) : Word := a &&& 0x7FFFFFFF#32
def fSub (a b : Word) : Option Word := if fIsNan b then none else fAdd a (fNeg b)

def fMul (a b : Word) : Option Word :=
  let s := fSign a != fSign b
  if fIsNan a || fIsNan b then none
  else if fIsInf a || fIsInf b then (if fIsZero a || fIsZero b then none else some (fInf s))
  else some (fPack 0 s (fMant a * fMant b) (fScale a + fScale b) false)

/-- Division; a divisor of zero is INVALID whatever the dividend (R170). -/
def fDiv (a b : Word) : Option Word :=
  let s := fSign a != fSign b
  if fIsNan a || fIsNan b || fIsZero b then none
  else if fIsInf a then (if fIsInf b then none else some (fInf s))
  else if fIsInf b then some (fZero s)
  else
    let n := fMant a * 2 ^ 60
    some (fPack 0 s (n / fMant b) (fScale a - fScale b - 60) (n % fMant b != 0))

/-- The integer square root of n, below 2^k. -/
def isqrt : Nat → Nat → Nat → Nat
  | 0, _, r => r
  | k + 1, n, r => let t := r + 2 ^ k; if t * t ≤ n then isqrt k n t else isqrt k n r

def fSqrt (a : Word) : Option Word :=
  if fIsNan a then none
  else if fIsZero a then some a
  else if fSign a then none
  else if fIsInf a then some a
  else
    let odd := (fScale a) % 2 != 0
    let m := fMant a * 2 ^ (if odd then 61 else 60)
    let r := isqrt 48 m 0
    some (fPack 0 false r ((fScale a - (if odd then 61 else 60)) / 2) (r * r != m))

/-- The place of a value that is not a NaN in the IEEE order, −0 and +0 at one place. -/
def fKey (w : Word) : Int :=
  let m := bits w.toNat 30 0
  if fSign w then -(m : Int) else (m : Int)

/-- The smaller of two values that are not NaNs, −0 before +0 (IEEE 754-2019; log entry 10). -/
def fMin (a b : Word) : Word :=
  if fKey a < fKey b then a else if fKey b < fKey a then b else if fSign b then b else a

def fMax (a b : Word) : Word :=
  if fKey a < fKey b then b else if fKey b < fKey a then a else if fSign a then b else a

/-! ### Conversions (R177) -/

/-- An integer as binary32. -/
def fOfInt (mode : Nat) (x : Int) : Word := fPack mode (decide (x < 0)) x.natAbs 0 false

/-- A finite value rounded to an integer. -/
def fToInt (mode : Nat) (w : Word) : Int :=
  let m := fMant w
  let e := fScale w
  let n :=
    if 0 ≤ e then m * 2 ^ e.toNat
    else
      let sh := (-e).toNat
      let kept := m / 2 ^ sh
      if roundUp mode (fSign w) (kept % 2 == 1) (m % 2 ^ sh) (2 ^ (sh - 1)) false then kept + 1 else kept
  if fSign w then -(n : Int) else (n : Int)

/-- The number of binary32 values between two values that are not NaNs, −0 and +0 as one (R306). -/
def fDistance (a b : Word) : Nat := (fKey a - fKey b).natAbs

/-! ### Functions within one unit in the last place (R170)

Fixed-point numbers with 400 fractional bits; the exact value is never a binary32 value for the operands that reach these, so
the two values around it are the ones within one unit. -/

/-- The value m × 2^e truncated to binary32, and the next one away from zero. -/
def around (neg : Bool) (m : Nat) (e : Int) : Word × Word :=
  let lo := fPack 1 neg m e true
  let up := fPack (if neg then 2 else 3) neg (2 * m + 1) (e - 1) false
  (lo, up)

/-- Choose among the two values (log entry 4): the free choice is a function of the function and its operands. -/
def ulp (fn : Nat) (a b : Word) (p : Word × Word) : Word := if Config.ulpChoice fn a b % 2 = 0 then p.1 else p.2

def fixP : Nat := 400

/-- π/2 with 560 fractional bits. -/
def halfPi560 : Nat :=
  0x1921FB54442D18469898CC51701B839A252049C1114CF98E804177D4C76273644A29410F31C6809BBDF2A33679A748636605614DBE4BE286E9FC26ADADAA3848BC90B6AECC4BC

def halfPi : Nat := halfPi560 / 2 ^ 160

/-- Sum of alternating or plain power series: terms t, t × z × c(1), ..., in fixed point. `step k` divides the k-th term. -/
def seriesSum (z : Nat) (alternate : Bool) (step : Nat → Nat) : Nat → Nat → Nat → Int
  | 0, _, _ => 0
  | f + 1, k, t =>
    let v : Int := if alternate && k % 2 == 1 then -(t : Int) else (t : Int)
    v + seriesSum z alternate step f (k + 1) (t * z / 2 ^ fixP / step (k + 1))

/-- sin r and cos r for 0 ≤ r ≤ π/4 in fixed point. -/
def sinFix (r : Nat) : Nat := (seriesSum (r * r / 2 ^ fixP) true (fun k => 2 * k * (2 * k + 1)) 60 0 r).toNat
def cosFix (r : Nat) : Nat := (seriesSum (r * r / 2 ^ fixP) true (fun k => (2 * k - 1) * (2 * k)) 60 0 (2 ^ fixP)).toNat
def expFix (r : Nat) : Nat := (seriesSum r false (fun k => k) 130 0 (2 ^ fixP)).toNat

/-- Σ ± z^(2k+1)/(2k+1): atan z with alternating signs, atanh z without. -/
def oddSeries (alternate : Bool) (z zz : Nat) : Nat → Nat → Int
  | 0, _ => 0
  | f + 1, k =>
    let v : Int := if alternate && k % 2 == 1 then -((z / (2 * k + 1) : Nat) : Int) else ((z / (2 * k + 1) : Nat) : Int)
    v + oddSeries alternate (z * zz / 2 ^ fixP) zz f (k + 1)

def atanFix (z : Nat) : Nat := (oddSeries true z (z * z / 2 ^ fixP) 210 0).toNat
def atanhFix (z : Nat) : Nat := (oddSeries false z (z * z / 2 ^ fixP) 140 0).toNat
def ln2Fix : Nat := 2 * atanhFix (2 ^ fixP / 3)

/-- x reduced modulo π/2 for |x| finite: quadrant and remainder below π/2, in fixed point. -/
def reduceTrig (w : Word) : Nat × Nat :=
  let e := fScale w
  let x := if 0 ≤ e + 560 then fMant w * 2 ^ (e + 560).toNat else 0
  (x / halfPi560 % 4, x % halfPi560 / 2 ^ 160)

/-- |sin| or |cos| at a quadrant and remainder: sin when the bit is even. -/
def trigFix (quad r : Nat) : Nat :=
  let s := fun t => if 2 * t ≤ halfPi then sinFix t else cosFix (halfPi - t)
  let c := fun t => if 2 * t ≤ halfPi then cosFix t else sinFix (halfPi - t)
  if quad % 2 = 0 then s r else c r

def fSin (a : Word) : Option Word :=
  if fIsNan a || fIsInf a then none
  else if fIsZero a then some a
  else
    let (q, r) := reduceTrig a
    let neg := fSign a != decide (2 ≤ q)
    some (ulp 2 a 0 (around neg (trigFix q r - 2 ^ 20) (-400)))

def fCos (a : Word) : Option Word :=
  if fIsNan a || fIsInf a then none
  else if fIsZero a then some 0x3F800000#32
  else
    let (q, r) := reduceTrig a
    let neg := q == 1 || q == 2
    some (ulp 3 a 0 (around neg (trigFix (q + 1) r - 2 ^ 20) (-400)))

def fExpE (a : Word) : Option Word :=
  if fIsNan a then none
  else if fIsZero a then some 0x3F800000#32
  else if fIsInf a || decide (200 ≤ fToInt 1 (fAbs a)) then
    some (if !fSign a then fInf false else if fIsInf a then 0 else ulp 1 a 0 (0#32, 1#32))
  else
    let x := fMant a * 2 ^ (fScale a + 400).toNat
    let k := x / ln2Fix
    let r := x % ln2Fix
    let p :=
      if fSign a then around false (2 ^ 800 / expFix r) (-400 - (k : Int))
      else if 128 ≤ k then (fInf false, fInf false)
      else around false (expFix r) ((k : Int) - 400)
    some (ulp 1 a 0 p)

def fLn (a : Word) : Option Word :=
  if fIsNan a || fIsZero a || fSign a then none
  else if fIsInf a then some a
  else if a = 0x3F800000#32 then some 0
  else
    let n := bitLen (fMant a)
    -- a = y × 2^k with y in [√½, √2)
    let y0 := fMant a * 2 ^ (401 - n)
    let big := decide (2 ^ 801 ≤ y0 * y0)
    let y := if big then y0 / 2 else y0
    let k : Int := fScale a + (n : Int) - 1 + (if big then 1 else 0)
    let one := 2 ^ fixP
    let at0 : Int :=
      if one ≤ y then 2 * (atanhFix ((y - one) * one / (y + one)) : Int) else -(2 * (atanhFix ((one - y) * one / (y + one)) : Int))
    let v := at0 + k * (ln2Fix : Int)
    some (ulp 0 a 0 (around (decide (v < 0)) (v.natAbs - 2 ^ 10) (-400)))

/-- atan of the quotient of two positive finite values, in fixed point, a little below the exact value. -/
def atanQuot (y x : Word) : Nat :=
  let e := min (fScale y) (fScale x)
  let n := fMant y * 2 ^ (fScale y - e).toNat
  let d := fMant x * 2 ^ (fScale x - e).toNat
  let one := 2 ^ fixP
  let small := fun n d =>
    if 2 * n ≤ d then atanFix (n * one / d) else halfPi / 2 - atanFix ((d - n) * one / (d + n))
  (if n ≤ d then small n d else halfPi - small d n) - 2 ^ 20

/-- Values of ATAN2 with magnitude m in fixed point; −π is left to a = −0 (R168). -/
def atanPick (a b : Word) (neg : Bool) (m : Nat) : Word :=
  let w := ulp 4 a b (around neg m (-400))
  if w = 0xC0490FDB#32 then 0xC0490FDA#32 else w

def fAtan2 (a b : Word) : Option Word :=
  let s := fSign a
  let sg := fun (w : Word) => if s then fNeg w else w
  if fIsNan a || fIsNan b then none
  else if fIsZero a then some (sg (if fSign b then 0x40490FDB#32 else 0#32))
  else if fIsInf a then
    if fIsInf b then some (if fSign b then atanPick a b s (halfPi / 2 * 3) else ulp 4 a b (around s (halfPi / 2) (-400)))
    else some (ulp 4 a b (around s halfPi (-400)))
  else if fIsZero b then some (ulp 4 a b (around s halfPi (-400)))
  else if fIsInf b then
    if fSign b then some (atanPick a b s (2 * halfPi)) else some (fZero s)
  else
    let m := atanQuot (fAbs a) (fAbs b)
    some (atanPick a b s (if fSign b then 2 * halfPi - m - 2 ^ 21 else m))

end Sys2Proof.Machine
end

