-- ==== Sys2Proof/Machine/Persist.lean ====
section
/-! DEFINITION. Persistence of retentive data (R361 to R366): groups, blocks, dirty blocks, the writer and its limits. -/

namespace Sys2Proof.Machine

/-- Dirty data D in bytes (R362). -/
def dirtyBytes (s : State) : Nat := 64 * s.mem.dirty.length

/-- The limit a primary enforces is the smaller of its own and the standby's (R365). -/
def enforcedLimit (s : State) : Nat :=
  match s.pair.partnerLimit with
  | some l => if s.dev.role = .primary then min s.energy.limit l else s.energy.limit
  | none => s.energy.limit

/-- The group number of a key. -/
def groupOf (s : State) (k : GroupKey) : Option Nat := (s.mem.groups.find? (fun g => g.2 == k)).map (·.1)

/-- The lowest group number from n on that is not assigned, tried f times (log entry 9). -/
def lowestFree (g : List (Nat × GroupKey)) : Nat → Nat → Nat
  | 0, n => n
  | f + 1, n => if (look g n).isSome then lowestFree g f (n + 1) else n

/-- The blocks of a group leave MRAM with its assignment. -/
def dropGroup (g : Nat) (s : State) : State :=
  onMem (fun m =>
    { m with
      groups := erase m.groups g
      dirty := m.dirty.filter (fun d => d.1 / 5 != g)
      copyA := m.copyA.filter (fun c => c.1 / 5 != g)
      copyB := m.copyB.filter (fun c => c.1 / 5 != g) }) s

/-- The 64 words of a group, in order: a run of a physical data page, or an aligned run of slots (R361). -/
def groupWords (s : State) : GroupKey → List TWord
  | .data page run => (List.range 64).map (fun i => readAt TWord.empty s.mem.data (1024 * page + 64 * run + i))
  | .slots run => (List.range 64).map (fun i => readAt TWord.empty s.img.live (64 * run + i))

/-- The 64 bytes of block b of a group: 16 payloads in blocks 0 to 3, the tags in block 4 (R361). -/
def blockBytes (ws : List TWord) (b : Nat) : Bytes :=
  if b = 4 then ws.map TWord.tag
  else ((ws.drop (16 * b)).take 16).flatMap (fun w => leBytes 4 w.payload.toNat)

/-- Assign a group to a key that has none (R361). Its five blocks are written with the words as they stand (log entry 9). -/
def addGroup (k : GroupKey) (s : State) : State :=
  if (groupOf s k).isSome then s
  else
    let g := lowestFree s.mem.groups s.mem.groups.length 0
    let ws := groupWords s k
    onMem (fun m =>
      { m with
        groups := insertAt m.groups g k
        copyA := (List.range 5).foldl (fun l b => insertAt l (5 * g + b) (m.writeSeq, blockBytes ws b)) m.copyA }) s

/-- The stamp of a copy, older than every stamp when there is none. -/
def stampOf (l : List (Nat × Nat × Bytes)) (b : Nat) : Option Nat := (look l b).map (·.1)

/-- Copy A is the older one (R362). -/
def olderA (m : Memory) (b : Nat) : Bool :=
  match stampOf m.copyA b, stampOf m.copyB b with
  | none, _ => true
  | some _, none => false
  | some x, some y => decide ((y + 2 ^ 32 - x) % 2 ^ 32 < 2 ^ 31)

/-- The newer of the two copies of a block (R362, R366). -/
def newestCopy (m : Memory) (b : Nat) : Option Bytes :=
  match look (if olderA m b then m.copyB else m.copyA) b with
  | some c => some c.2
  | none => (look (if olderA m b then m.copyA else m.copyB) b).map (·.2)

/-- Word i of a group as MRAM holds it, when both its blocks have a copy (R361). -/
def mramWord (m : Memory) (g i : Nat) : Option TWord :=
  match newestCopy m (5 * g + i / 16), newestCopy m (5 * g + 4) with
  | some p, some t => some (entryWord (slice p (4 * (i % 16)) 4 ++ slice t i 1))
  | _, _ => none

/-- The writer writes one block over the copy with the older stamp (R362). -/
def writeBlock (b : Nat) (s : State) : State :=
  match look s.mem.groups (b / 5) with
  | none => onMem (fun m => { m with dirty := m.dirty.filter (fun d => d.1 != b) }) s
  | some k =>
    let bytes := blockBytes (groupWords s k) (b % 5)
    onMem (fun m =>
      let q := (m.writeSeq + 1) % 2 ^ 32
      { m with
        writeSeq := q
        dirty := m.dirty.filter (fun d => d.1 != b)
        copyA := if olderA m b then insertAt m.copyA b (q, bytes) else m.copyA
        copyB := if olderA m b then m.copyB else insertAt m.copyB b (q, bytes) }) s

/-- Write up to n blocks in the order in which they became dirty. -/
def writeBlocks : Nat → State → State
  | 0, s => s
  | n + 1, s =>
    match s.mem.dirty with
    | [] => s
    | (b, _) :: _ => writeBlocks n (writeBlock b s)

/-- The writer takes a block once it has been dirty for 1 ms; without delay when D is at least half the limit, and in HOLDUP.
Persistence stops in FAULT (R362). -/
def writerReady (s : State) : Bool :=
  s.dev.st != .fault &&
    match s.mem.dirty with
    | [] => false
    | (_, t) :: _ =>
      decide (t + 6000000 ≤ s.dev.now) || decide (enforcedLimit s ≤ 2 * dirtyBytes s) || s.dev.st == .holdup

/-- Record a wait (R364): the count, and an event at the first wait of each second. -/
def countStall (s : State) : State :=
  let sec := optimeMs s / 1000
  let s1 := onEnergy (fun e => { e with stalls := satTo 0xFFFFFFFF (e.stalls + 1) }) s
  if s.energy.stallSecond = some sec then s1
  else logHw 0x9009 (keyed [] (leBytes 4 s1.energy.stalls)) (onEnergy (fun e => { e with stallSecond := some sec }) s1)

/-- Number of blocks the writer must clean before one more block may become dirty (R364). -/
def blocksOver (s : State) : Nat := (dirtyBytes s + 64 - enforcedLimit s + 63) / 64

/-- Block b becomes dirty. The write waits while D + 64 bytes would pass the limit, one block write of 96 FABRIC ticks for
each block that must be cleaned first (R362, R364; log entry 9). The number of FABRIC ticks waited is the first component. -/
def touchBlock (waits : Bool) (b : Nat) (s : State) : Nat × State :=
  if s.mem.dirty.any (fun d => d.1 == b) then (0, s)
  else
    let k := if waits && s.dev.st != .fault then min (blocksOver s) s.mem.dirty.length else 0
    let s1 := if k = 0 then s else writeBlocks k (countStall s)
    (96 * k, onMem (fun m => { m with dirty := m.dirty ++ [(b, s1.dev.now)] }) s1)

/-- Word i of a group changes from one value to another: its payload block and its tag block become dirty as far as they
change (R362). -/
def touchWord (waits : Bool) (g i : Nat) (old new : TWord) (s : State) : Nat × State :=
  let r1 := if old.payload = new.payload then (0, s) else touchBlock waits (5 * g + i / 16) s
  let r2 := if old.tag = new.tag then (0, r1.2) else touchBlock waits (5 * g + 4) r1.2
  (r1.1 + r2.1, r2.2)

/-- Number of retentive words in a physical data page: the page map and the count of retentive words of the running
generation give it (R159, R361). -/
def retentiveRun (p : Program) (page run : Nat) : Bool :=
  (List.range p.pageMap.length).any (fun v => nth 0 p.pageMap v == page && decide (1024 * v + 64 * run < p.retentiveWords))

end Sys2Proof.Machine
end

