-- ==== Sys2Proof/Machine/ImageOps.lean ====
section
/-! DEFINITION. The image (R70 to R99): well-formed words, descriptors and their checks, the buddy allocator, live and effective
values, writes with persistence and mirroring, and the force table. -/

namespace Sys2Proof.Machine

abbrev slotCount : Nat := 262144

/-! ### Words (R71, R72) -/

/-- The payload keeps the rule of its type (R71, R72). -/
def wellFormedPayload (ty : BitVec 4) (p : Word) : Bool :=
  if ty = Ty.empty then p == 0
  else if ty = Ty.bool then p == 0 || p == 1
  else if ty = Ty.slotref then p.toNat < 2 ^ 18
  else if ty = Ty.dataref then p.toNat < 2 ^ 22
  else if ty = Ty.coderef then !p.getLsbD 0
  else decide (ty.toNat ≤ 0xA) || ty == Ty.poison

/-- The word is not malformed (R72). -/
def wellFormed (w : TWord) : Bool := wellFormedPayload w.ty w.payload

/-- The word may come from the host: well-formed and not POISON (R72). -/
def hostWord (w : TWord) : Bool := wellFormed w && w.ty != Ty.poison

/-! ### Descriptors (R75, R76) -/

/-- The descriptor that a SLOT_FREE leaves (R75, the Reset column). -/
def freeDesc : SlotDesc :=
  { cmpParam := 0, retentive := false, cmpClass := 0, ty := 0, ownerKind := 0, dir := 0, channel := 0, station := 0,
    subPayload := 0, snapTask := 0x7F, subTy := 0, refRun := false, refStaged := false }

/-- The descriptor of 16 bytes that a host gives. -/
def parseDesc (b : Bytes) : SlotDesc :=
  let w0 := le b 0 4
  let w1 := le b 4 4
  let w3 := le b 12 4
  { cmpParam := bits w0 31 16, retentive := bitOf w0 10, cmpClass := bits w0 9 8, ty := BitVec.ofNat 4 (bits w0 7 4),
    ownerKind := bits w0 3 2, dir := bits w0 1 0, channel := bits w1 25 10, station := bits w1 9 0,
    subPayload := BitVec.ofNat 32 (le b 8 4), snapTask := bits w3 10 4, subTy := BitVec.ofNat 4 (bits w3 3 0),
    refRun := false, refStaged := false }

/-- The reserved and RO bits of a descriptor are 0 (R75, R7). -/
def descReserved (b : Bytes) : Bool :=
  bits (le b 0 4) 15 11 == 0 && bits (le b 4 4) 31 26 == 0 && bits (le b 12 4) 31 11 == 0

/-- A slot is forced. -/
def forceOf (s : State) (slot : Nat) : Option Force := s.img.forces.find? (fun f => f.slot == slot)

/-- The 16 bytes of a descriptor as the host reads them (R75). -/
def descBytes (d : SlotDesc) (forced : Bool) : Bytes :=
  leBytes 4 (d.dir + 4 * d.ownerKind + 16 * d.ty.toNat + 256 * d.cmpClass + flag d.retentive 10 + 65536 * d.cmpParam) ++
  leBytes 4 (d.station + 1024 * d.channel) ++ leBytes 4 d.subPayload.toNat ++
  leBytes 4 (d.subTy.toNat + 16 * d.snapTask + flag d.refRun 12 + flag d.refStaged 13 + flag forced 14)

def descOf (s : State) (slot : Nat) : SlotDesc := readAt freeDesc s.img.descs slot
def isFree (s : State) (slot : Nat) : Bool := (descOf s slot).dir == 0

/-- The substitute value with a quality and S (R82 to R84). -/
def subWord (d : SlotDesc) (q : BitVec 2) (sub : Bool) : TWord := ⟨sub, false, q, d.subTy, d.subPayload⟩

/-- First contents of a slot (R82). -/
def firstContents (d : SlotDesc) : TWord :=
  if d.dir = 1 then subWord d Q.bad true else subWord d Q.good false

/-- The checks of R76 on one descriptor; the modes of the local channels decide for local owners. -/
def descOk (s : State) (d : SlotDesc) : Bool :=
  let mode := fun c => (nth (Channel.reset 0) s.fio.ch c).mode
  let readback := d.station % 2 == 1
  decide (1 ≤ d.dir) && decide (d.ownerKind ≤ 2) && decide (d.cmpClass ≤ 2) &&
  (if d.dir = 3 then d.ownerKind == 0 else d.ownerKind != 0) &&
  (match d.ownerKind with
    | 0 => d.channel == 0 && d.station == 0
    | 1 => true
    | _ => decide (d.channel < 32) && decide (d.station < 2) &&
        (if d.dir = 2 then mode d.channel == 2 && !readback
          else if 24 ≤ d.channel then readback else mode d.channel != 2 && !readback)) &&
  decide (d.ty.toNat ≤ 0xA) &&
  wellFormedPayload d.subTy d.subPayload &&
  (if d.ty = 0 then decide (1 ≤ d.subTy.toNat ∧ d.subTy.toNat ≤ 0xA) else d.subTy == d.ty) &&
  (match d.cmpClass with
    | 0 => d.cmpParam == 0
    | 1 => true
    | _ => decide (1 ≤ d.cmpParam ∧ d.cmpParam ≤ 255)) &&
  !(d.retentive && d.dir == 1) &&
  !(d.ty == 0 && d.dir != 3) &&
  (if d.dir = 1 then decide (d.snapTask < 64) || d.snapTask == 0x7F else d.snapTask == 0x7F)

/-- Two descriptors own the same channel in the same direction (R76). -/
def sameOwner (a b : SlotDesc) : Bool :=
  a.ownerKind != 0 && a.ownerKind == b.ownerKind && a.dir == b.dir && a.channel == b.channel &&
    (a.ownerKind == 2 || a.station == b.station)

/-! ### The buddy allocator (R77) -/

/-- Insert a free run, rising base. -/
def insertRun (b k : Nat) (l : List (Nat × Nat)) : List (Nat × Nat) := insertAt l b k

/-- Free a run of order k at b and merge it with its free buddies, at most f times; the merged run and the list (R77). -/
def mergeRun : Nat → Nat → Nat → List (Nat × Nat) → (Nat × Nat) × List (Nat × Nat)
  | 0, b, k, l => ((b, k), insertRun b k l)
  | f + 1, b, k, l =>
    let buddy := if b / 2 ^ k % 2 = 0 then b + 2 ^ k else b - 2 ^ k
    if k < 18 && look l buddy == some k then mergeRun f (min b buddy) (k + 1) (erase l buddy)
    else ((b, k), insertRun b k l)

/-- The free list with the run (b, k) given back. -/
def freeRun (l : List (Nat × Nat)) (b k : Nat) : List (Nat × Nat) := (mergeRun 18 b k l).2

/-- Split a free run of order j at b down to the run of order k at the address a, keeping every other half free. -/
def splitRun : Nat → Nat → Nat → Nat → Nat → List (Nat × Nat) → List (Nat × Nat)
  | 0, b, _, _, _, l => erase l b
  | f + 1, b, j, a, k, l =>
    if j ≤ k then erase l b
    else
      let h := 2 ^ (j - 1)
      if a < b + h then splitRun f b (j - 1) a k (insertRun (b + h) (j - 1) (insertRun b (j - 1) l))
      else splitRun f (b + h) (j - 1) a k (insertRun (b + h) (j - 1) (insertRun b (j - 1) l))

/-- The lowest-addressed free run of the smallest order that is at least k (R77). -/
def bestRun (k : Nat) (l : List (Nat × Nat)) : Option (Nat × Nat) :=
  l.foldl (fun best e =>
    if e.2 < k then best
    else match best with
      | none => some e
      | some b => if e.2 < b.2 then some e else best) none

/-- The free run that holds the run of order k at base a. -/
def holdingRun (a k : Nat) (l : List (Nat × Nat)) : Option (Nat × Nat) :=
  l.find? (fun e => decide (e.1 ≤ a) && decide (a + 2 ^ k ≤ e.1 + 2 ^ e.2))

/-- Allocate order k, at a requested base or where the policy puts it: the base and the free runs that remain (R77). -/
def allocRun (at? : Option Nat) (k : Nat) (l : List (Nat × Nat)) : Option (Nat × List (Nat × Nat)) :=
  match at? with
  | some a =>
    match holdingRun a k l with
    | some (b, j) => some (a, splitRun 18 b j a k l)
    | none => none
  | none =>
    match bestRun k l with
    | some (b, j) => some (b, splitRun 18 b j b k l)
    | none => none

/-- Total of free slots and the largest free order, 0xFF when there is none (R79). -/
def freeTotal (l : List (Nat × Nat)) : Nat := (l.map (fun e => 2 ^ e.2)).sum
def largestFree (l : List (Nat × Nat)) : Nat := if l.isEmpty then 0xFF else (l.map (·.2)).foldl max 0

/-! ### Values (R81, R88, R92, R95) -/

def liveWord (s : State) (slot : Nat) : TWord := readAt TWord.empty s.img.live slot

/-- The effective value: the force value when the slot is forced, the live word otherwise (R92). -/
def effWord (s : State) (slot : Nat) : TWord :=
  match forceOf s slot with
  | some f => f.value
  | none => liveWord s slot

/-- The snapshot word of an input slot and the tick of the freeze that wrote it; its first contents before that (R81, R93). -/
def snapWord (s : State) (slot : Nat) : TWord × Option Nat :=
  readAt (firstContents (descOf s slot), none) s.img.snap slot

/-- What an SNC read of a slot by a task returns (R88). -/
def slotForTask (s : State) (slot : Nat) : TWord :=
  let d := descOf s slot
  if d.dir = 1 then
    if d.snapTask < 64 then (snapWord s slot).1 else effWord s slot
  else if d.dir = 2 then liveWord s slot
  else effWord s slot

/-- The value of a slot as SNAPSHOT_READ and the image view give it, with bytes 5 to 7 (R93). -/
def snapEntry (s : State) (slot : Nat) : TWord × Option Nat :=
  let d := descOf s slot
  if d.dir = 1 && decide (d.snapTask < 64) then snapWord s slot else (effWord s slot, none)

/-! ### Writes -/

/-- The 64-slot run of a retentive slot, with the write persisted (R362); ticks waited and the state. -/
def persistSlot (waits : Bool) (slot : Nat) (old new : TWord) (s : State) : Nat × State :=
  if (descOf s slot).retentive then
    match groupOf s (.slots (slot / 64)) with
    | some g => touchWord waits g (slot % 64) old new s
    | none => (0, s)
  else (0, s)

/-- Write the live word of a slot, with persistence and the delta (R89, R330, R362); FABRIC ticks waited and the state. -/
def writeLive (waits : Bool) (slot : Nat) (w : TWord) (s : State) : Nat × State :=
  let old := liveWord s slot
  let r := persistSlot waits slot old w s
  (r.1, (if (descOf s slot).dir = 1 then id else mirror (.image slot [w]))
    (onImg (fun i => { i with live := writeAt TWord.empty i.live slot w }) r.2))

/-- A write of a source, a command or a substitution, which the next output latch takes (R18). -/
def setLive (slot : Nat) (w : TWord) (s : State) : State :=
  onImg (fun i => { i with shown := erase i.shown slot }) (writeLive true slot w s).2

/-- A write of a running activation: the output latch keeps the word it would have taken (R18). -/
def writeRunning (slot : Nat) (w : TWord) (s : State) : Nat × State :=
  let old := liveWord s slot
  let r := writeLive true slot w s
  (r.1, onImg (fun i => if (look i.shown slot).isSome then i else { i with shown := insertAt i.shown slot old }) r.2)

/-- The word of an output slot that the output latch takes, without halts (R18, R95). -/
def latchWord (s : State) (slot : Nat) : TWord :=
  match forceOf s slot with
  | some f => f.value
  | none => readAt (liveWord s slot) s.img.shown slot

/-- An activation has ended: what it wrote is what the output latch takes (R18). -/
def showWrites (ws : List (Nat × TWord)) (s : State) : State :=
  onImg (fun i => { i with shown := ws.foldl (fun l e =>
    if (look l e.1).isNone then l else if liveWord s e.1 = e.2 then erase l e.1 else insertAt l e.1 e.2) i.shown }) s

/-- The substitute value with BAD and S = 1 into the live word (R83, R84). -/
def substitute (slot : Nat) (s : State) : State := setLive slot (subWord (descOf s slot) Q.bad true) s

/-- Every output slot takes its substitute value (R84). -/
def substituteOutputs (s : State) : State :=
  forEach (s.img.descs.filter (fun e => e.2.dir == 2)) (fun e t => substitute e.1 t) s

/-! ### The force table (R94 to R99) -/

/-- Insert or replace a force, rising slot. -/
def insertForce (f : Force) : List Force → List Force
  | [] => [f]
  | x :: r => if f.slot < x.slot then f :: x :: r else if x.slot = f.slot then f :: r else x :: insertForce f r

/-- The force record (R455): slot, action, old and new value. -/
def recordForce (slot action : Nat) (old new : Option TWord) : State → State :=
  let e := fun (w : Option TWord) => match w with
    | some w => entry w 0
    | none => List.replicate 8 0
  logFw 0x2001 (keyed (fields [(4, slot), (1, action)]) (e old ++ e new))

/-- A force command takes effect: the table as it stands is the one that a freeze or latch of this FABRIC tick uses (R97). -/
def markForces (s : State) : State :=
  onImg (fun i =>
    { i with forcesBefore := match i.forcesBefore with
        | some (t, l) => if t = s.dev.now / 10 then some (t, l) else some (s.dev.now / 10, i.forces)
        | none => some (s.dev.now / 10, i.forces) }) s

/-- The force table for a freeze or a latch that begins now (R97). -/
def freezeForces (s : State) : List Force :=
  match s.img.forcesBefore with
  | some (t, l) => if t = s.dev.now / 10 then l else s.img.forces
  | none => s.img.forces

/-- The state whose values a freeze or a latch that begins now takes (R97). -/
def freezeView (s : State) : State := onImg (fun i => { i with forces := freezeForces s }) s

/-- Set or replace a force (R98 to R100). -/
def setForce (slot : Nat) (w : TWord) (s : State) : State :=
  let old := (forceOf s slot).map (·.value)
  let f : Force := { slot := slot, value := { w with forced := true, sub := false }, tick := s.dev.tick }
  recordForce slot (if old.isSome then 1 else 0) old (some f.value)
    (mirror (.forceSet f)
      (onImg (fun i => { i with forces := insertForce f i.forces, forcesMram := insertForce f i.forcesMram }) (markForces s)))

/-- Remove the force of a slot, with the action code of its record: 2 clear, 3 orphan clear (R101, R455). -/
def clearForce (action slot : Nat) (s : State) : State :=
  match forceOf s slot with
  | none => s
  | some f =>
    recordForce slot action (some f.value) none
      (mirror (.forceClear slot)
        (onImg (fun i =>
          { i with forces := i.forces.filter (fun x => x.slot != slot)
                   forcesMram := i.forcesMram.filter (fun x => x.slot != slot) }) (markForces s)))

/-- Empty the force table: the effect first, the clear marker in MRAM after it (R98). A command that finds the table empty has no
further effect (R64); a cold start gives its record in any case. On CQ0 and through URG_COMMAND the hardware serves it (R53). -/
def clearForces (origin : Nat) (s : State) : State :=
  let n := s.img.forces.length
  if n = 0 ∧ origin ≠ 2 then s
  else
    (if origin = 1 then logHw else logFw) 0x2002 (fields [(2, n), (1, origin)])
      (mirror .forceClearAll (onImg (fun i => { i with forces := [], markerPending := true }) (markForces s)))

/-- Write the clear marker, which empties the copy in MRAM (R98). -/
def writeMarker (s : State) : State :=
  if s.img.markerPending then onImg (fun i => { i with markerPending := false, forcesMram := i.forces }) s else s

/-! ### Allocation and release of slots -/

/-- Slots of the list of allocated descriptors with their numbers, in a range. -/
def descsIn (s : State) (base n : Nat) : List (Nat × SlotDesc) :=
  s.img.descs.filter (fun e => decide (base ≤ e.1) && decide (e.1 < base + n))

/-- Give descriptors to consecutive slots, with their first contents (R82) and groups (R361). -/
def placeDescs (base : Nat) (ds : List SlotDesc) (s : State) : State :=
  forEach (ds.zipIdx) (fun e t =>
    let slot := base + e.2
    let t1 := mirror (.slotDesc slot e.1) (onImg (fun i => { i with descs := insertAt i.descs slot e.1 }) t)
    let t2 := if e.1.retentive then addGroup (.slots (slot / 64)) t1 else t1
    let t3 := onImg (fun i =>
      { i with snap := erase i.snap slot, disc := erase i.disc slot
               view := if e.1.dir = 1 ∧ e.1.snapTask < 64 then insertAt i.view slot (firstContents e.1, none) else i.view }) t2
    setLive slot (firstContents e.1) t3) s

/-- The descriptors of a range of slots take their reset values and their values go (R80). -/
def clearDescs (base n : Nat) (s : State) : State :=
  let s1 := onImg (fun i =>
    { i with descs := dropOut i.descs, live := dropOut i.live, snap := i.snap.filter (fun e => out e.1),
             disc := dropOut i.disc, shown := dropOut i.shown, latched := dropOut i.latched }) s
  forEach (s1.mem.groups.filter (fun g => match g.2 with
      | .slots run => decide (base ≤ 64 * run + 63) && decide (64 * run < base + n) &&
          (descsIn s1 (64 * run) 64).all (fun e => !e.2.retentive)
      | .data _ _ => false)) (fun g t => dropGroup g.1 t) s1
where
  out (k : Nat) : Bool := !(decide (base ≤ k) && decide (k < base + n))
  dropOut {β : Type} (l : List (Nat × β)) : List (Nat × β) := l.filter (fun e => out e.1)

/-- Number of retentive slots and words held (R78). -/
def retentiveCount (s : State) : Nat :=
  (s.img.descs.filter (fun e => e.2.retentive)).length +
    match s.chg.running with
    | some p => p.retentiveWords
    | none => 0

/-- New groups that retentive slots at base would take (R361). -/
def newSlotGroups (s : State) (base : Nat) (ds : List SlotDesc) : Nat :=
  ((ds.zipIdx.filter (fun e => e.1.retentive)).map (fun e => (base + e.2) / 64)).dedup.filter
    (fun run => (groupOf s (.slots run)).isNone) |>.length

end Sys2Proof.Machine
end

