-- ==== Sys2Proof/Machine/Operands.lean ====
section
/-! DEFINITION. Operands of Synna Code instructions: trap causes, the result of an operation on operands, the rows of types an
instruction accepts, nominal result types (R149, R150, R165, R166, R542) and immediates (R144). -/

namespace Sys2Proof.Machine

/-- Trap causes (R149), in order of precedence. -/
abbrev cIllegal : Nat := 0x1
abbrev cCode : Nat := 0x2
abbrev cPoison : Nat := 0x3
abbrev cBase : Nat := 0x4
abbrev cAddress : Nat := 0x5
abbrev cSlot : Nat := 0x6
abbrev cEmpty : Nat := 0x7
abbrev cType : Nat := 0x8
abbrev cOverflow : Nat := 0x9
abbrev cDivide : Nat := 0xA
abbrev cInvalid : Nat := 0xB
abbrev cLegacy : Nat := 0xC
abbrev cExplicit : Nat := 0xD

/-- What an operation gives: type and payload with the legacy range flag, or a data cause with the type and payload that MARK
writes (R150, R166). -/
inductive Res where
  | ok (ty : BitVec 4) (p : Word) (carry : Bool)
  | fail (cause : Nat) (ty : BitVec 4) (p : Word)
  deriving DecidableEq, Repr

/-- A source operand that causes POISON: of type POISON or malformed (R149). -/
def poisonous (w : TWord) : Bool := w.ty == Ty.poison || !wellFormed w

/-- A row of accepted types: a, b, result. -/
abbrev Row := BitVec 4 × BitVec 4 × BitVec 4

def sameRow (t : BitVec 4) : Row := (t, t, t)

/-- The result type that the rows give for two operands. -/
def rowResult (rows : List Row) (ta tb : BitVec 4) : Option (BitVec 4) :=
  (rows.find? (fun r => r.1 == ta && r.2.1 == tb)).map (fun r => r.2.2)

/-- The nominal result type (R542, rules 2 to 4). -/
def nominal (rows : List Row) (ta tb : BitVec 4) : BitVec 4 :=
  match rowResult rows ta tb with
  | some t => t
  | none => match rows.find? (fun r => r.1 == ta) with
    | some r => r.2.2
    | none => match rows.find? (fun r => r.2.1 == tb) with
      | some r => r.2.2
      | none => match rows with
        | r :: _ => r.2.2
        | [] => Ty.empty

/-- The checks EMPTY and TYPE of an instruction with two value operands, then the operation on the result type (R165). -/
def withRows (rows : List Row) (a b : TWord) (f : BitVec 4 → Res) : Res :=
  if a.ty = Ty.empty ∨ b.ty = Ty.empty then .fail cEmpty (nominal rows a.ty b.ty) 0
  else match rowResult rows a.ty b.ty with
    | some t => f t
    | none => .fail cType (nominal rows a.ty b.ty) 0

/-- The nominal type of an instruction with one value operand: the type itself where accepted, else the first listed. -/
def nominal1 (types : List (BitVec 4)) (t : BitVec 4) : BitVec 4 :=
  if types.contains t then t else (types.head?).getD Ty.empty

/-- The same with one value operand whose accepted types are listed, the result having the operand's type. -/
def withTypes (types : List (BitVec 4)) (a : TWord) (f : Res) : Res :=
  if a.ty = Ty.empty then .fail cEmpty (nominal1 types a.ty) 0
  else if types.contains a.ty then f
  else .fail cType (nominal1 types a.ty) 0

/-- The same with a fixed nominal result type (R542, rule 1). -/
def withFixed (types : List (BitVec 4)) (t : BitVec 4) (a : TWord) (f : Res) : Res :=
  if a.ty = Ty.empty then .fail cEmpty t 0 else if types.contains a.ty then f else .fail cType t 0

/-- The number an operand of a numeric type stands for: unsigned for WORD, signed otherwise. -/
def numOf (ty : BitVec 4) (p : Word) : Int := if ty = Ty.word then (p.toNat : Int) else p.toInt

/-- A bound of a type, and its saturated payload (R150, R166). -/
def tooBig (ty : BitVec 4) (x : Int) : Bool :=
  if ty = Ty.slotref then decide (x < 0) || decide (262143 < x)
  else if ty = Ty.dataref then decide (x < 0) || decide (4194303 < x)
  else if ty = Ty.word then decide (x < 0) || decide (0xFFFFFFFF < x)
  else decide (x < -2147483648) || decide (2147483647 < x)

def saturated (ty : BitVec 4) (up : Bool) : Word :=
  if ty = Ty.slotref then (if up then 0x3FFFF#32 else 0)
  else if ty = Ty.dataref then (if up then 0x3FFFFF#32 else 0)
  else if ty = Ty.word then (if up then 0xFFFFFFFF#32 else 0)
  else if ty = Ty.int || ty = Ty.duration then (if up then 0x7FFFFFFF#32 else 0x80000000#32)
  else 0

/-- imm15 and imm6, sign-extended. -/
def immWord (i : BitVec 15) : Word := i.signExtend 32

end Sys2Proof.Machine
end

