-- ==== Sys2Proof/Machine/Flags.lean ====
section
/-! DEFINITION. Quality, F and S of results (R74, R151), the word MARK writes (R150), and the legacy range flag (R154, R172). -/

namespace Sys2Proof.Machine

/-- The worst quality of a list of operands (R73, R74); GOOD for none. -/
def worstQ (ws : List TWord) : BitVec 2 := ws.foldl (fun q w => worse q w.q) Q.good

/-- F and S of a result: the OR over its operands (R74). -/
def orF (ws : List TWord) : Bool := ws.any (·.forced)
def orS (ws : List TWord) : Bool := ws.any (·.sub)

/-- The result word of an operation on operands: quality-blind when qb (R151). -/
def resultWord (qb : Bool) (ws : List TWord) (ty : BitVec 4) (p : Word) : TWord :=
  ⟨orS ws, orF ws, if qb then Q.good else worstQ ws, ty, p⟩

/-- The word written under MARK: quality BAD, F and S of the operands (R150). -/
def markWord (ws : List TWord) (ty : BitVec 4) (p : Word) : TWord := ⟨orS ws, orF ws, Q.bad, ty, p⟩

/-- Reduction of an exact INT result to 16 bits in legacy mode: the payload and whether the result lay outside (R154). -/
def legacyInt (x : Int) : Word × Bool :=
  ((BitVec.ofInt 16 x).signExtend 32, decide (x < -32768) || decide (32767 < x))

/-- The same for WORD: zero-extended, outside 0 to 65,535. -/
def legacyWord (x : Int) : Word × Bool :=
  ((BitVec.ofInt 16 x).zeroExtend 32, decide (x < 0) || decide (65535 < x))

/-- The result of exact arithmetic in a type: reduced in legacy mode for INT and WORD, modulo 2^32 for WORD and STAMP, and
OVERFLOW outside the type's range otherwise (R154, R169, R171). -/
def exact (lgc : Bool) (ty : BitVec 4) (x : Int) : Res :=
  if lgc && ty == Ty.int then .ok ty (legacyInt x).1 (legacyInt x).2
  else if lgc && ty == Ty.word then .ok ty (legacyWord x).1 (legacyWord x).2
  else if ty = Ty.word ∨ ty = Ty.stamp then .ok ty (BitVec.ofInt 32 x) false
  else if tooBig ty x then .fail cOverflow ty (saturated ty (decide (0 < x)))
  else .ok ty (BitVec.ofInt 32 x) false

/-- A REAL result, or INVALID (R150, R170). -/
def real (x : Option Word) : Res :=
  match x with
  | some p => .ok Ty.real p false
  | none => .fail cInvalid Ty.real fNan

/-- mark_count and last_mark after a MARK (R135, R150). -/
def countMark (cause : Nat) (e : Engine) : Engine :=
  { e with markCount := satTo 255 (e.markCount + 1), lastMark := cause }

/-- lgc_carry is set by an instruction outside the range, and only SNC clears it (R135, R154). -/
def setCarry (c : Bool) (e : Engine) : Engine := { e with lgcCarry := e.lgcCarry || c }

/-- The engine status word (R135). -/
def statusWord (e : Engine) : Word :=
  BitVec.ofNat 32 (65536 * (e.task.getD 0) + 256 * e.markCount + 16 * e.lastMark + flag e.lgcCarry 1 + flag e.lgc 0)

end Sys2Proof.Machine
end

