-- ==== Sys2Proof/Machine/CodeStore.lean ====
section
/-! DEFINITION. The code store (R191, R192, R200): frames and their lines, the line CRC tables, the sharing of frames between two
generations (R205), and the bytes that a fetch reads. -/

namespace Sys2Proof.Machine

/-! ### Pages and line CRC tables (R160, R192) -/

/-- The 4,096 bytes of a page (R160): zeros where no record describes it. -/
def codePage (p : Program) (n : Nat) : Bytes := (look p.code n).getD (List.replicate 4096 0)

/-- Line i of the bytes of a page. -/
def lineBytes (b : Bytes) (i : Nat) : Bytes := sliceZ b (64 * i) 64

/-- The lines of a page, each with its CRC-32C (R191). -/
def pageLines (b : Bytes) : List (Bytes × Word) :=
  (List.range 64).map (fun i => (lineBytes b i, crc32c (lineBytes b i)))

/-- A CRC-32C for every line of the expanded code (R192). -/
def lineCrcs (p : Program) : List (Option Word) :=
  (List.range (p.codeLength / 4096)).flatMap (fun n => (pageLines (codePage p n)).map (fun l => some l.2))

/-- The line CRC table of a generation is made from its verified image, in two copies (R192). -/
def keepTable (p : Program) : State → State :=
  onMem (fun m => { m with tables := insertAt m.tables p.gen ⟨lineCrcs p, lineCrcs p⟩ })

/-- The table entry of a line: of the first copy that is correctable; none when neither is (R202). -/
def lineEntry (s : State) (gen page line : Nat) : Option Word :=
  (look s.mem.tables gen).bind (fun t =>
    let i := 64 * page + line
    match t.copyA[i]?, t.copyB[i]? with
    | some (some c), _ => some c
    | _, some (some c) => some c
    | _, _ => none)

/-- A line passes its check against the line CRC table (R200, R201). -/
def linePasses (s : State) (gen page line : Nat) (b : Bytes) : Bool := lineEntry s gen page line == some (crc32c b)

/-- The first line of a page whose bytes fail the check against the table. -/
def failingLine (s : State) (gen page : Nat) (b : Bytes) : Option Nat :=
  (List.range 64).find? (fun i => !linePasses s gen page i (lineBytes b i))

/-- The entry of a line in one copy of the table becomes uncorrectable (R202, R417). -/
def loseEntry (second : Bool) (gen page line : Nat) : State → State :=
  onMem (fun m =>
    { m with
      tables := m.tables.map (fun e =>
        if e.1 = gen then
          (e.1, if second then { e.2 with copyB := e.2.copyB.modify (64 * page + line) (fun _ => none) }
            else { e.2 with copyA := e.2.copyA.modify (64 * page + line) (fun _ => none) })
        else e) })

/-! ### Frames (R191) -/

/-- The frame holds a page of a generation. -/
def frameHolds (f : Frame) (gen page : Nat) : Bool := f.page == page && f.gens.contains gen

/-- The frame that holds a page, with its number. -/
def storedFrame (s : State) (gen page : Nat) : Option (Nat × Frame) := s.mem.frames.find? (fun e => frameHolds e.2 gen page)

/-- The page is in the store. -/
def stored (s : State) (gen page : Nat) : Bool := (storedFrame s gen page).isSome

/-- The generation with a number: the running, the staged or the retained one. -/
def progOf (s : State) (gen : Nat) : Option Program :=
  match s.chg.running with
  | none => none
  | some p =>
    if p.gen = gen then some p
    else
      match s.chg.staged, s.chg.retained with
      | some b, _ => if b.prog.gen = gen then some b.prog else none
      | none, some b => if b.prog.gen = gen then some b.prog else none
      | none, none => none

/-- The lowest free frame; none when the store is full. -/
def freeFrame (s : State) : Option Nat := (List.range 2048).find? (fun i => (look s.mem.frames i).isNone)

/-- A frame of another generation holds the page with the same number and the same bytes (R205). -/
def twinFrame (s : State) (page : Nat) (b : Bytes) : Option (Nat × Frame) :=
  s.mem.frames.find? (fun e => e.2.page == page && e.2.lines.map (·.1) == (pageLines b).map (·.1))

/-- The bytes of a page go into a frame: one that holds the same bytes for another generation, or the lowest free one. -/
def placePage (gen page : Nat) (b : Bytes) (s : State) : State :=
  match twinFrame s page b, freeFrame s with
  | some (i, f), _ =>
    onMem (fun m => { m with frames := insertAt m.frames i { f with gens := if f.gens.contains gen then f.gens else f.gens ++ [gen] } }) s
  | none, some i =>
    onMem (fun m => { m with frames := insertAt m.frames i { page := page, gens := [gen], lines := pageLines b } }) s
  | none, none => s

/-- Free a frame. -/
def dropFrame (i : Nat) : State → State := onMem (fun m => { m with frames := erase m.frames i })

/-- A page whose DDR copy is bad is absent from every frame that holds it, and waits for its rebuild (R202). -/
def markBad (gen page : Nat) (s : State) : State :=
  onMem (fun m =>
    { m with frames := m.frames.filter (fun e => !frameHolds e.2 gen page)
             badPages := if m.badPages.contains (gen, page) then m.badPages else m.badPages ++ [(gen, page)] }) s

/-- Record and count of a refetch (R201, R211). -/
def recordRefetch (gen page line : Nat) (s : State) : State :=
  logHw 0x1010 (keyed (fields [(4, gen), (2, page)]) [b8 line])
    (onMem (fun m => { m with refetches := satTo 0xFFFF (m.refetches + 1) }) s)

/-- A page is filled from DDR into a frame: each line is checked against the line CRC table (R200). A line that fails is fetched
again, and when it fails again the page is bad (R201, R202). -/
def putFrame (gen page : Nat) (s : State) : State :=
  match progOf s gen with
  | none => s
  | some p =>
    if stored s gen page then s
    else
      match failingLine s gen page (codePage p page) with
      | none => placePage gen page (codePage p page) s
      | some l => markBad gen page (recordRefetch gen page l s)

/-! ### Fetch (R141, R148, R200) -/

/-- The line of the store that holds the byte at an address of the running generation's code, with the CRC kept beside it. -/
def fetchLine (s : State) (pc : Nat) : Option (Bytes × Word) :=
  (storedFrame s (runningGen s) (pc / 4096)).bind (fun e => e.2.lines[pc % 4096 / 64]?)

/-- The line passes the check that an engine makes when it reads it (R200). -/
def lineIntact (l : Bytes × Word) : Bool := crc32c l.1 == l.2

/-- The parcel of 16 bits at an address; none when its page is absent (R141). -/
def parcel (s : State) (pc : Nat) : Option (BitVec 16) :=
  (fetchLine s pc).map (fun l => BitVec.ofNat 16 (le l.1 (pc % 64) 2))

end Sys2Proof.Machine
end

