-- ==== Sys2Proof/Machine/TaskOps.lean ====
section
/-! DEFINITION. The scheduler (R104 to R125): releases, freezes, dispatch, preemption, ends and stops of activations, triggers,
and the pair states that change with them (R316). -/

namespace Sys2Proof.Machine

/-! ### Tasks and engines -/

def getTask (s : State) (n : Nat) : Task := nth Task.reset s.scan.tasks n
def getEng (s : State) (e : Nat) : Engine := nth Engine.reset s.scan.engines e
def getPair (s : State) (k : Nat) : PState := nth PState.split s.scan.pairs k
def onEng (e : Nat) (f : Engine → Engine) : State → State :=
  onScan (fun x => { x with engines := modifyNth x.engines e f })

def TState.code : TState → Nat
  | .disabled => 0 | .idle => 1 | .suspended => 2 | .held => 3 | .ready => 4 | .running => 5 | .preempted => 6
  | .halted => 7

/-- Active: HELD, READY, RUNNING and PREEMPTED (R123). -/
def TState.active : TState → Bool
  | .held | .ready | .running | .preempted => true
  | _ => false

/-- What a delta carries of a task (R330). -/
def taskMirror (s : State) (t : Task) : TaskMirror :=
  { state := t.st.code, suspendPending := t.suspendPending, pendingLatch := t.latch.isSome, coalesced := t.coalesced,
    skips := t.skips, controlledSkips := t.controlledSkips, releases := t.releases,
    lastRelease := t.lastRelease.getD 0, timerLeft := t.timer.map (· - s.dev.now) }

/-- Change a task, with its record of the delta. -/
def onTask (n : Nat) (f : Task → Task) (s : State) : State :=
  let t := onScan (fun x => { x with tasks := modifyNth x.tasks n f }) s
  mirror (.task n (taskMirror t (getTask t n))) t

/-- The task's entry in the running generation. -/
def taskDef (s : State) (n : Nat) : Option TaskDef :=
  match s.chg.running with
  | some p => p.tasks[n]?
  | none => none

/-- The page list of a task (R159). -/
def taskPages (s : State) (n : Nat) : List Nat :=
  match taskDef s n with
  | some d => d.pages
  | none => []

/-- A page of the running generation is in the store (R199). -/
def pageIn (s : State) (page : Nat) : Bool := stored s (runningGen s) page

/-- Every page of the task's list is resident (R121, R199). -/
def resident (s : State) (n : Nat) : Bool := s.chg.running.isSome && (taskPages s n).all (pageIn s)

/-- The device releases tasks (R113). -/
def releases (s : State) : Bool := s.dev.releasing.isSome

/-- A release can fall due in tick n: releases have begun, and no switch window is open (R113, R129, R227). -/
def releaseOpen (s : State) (n : Nat) : Bool :=
  match s.dev.releasing with
  | some f => decide (f ≤ n) && s.chg.window.isNone
  | none => false

/-- An online change or a switchover holds the releases of the task back (R224, R342). -/
def heldBack (s : State) (n : Nat) : Bool := s.chg.heldTasks.contains n || s.pair.heldTasks.contains n

/-- The guard time of an event task has ended in tick n (R110). -/
def guardOver (t : Task) (n : Nat) : Bool :=
  match t.lastRelease with
  | some l => decide (l + t.sched.period ≤ n)
  | none => true

/-! ### Freezes (R86, R87, R112) -/

/-- The input slots whose snapshot task is n. -/
def snapSlots (s : State) (n : Nat) : List Nat :=
  (s.img.descs.filter (fun e => e.2.dir == 1 && e.2.snapTask == n)).map (·.1)

/-- FABRIC ticks of a freeze (R87). -/
def freezeTicks (s : State) (n : Nat) : Nat := ((snapSlots s n).length + 15) / 16

def onAct (n : Nat) (f : Activation → Activation) : State → State :=
  onScan (fun x => { x with tasks := modifyNth x.tasks n (fun t => { t with act := t.act.map f }) })

/-- The freeze of task n takes the effective values as they stand at its start, with the tick of the release (R86, R112);
the image view shows them (R540). A force command of the same FABRIC tick does not reach it (R97). -/
def copySnapshot (n : Nat) (s : State) : State :=
  let tick := ((getTask s n).act.map (·.tick)).getD s.dev.tick
  onImg (fun i =>
    { i with snap := (snapSlots s n).foldl (fun l a => insertAt l a (effWord (freezeView s) a, some tick)) i.snap
             view := (snapSlots s n).foldl (fun l a => insertAt l a (effWord (freezeView s) a, some tick)) i.view }) s

/-- The freeze at the head of the order begins. -/
def headFreeze (s : State) : State :=
  match s.scan.freezes with
  | n :: _ => copySnapshot n s
  | [] => s

/-- The freeze of task n has ended. -/
def endFreeze (n : Nat) (s : State) : State :=
  headFreeze (onScan (fun x => { x with freezes := x.freezes.filter (· != n) }) (onAct n (fun a => { a with frozen := true }) s))

/-- Freezes of no slots end at once when their turn comes. -/
def emptyFreezes : Nat → State → State
  | 0, s => s
  | k + 1, s =>
    match s.scan.freezes with
    | n :: _ => if freezeTicks s n = 0 then emptyFreezes k (endFreeze n s) else s
    | [] => s

/-- Release a of task n goes before release b of task m in the order of freezes: tick, priority, task number (R87). -/
def freezeBefore (s : State) (n m : Nat) : Bool :=
  let key := fun k => (((getTask s k).act.map (·.tick)).getD 0, (getTask s k).sched.priority, k)
  let a := key n
  let b := key m
  decide (a.1 < b.1) || (a.1 == b.1 && (decide (a.2.1 < b.2.1) || (a.2.1 == b.2.1 && decide (a.2.2 < b.2.2))))

/-- Insert a freeze among those that have not begun. -/
def insertFreeze (s : State) (n : Nat) : List Nat → List Nat
  | [] => [n]
  | m :: r => if freezeBefore s n m then n :: m :: r else m :: insertFreeze s n r

/-- The freeze of a release joins the order; it begins at once when none is in progress (R87). -/
def startFreeze (n : Nat) (s : State) : State :=
  match s.scan.freezes with
  | [] => emptyFreezes 64 (headFreeze (onScan (fun x => { x with freezes := [n] }) s))
  | h :: r => onScan (fun x => { x with freezes := h :: insertFreeze s n r }) s

/-! ### Releases -/

/-- Release task n in a tick (R108, R110, R111): source, trigger capture, release instant and argument. -/
def releaseIn (tick n src capture at' : Nat) (arg : TWord) (s : State) : State :=
  let here := resident s n
  let s1 := onTask n (fun t =>
    { t with
      st := if here then .ready else .held
      latch := none
      coalesced := 0
      lastRelease := some tick
      releases := t.releases + 1
      heldReleases := if here then t.heldReleases else t.heldReleases + 1
      act := some { tick := tick, releasedAt := at', capture := capture, source := src, coalesced := t.coalesced,
                    arg := arg, frozen := false, ctx := none, fabricTicks := freezeTicks s n, writes := [], ending := none } }) s
  startFreeze n s1

/-- Release task n in the tick of the release instant. -/
def release (n src capture at' : Nat) (arg : TWord) (s : State) : State := releaseIn (tickOf s at') n src capture at' arg s

/-- A saturating count of 32 bits. -/
def inc32 (n : Nat) : Nat := satTo 0xFFFFFFFF (n + 1)

/-- The pending latch is set, or the trigger is coalesced (R110). -/
def latchTrigger (n src capture : Nat) (arg : TWord) (s : State) : Nat × State :=
  if (getTask s n).latch.isSome then
    (2, onTask n (fun t => { t with coalesced := satTo 255 (t.coalesced + 1), coalescedTotal := inc32 t.coalescedTotal }) s)
  else (1, onTask n (fun t => { t with latch := some (src, arg, capture) }) s)

/-- A trigger of event task n at a capture instant (R110, R113): outcome 0 released, 1 latched, 2 coalesced, 3 discarded. -/
def fireTrigger (n src capture : Nat) (arg : TWord) (s : State) : Nat × State :=
  let t := getTask s n
  if t.st = .suspended ∨ t.st = .halted ∨ t.st = .disabled ∨ !releases s then (3, s)
  else if t.st = .idle && t.latch.isNone && guardOver t (tickOf s capture) && releaseOpen s (tickOf s capture) &&
      !heldBack s n then
    (0, release n src capture capture arg s)
  else latchTrigger n src capture arg s

/-- The release of a set latch that has fallen due at an instant (R110). -/
def releaseLatched (n at' : Nat) (s : State) : State :=
  let t := getTask s n
  match t.latch with
  | some (src, arg, capture) =>
    if t.st = .idle && guardOver t (tickOf s at') && releaseOpen s (tickOf s at') && !heldBack s n then
      release n src capture at' arg s
    else s
  | none => s

/-! ### Slot-change triggers (R107, R109) -/

/-- The change of an effective value is one that a trigger mode names. -/
def changeCounts (mode : Nat) (old new : TWord) : Bool :=
  (bitOf mode 0 && (old.ty != new.ty || old.payload != new.payload)) ||
    (bitOf mode 1 && old.q != new.q) ||
    (old.ty == Ty.bool && new.ty == Ty.bool &&
      ((bitOf mode 2 && old.payload == 0 && new.payload != 0) || (bitOf mode 3 && old.payload != 0 && new.payload == 0)))

/-- The event tasks that a change of a slot's effective value triggers. -/
def changeTasks (s : State) (slot : Nat) (old new : TWord) : List Nat :=
  (List.range 64).filter (fun n =>
    let c := (getTask s n).sched
    c.kind == 2 && c.trigger == 1 && c.object == slot && changeCounts c.mode old new)

/-- Make a change to the image and trigger what watches the slots named (R107, R109). -/
def withTriggers (slots : List Nat) (f : State → State) (s : State) : State :=
  let t := f s
  slots.foldl (fun u a =>
    (changeTasks u a (effWord s a) (effWord t a)).foldl
      (fun v n => (fireTrigger n 1 v.dev.now (.mk0 Ty.slotref (BitVec.ofNat 32 a)) v).2) u) t

/-! ### Dispatch (R115 to R117) -/

/-- The pair of a dual task's mask that is its only eligible one. -/
def onlyPair (s : State) (n k : Nat) : Bool :=
  let c := (getTask s n).sched
  (List.range 8).all (fun j =>
    j == k || !(c.engines.getLsbD (2 * j) && c.engines.getLsbD (2 * j + 1) && getPair s j == .joined))

/-- Engine e may be given to task n as far as mask and pair state go (R115, R298): a pair that is SPLITTING still takes a
preempted activation that has no other pair (R316). -/
def mayRun (s : State) (n e : Nat) : Bool :=
  let c := (getTask s n).sched
  if c.dual then e % 2 == 0 && c.engines.getLsbD e && c.engines.getLsbD (e + 1) &&
      (getPair s (e / 2) == .joined ||
        (getPair s (e / 2) == .splitting && (getTask s n).st == .preempted && onlyPair s n (e / 2)))
  else c.engines.getLsbD e && getPair s (e / 2) == .split

/-- The engine, or for a dual task the pair, is free. -/
def engineFree (s : State) (n e : Nat) : Bool :=
  (getEng s e).task.isNone && (!(getTask s n).sched.dual || (getEng s (e + 1)).task.isNone)

/-- The activation is ready: frozen, or preempted, with every page resident (R115, R199). -/
def isReady (s : State) (n : Nat) : Bool :=
  let t := getTask s n
  resident s n &&
    ((t.st == .ready && (t.act.map (·.frozen)).getD false) || t.st == .preempted)

/-- Activation n goes before m (R115): priority, release capture, task number. -/
def goesBefore (s : State) (n m : Nat) : Bool :=
  let a := getTask s n
  let b := getTask s m
  let ra : Nat := (a.act.map (·.releasedAt)).getD 0
  let rb : Nat := (b.act.map (·.releasedAt)).getD 0
  decide (a.sched.priority < b.sched.priority) ||
    (a.sched.priority == b.sched.priority && (decide (ra < rb) || (ra == rb && decide (n < m))))

def insertReady (s : State) (n : Nat) : List Nat → List Nat
  | [] => [n]
  | m :: r => if goesBefore s n m then n :: m :: r else m :: insertReady s n r

/-- The ready activations in the order of R115. -/
def readyList (s : State) : List Nat :=
  (List.range 64).foldl (fun l n => if isReady s n then insertReady s n l else l) []

/-- The lowest-numbered free engine on which task n may run. -/
def freeFor (s : State) (n : Nat) : Option Nat :=
  (List.range 16).find? (fun e => mayRun s n e && engineFree s n e)

/-- The context load, save or restore of a window of w words, in FABRIC ticks (R117). -/
def ctxTicks (w : Nat) : Nat := 5 + (w + 7) / 8

/-- The registers at the first instruction of an activation (R111). -/
def startRegs (a : Activation) : List TWord :=
  [.empty, .mk0 Ty.word (BitVec.ofNat 32 (2 ^ 28 * a.source + 65536 * a.coalesced + a.tick % 65536)), a.arg] ++
    List.replicate 29 .empty

/-- Word i of the context area of a task's entry, by the page map of the running generation (R159, R212). The words hold: 0 the
program counter, 1 to 31 G1 to G31, 32 the engine status, 64 on the window of the local store (log entry 58). -/
def ctxWord (s : State) (d : TaskDef) (i : Nat) : TWord :=
  match s.chg.running with
  | some p => readAt TWord.empty s.mem.data (physOf p (d.context + i))
  | none => TWord.empty

/-- The window of the local store as the context area holds it. -/
def ctxWindow (s : State) (d : TaskDef) : List (Nat × TWord) :=
  (List.range d.window).foldr (fun i l => (i, ctxWord s d (64 + i)) :: l) []

/-- An engine takes an activation: from its start, or from its saved context (R111, R117). -/
def loadEngine (s : State) (n : Nat) (a : Activation) (d : TaskDef) (odd : Bool) (g : Engine) : Engine :=
  match a.ctx with
  | none =>
    { g with
      task := some n, regs := startRegs a, pc := d.entry, markCount := 0, lastMark := 0, lgcCarry := false, lgc := false,
      loc := [], clk := 0, since := s.dev.now, ctxBad := false, retired := 0, compared := 0, issued := none, results := [], buf := [],
      discWrites := [], parked := false, preemptFor := none, assigned := some (s.dev.now, (getTask s n).st, a.ctx, (getTask s n).engine) }
  | some c =>
    let status := (ctxWord s d 32).payload
    { g with
      task := some n, regs := TWord.empty :: (List.range 31).map (fun i => ctxWord s d (i + 1)),
      pc := (ctxWord s d 0).payload.toNat % 2 ^ 28, markCount := bits status.toNat 15 8,
      lastMark := bits status.toNat 7 4, lgcCarry := status.getLsbD 1, lgc := status.getLsbD 0, loc := ctxWindow s d,
      clk := 0, since := s.dev.now + 10 * ctxTicks d.window, ctxBad := c.bad, retired := 0, compared := c.compared, issued := none,
      results := [], buf := [], discWrites := if odd then c.discB else c.discA, parked := false, preemptFor := none,
      assigned := some (s.dev.now, (getTask s n).st, a.ctx, (getTask s n).engine) }

/-- Assign engine e, with its partner for a dual task, to the activation of task n. -/
def assign (n e : Nat) (s : State) : State :=
  match (getTask s n).act, taskDef s n with
  | some a, some d =>
    let s1 := onEng e (loadEngine s n a d false) s
    let s2 := if (getTask s n).sched.dual then onEng (e + 1) (loadEngine s n a d true) s1 else s1
    onAct n (fun a =>
      { a with ctx := none, fabricTicks := a.fabricTicks + (if a.ctx.isSome then ctxTicks d.window else 0) })
      (onTask n (fun t => { t with st := .running, engine := some e }) s2)
  | _, _ => s

/-- Engine e runs a worse victim for task n than engine v does (R116): lowest priority, then latest release capture, then
higher task number. -/
def worseVictim (s : State) (e v : Nat) : Bool :=
  match (getEng s e).task, (getEng s v).task with
  | some n, some m => goesBefore s m n
  | _, _ => false

/-- The activation of task n has executed its end, whose capture is still to come (R18). -/
def hasEnded (s : State) (n : Nat) : Bool := ((getTask s n).act.bind (·.ending)).isSome

/-- The victim that task n preempts: on an engine or pair it may run on, of strictly lower priority, neither stopping already nor
ended. -/
def victimFor (s : State) (n : Nat) : Option Nat :=
  (List.range 16).foldl (fun best e =>
    match (getEng s e).task with
    | none => best
    | some m =>
      if mayRun s n e && (getEng s e).preemptFor.isNone && !hasEnded s m &&
          decide ((getTask s n).sched.priority < (getTask s m).sched.priority) then
        match best with
        | none => some e
        | some b => if worseVictim s e b then some e else some b
      else best) none

/-- A stop of engine e, and of its partner in a pair, at the next instruction boundary is requested for task n. -/
def requestStop (n e : Nat) (s : State) : State :=
  let f := fun (g : Engine) => { g with preemptFor := some n, preemptAt := s.dev.now }
  let s1 := onEng e f s
  if (getTask s n).sched.dual then onEng (e + 1) f s1 else s1

/-- One ready activation takes a free engine, or has a victim stopped for it. -/
def dispatchOne (n : Nat) (s : State) : State :=
  match freeFor s n with
  | some e => assign n e s
  | none =>
    if s.scan.engines.any (fun g => g.preemptFor == some n) then s
    else match victimFor s n with
      | some e => requestStop n e s
      | none => s

/-- Dispatch and preemption (R115, R116). A standby executes nothing (R123). -/
def dispatch (s : State) : State :=
  if s.dev.role = .standby then s else (readyList s).foldl (fun t n => dispatchOne n t) s

/-- An instant lies in the FABRIC tick in progress. -/
def inTick (s : State) (t : Nat) : Bool := t / 10 == s.dev.now / 10

/-- Engine e was assigned in the FABRIC tick in progress and has begun no instruction: the activation is ready again as before. -/
def unassign (e : Nat) (s : State) : State :=
  let g := getEng s e
  match g.task, g.assigned with
  | some n, some (at', st, ctx, last) =>
    if !inTick s at' || g.retired != 0 || g.issued.isSome || (getTask s n).engine != some e then s
    else
      let w := ((taskDef s n).map (·.window)).getD 0
      onTask n (fun t =>
        { t with st := st, engine := last
                 act := t.act.map (fun a =>
                   { a with ctx := ctx, fabricTicks := a.fabricTicks - (if ctx.isSome then ctxTicks w else 0) }) })
        (onScan (fun x =>
          { x with engines := x.engines.map (fun g => if g.task = some n then { g with task := none } else g) }) s)
  | _, _ => s

/-- The decisions of the FABRIC tick in progress are open again: the scheduler decides from the engines that are free at the end
of the tick (R114). -/
def reopen (s : State) : State :=
  if s.dev.role = .standby then s
  else
    (List.range 16).foldl (fun t e => unassign e t)
      (onScan (fun x =>
        { x with engines := x.engines.map (fun g =>
            if g.preemptFor.isSome && inTick s g.preemptAt then { g with preemptFor := none } else g) }) s)

/-! ### Compare-pair states that follow the engines (R316) -/

/-- A PENDING ENGINE_SPLIT or ENGINE_JOIN for pair k. -/
def pairOp (s : State) (op k : Nat) : Option Nat :=
  (s.host.ops.find? (fun e => !e.2.done && e.2.opcode == op && byteAt e.2.req.params 0 == k)).map (·.1)

def setPair (k : Nat) (p : PState) (s : State) : State :=
  let code := match p with
    | .split => 0 | .joining => 1 | .verifying => 2 | .joined => 3 | .splitting => 4
  mirror (.pairState k code) (onScan (fun x => { x with pairs := modifyNth x.pairs k (fun _ => p) }) s)

/-- Every discrepancy counter is 0 (R308). -/
def clearDiscrepancies (s : State) : State :=
  onImg (fun i => { i with disc := [] }) (s.img.disc.foldl (fun t e => mirror (.discrepancy e.1 0) t) s)

/-- Pair k enters JOINED (R308, R316). -/
def joinPair (k : Nat) (s : State) : State := clearDiscrepancies (setPair k .joined s)

/-- The operation of an opcode on pair k is to end at its cancel point: a cancel is registered, or its opcode has become illegal
(R51, R68). -/
def pairCancel (s : State) (op k : Nat) : Option Nat :=
  (pairOp s op k).filter (fun i => ((getOp s i).map (fun o => !o.suspended && (o.cancel == some 0 || o.doomed))).getD false)

/-- The operation of an opcode on pair k stands still in HOLDUP (R68). -/
def pairWaits (s : State) (op k : Nat) : Bool :=
  match (pairOp s op k).bind (getOp s) with
  | some o => o.suspended
  | none => false

/-- No dual activation runs on pair k, and none that is preempted has it as its only eligible pair (R316). -/
def pairClear (s : State) (k : Nat) : Bool :=
  (getEng s (2 * k)).task.isNone && (getEng s (2 * k + 1)).task.isNone &&
    !((List.range 64).any (fun n =>
      let t := getTask s n
      t.st == .preempted && t.sched.dual && t.sched.engines.getLsbD (2 * k) && t.sched.engines.getLsbD (2 * k + 1) &&
        onlyPair s n k))

/-- Pair k is JOINING or SPLITTING: a cancel takes it back, free engines take it on (R316). -/
def pairProgress1 (k : Nat) (s : State) : State :=
  match getPair s k with
  | .joining =>
    match pairCancel s 0x100A k with
    | some i => endOp i stAborted [0, 0] (setPair k .split s)
    | none =>
      if (getEng s (2 * k)).task.isNone && (getEng s (2 * k + 1)).task.isNone && !pairWaits s 0x100A k then
        let s1 := setPair k .verifying s
        match pairOp s 0x100A k with
        | some i => onOp i (fun o => { o with past := true }) s1
        | none => s1
      else s
  | .splitting =>
    match pairCancel s 0x1009 k with
    | some i => endOp i stAborted [3, 0] (joinPair k s)
    | none =>
      if pairClear s k && !pairWaits s 0x1009 k then
        let s1 := setPair k .split s
        match pairOp s 0x1009 k with
        | some i => endOp i stOk [0, 0] s1
        | none => s1
      else s
  | _ => s

/-- The pair states follow; then what is ready is dispatched, from the engines that are free at the end of the tick. -/
def settle (s : State) : State := dispatch <| reopen <| ((List.range 8).foldl (fun t k => pairProgress1 k t) s)

/-! ### Ends and stops of activations -/

/-- The engines that run task n. -/
def enginesOf (s : State) (n : Nat) : List Nat := (List.range 16).filter (fun e => (getEng s e).task == some n)

/-- Engine e is free; what it did not commit is gone (R311). -/
def freeEngine (e : Nat) (s : State) : State :=
  onEng e (fun g =>
    { g with task := none, issued := none, results := [], buf := [], discWrites := [], preemptFor := none,
             freeAt := s.dev.now }) s

/-- Local time of the engine: when it took the activation, plus what it has executed. -/
def engineNow (s : State) (e : Nat) : Nat := max s.dev.now ((getEng s e).since + (getEng s e).clk)

/-- FABRIC ticks for which engine e has been occupied up to a time (R118). -/
def occupied (s : State) (e t : Nat) : Nat := max ((getEng s e).clk / 10) ((t - (getEng s e).since) / 10)

/-- The engine time of the activation of task n, counted up to a time. -/
def engineTime (s : State) (n t : Nat) : Nat :=
  let base := ((getTask s n).act.map (·.fabricTicks)).getD 0
  match enginesOf s n with
  | e :: _ => base + occupied s e t
  | [] => base

/-- IDLE, or SUSPENDED when a suspend is pending, with that flag cleared (R123). -/
def restState (t : Task) : TState := if t.suspendPending then .suspended else .idle

/-- What the activation of task n wrote is what the output latch takes from now on (R18). -/
def publish (n : Nat) (s : State) : State := showWrites (((getTask s n).act.map (·.writes)).getD []) s

/-- The activation of task n is discarded (R123, R130): its engines are free, its task rests. -/
def discard (n : Nat) (s : State) : State :=
  let s1 := publish n ((enginesOf s n).foldl (fun t e => freeEngine e t) s)
  onScan (fun x => { x with freezes := x.freezes.filter (· != n) })
    (onTask n (fun t => { t with st := restState t, suspendPending := false, act := none }) s1)

/-- Every active activation is discarded. -/
def discardAll (s : State) : State :=
  (List.range 64).foldl (fun t n => if (getTask t n).st.active then discard n t else t) s

/-- The device stops releasing: latches are cleared and timers stopped (R113), and no lead load goes on (R207). -/
def stopReleasing (s : State) : State :=
  let s1 := onMem (fun m => { m with loading := [] }) (onDev (fun d => { d with releasing := none }) s)
  (List.range 64).foldl (fun t n =>
    if (getTask t n).latch.isSome || (getTask t n).timer.isSome || (getTask t n).coalesced != 0 then
      onTask n (fun t => { t with latch := none, coalesced := 0, timer := none }) t
    else t) s1

/-- The declared output slots of task n (R159). -/
def declaredOutputs (s : State) (n : Nat) : List Nat :=
  match taskDef s n with
  | some d => d.outputs
  | none => []

/-- The declared output slots of a task take their substitute values (R84). -/
def substituteDeclared (n : Nat) (s : State) : State :=
  withTriggers (declaredOutputs s n) (fun t => (declaredOutputs s n).foldl (fun u a => substitute a u) t) s

/-- The end of the activation of task n is captured at a time, after an engine time in FABRIC ticks (R18, R123, R125): times are
kept, the engines freed, and the task rests or is HALTED with a reason. -/
def captureEnd (n at' : Nat) (halt : Option Nat) (eng : Nat) (s : State) : State :=
  let t := getTask s n
  let eUs := (at' - (t.act.map (·.capture)).getD at') / 6000
  let s1 := (enginesOf s n).foldl (fun u e => freeEngine e u) (advance at' (publish n s))
  let rearm := releases s && t.sched.kind == 2 && t.sched.trigger == 4 && bitOf t.sched.mode 0
  let next := match halt with
    | some _ => TState.halted
    | none => restState t
  let stays := decide (next = .idle)
  let s2 := onTask n (fun t =>
    { t with
      st := next
      suspendPending := false
      act := none
      latch := if stays then t.latch else none
      coalesced := if stays then t.coalesced else 0
      timer := if stays then (if rearm then some (at' + 6000 * t.sched.delay) else t.timer) else none
      eLast := eUs
      eMax := max t.eMax eUs
      engMax := max t.engMax (eng / 600)
      haltReason := halt.getD 0
      lastGood := if halt.isNone then optimeMs s1 else t.lastGood }) s1
  releaseLatched n at' s2

/-- Local time of the next base-tick boundary. -/
def nextBoundary (s : State) : Nat := s.dev.tickAt + 1500000

/-- The activation of task n executes its end or is stopped for good. The TIMEBASE captures it 4 ticks later (R18): within the base
tick in progress at once; otherwise the task stays active, and what it wrote is not shown, until the boundary has passed (R17, R119). -/
def endActivation (n : Nat) (halt : Option Nat) (s : State) : State :=
  let es := enginesOf s n
  let stop := es.foldl (fun m e => max m (engineNow s e)) s.dev.now
  let eng := engineTime s n stop
  if stop + 96 < nextBoundary s then captureEnd n (stop + 96) halt eng s
  else
    onAct n (fun a => { a with ending := some (stop + 96, halt, eng) })
      (if stop < nextBoundary s then es.foldl (fun u e => freeEngine e u) s else s)

/-- The ends whose capture lies in the base tick that has begun (R18). -/
def captureEnds (s : State) : State :=
  (List.range 64).foldl (fun t n =>
    match (getTask t n).act.bind (·.ending) with
    | some (at', halt, eng) => if at' < nextBoundary t then captureEnd n at' halt eng t else t
    | none => t) s

/-- The tasks in the order in which one boundary releases them: priority, then task number (R114). -/
def priorityOrder (s : State) : List Nat :=
  (List.range 64).foldr (fun n l => insertBy s n l) []
where
  insertBy (s : State) (n : Nat) : List Nat → List Nat
    | [] => [n]
    | m :: r =>
      if (getTask s n).sched.priority ≤ (getTask s m).sched.priority then n :: m :: r else m :: insertBy s n r

end Sys2Proof.Machine
end

