-- ==== Sys2Proof/Machine/Pager.lean ====
section
/-! DEFINITION. The code store and the Caravan pager (R191 to R208): residency classes and plans, lead loads, frames and their
reuse, refetches, rebuilds and lost pages. -/

namespace Sys2Proof.Machine

/-! ### Plans (R193, R194) -/

/-- The task is RESIDENT under its scheduling record (R193). -/
def residentClass (c : SchedRec) : Bool :=
  (c.kind == 1 && decide (c.period ≤ 400)) || (c.kind == 2 && !(c.trigger == 4 && decide (100000 ≤ c.delay)))

/-- The task is LEAD (R193). -/
def leadClass (c : SchedRec) : Bool := c.kind != 0 && !residentClass c

/-- Members of a list that are not in another, once each. -/
def without (l m : List Nat) : List Nat := (l.filter (fun x => !m.contains x)).dedup

/-- A plan: the scheduling record and the page list of each task. -/
abbrev Residency := List (SchedRec × List Nat)

/-- The union of the page lists of the RESIDENT tasks (R194). -/
def residentPages (p : Residency) : List Nat := ((p.filter (fun e => residentClass e.1)).flatMap (·.2)).dedup

/-- P of every LEAD task of a plan, against a set of resident pages (R194). -/
def leadCounts (p : Residency) (res : List Nat) : List Nat :=
  (p.filter (fun e => leadClass e.1)).map (fun e => (without e.2 res).length)

def maxOf (l : List Nat) : Nat := l.foldl max 0

/-- need of one generation (R194). -/
def need (p : Residency) : Nat := (residentPages p).length + 16 + maxOf (leadCounts p (residentPages p))

/-- The plan of a program under its default records (R193). -/
def defaultPlan (p : Program) : Residency := p.tasks.map (fun d => (d.sched, d.pages))

/-- The plan of the running generation under the records in force. -/
def planOf (s : State) : Residency := (List.range 64).map (fun n => ((getTask s n).sched, taskPages s n))

/-- A page of one generation shares the frame of another's page with the same number (R205). -/
def sharesPage (a b : Program) (n : Nat) : Bool := codePage a n == codePage b n && decide (4096 * n < a.codeLength)

/-- need of two generations, shared frames counted once (R205). -/
def needBoth (s : State) (run new : Program) : Nat :=
  let own := residentPages (defaultPlan new)
  let res := residentPages (planOf s)
  let extra := own.filter (fun n => !(res.contains n && sharesPage new run n))
  let pRun := leadCounts (planOf s) (res ++ own.filter (sharesPage new run))
  let pNew := leadCounts (defaultPlan new) (own ++ res.filter (sharesPage new run))
  res.length + extra.length + 16 + max (maxOf pRun) (maxOf pNew)

/-! ### Frames -/

/-- A staged or retained page shares the running generation's frame, among the frames of a list (R205). -/
def sharedIn (s : State) (l : List (Nat × Nat)) (f : Nat × Nat) : Bool :=
  match s.chg.running with
  | some run =>
    f.1 != run.gen && l.contains (run.gen, f.2) &&
      (match s.chg.staged, s.chg.retained with
        | some b, _ => f.1 == b.prog.gen && sharesPage b.prog run f.2
        | none, some b => f.1 == b.prog.gen && sharesPage b.prog run f.2
        | none, none => false)
  | none => false

/-- The pages of a list that take a frame of their own. -/
def ownFrames (s : State) (l : List (Nat × Nat)) : List (Nat × Nat) := l.filter (fun f => !sharedIn s l f)

/-- A frame holds a page of the resident set of a generation. -/
def holdsResident (s : State) (f : Frame) : Bool := f.gens.any (fun g => s.mem.resident.contains (g, f.page))

/-- Frames that hold resident-set pages, a shared one once (R205, R210). -/
def residentFrames (s : State) : Nat := (s.mem.frames.filter (fun e => holdsResident s e.2)).length

/-- Size of the lead pool (R194): no program, no pool. -/
def poolSize (s : State) : Nat :=
  if s.chg.running.isNone then 0 else 2048 - (ownFrames s s.mem.resident).length - 16

/-- The frames of the pool that hold a page. -/
def poolFrames (s : State) : List (Nat × Frame) := s.mem.frames.filter (fun e => !holdsResident s e.2)

/-- Lead-pool frames not holding a page (R210). -/
def poolFree (s : State) : Nat := poolSize s - (poolFrames s).length

/-- The pager is active (R207): not in stage 2 or FAULT, and only for initial fills before STOP. -/
def pagerActive (s : State) : Bool :=
  match s.dev.st with
  | .stop | .run | .changing | .halted => true
  | .holdup => s.dev.stage != 2
  | _ => false

/-- Pages of a task's list that are not in the resident set of the plan. -/
def leadPages (s : State) (n : Nat) : List Nat :=
  (taskPages s n).filter (fun p => !s.mem.resident.contains (runningGen s, p))

/-- The lead L of a task in base ticks (R196). -/
def leadTicks (s : State) (n : Nat) : Nat := 1 + ((leadPages s n).length + 399) / 400

/-- Begin a lead load: the task loads while a page of its list is absent (R196). -/
def beginLead (n : Nat) (s : State) : State :=
  if resident s n || s.mem.loading.contains n then s else onMem (fun m => { m with loading := insertNat m.loading n }) s

/-- The lead load of a timer task, when its timer has at most L base ticks left (R196). -/
def timerLead (n : Nat) (s : State) : State :=
  let t := getTask s n
  match t.timer with
  | some at' =>
    if leadClass t.sched && decide (at' ≤ s.dev.now + 1500000 * leadTicks s n) then beginLead n s else s
  | none => s

/-- Lead loads are made: while the device releases, and at a standby as though it released the tasks that the delta shows (R207,
R208). -/
def leadsRun (s : State) : Bool :=
  releases s || (s.dev.role == .standby && (effState s == .run || effState s == .changing))

/-- The lead loads that begin at the boundary of the tick in progress (R196). -/
def leadLoads (s : State) : State :=
  if !pagerActive s then s
  else
    (List.range 64).foldl (fun u n =>
      let c := (getTask u n).sched
      if !leadClass c then u
      else if c.kind = 1 then
        if leadsRun u && (u.dev.tick + leadTicks u n) % c.period == c.offset then beginLead n u else u
      else timerLead n u) s

/-- Base tick in which the next release of a LEAD task falls due; none for a timer that does not run. -/
def nextDue (s : State) (n : Nat) : Option Nat :=
  let t := getTask s n
  if t.sched.kind = 1 then
    let p := max 1 t.sched.period
    let k := s.dev.tick + 1
    some (k + (t.sched.offset + p - k % p) % p)
  else t.timer.map (fun at' => s.dev.tick + (at' - s.dev.tickAt + 1499999) / 1500000)

/-- Base tick at which the next lead load of a task begins: the first boundary with at most L base ticks left (R196, R198). -/
def nextLead (s : State) (n : Nat) : Option Nat := (nextDue s n).map (fun k => k - leadTicks s n)

/-- The next lead load of task n begins later than that of m; a timer that does not run is latest, ties go to the higher
number (R198). -/
def laterLead (s : State) (n m : Nat) : Bool :=
  match nextLead s n, nextLead s m with
  | none, none => decide (m < n)
  | none, some _ => true
  | some _, none => false
  | some a, some b => decide (b < a) || (a == b && decide (m < n))

/-- A page that no eviction may take: of a task that is active or loads (R198). -/
def protectedPage (s : State) (page : Nat) : Bool :=
  (List.range 64).any (fun n =>
    ((getTask s n).st.active || s.mem.loading.contains n) && (taskPages s n).contains page)

/-- The frames of an idle LEAD task that may be evicted, in the order of its page list. -/
def evictable (s : State) (n : Nat) : List Nat :=
  (taskPages s n).filterMap (fun p =>
    if protectedPage s p then none
    else ((poolFrames s).find? (fun e => frameHolds e.2 (runningGen s) p)).map (·.1))

/-- A page of the list of a LEAD task. -/
def leadListed (s : State) (page : Nat) : Bool :=
  (List.range 64).any (fun n => leadClass (getTask s n).sched && (taskPages s n).contains page)

/-- Frames of the pool whose page no LEAD task of the running generation lists any more. -/
def unlistedFrames (s : State) : List Nat :=
  ((poolFrames s).filter (fun e =>
    e.2.gens.contains (runningGen s) && !leadListed s e.2.page && !protectedPage s e.2.page)).map (·.1)

/-- Frames of the pool that hold a page of the retained generation alone. -/
def formerFrames (s : State) : List Nat := ((poolFrames s).filter (fun e => !e.2.gens.contains (runningGen s))).map (·.1)

/-- The idle LEAD task whose pages are evicted first: its next lead load begins latest (R198). -/
def evictTask (s : State) : Option Nat :=
  (List.range 64).foldl (fun best n =>
    if leadClass (getTask s n).sched && !(evictable s n).isEmpty then
      match best with
      | none => some n
      | some b => if laterLead s n b then some n else some b
    else best) none

/-- The frame to evict, if one may be evicted (R198). DESIGN CHOICE (log entry 56): frames that no LEAD task lists go first, then
those of the task that R198 names, in the order of its page list, and the former generation's last. -/
def evictPage (s : State) : Option Nat :=
  match unlistedFrames s, (evictTask s).bind (fun n => (evictable s n).head?), formerFrames s with
  | i :: _, _, _ => some i
  | [], some i, _ => some i
  | [], none, i :: _ => some i
  | [], none, [] => none

/-! ### Fills -/

/-- Pages of a list that are to be filled: absent, and neither bad nor lost. -/
def absentPages (s : State) (gen : Nat) (l : List Nat) : List (Nat × Nat) :=
  (l.filter (fun p =>
    !stored s gen p && !s.mem.badPages.contains (gen, p) && !s.mem.lostPages.contains (gen, p))).map (fun p => (gen, p))

/-- The device runs the program: releases are HELD and lead loads are made (R207). -/
def pagerRuns (s : State) : Bool := effState s == .run || effState s == .changing

/-- The tasks with a lead load in progress in the order of R197: due release time, priority, task number. -/
def leadOrder (s : State) : List Nat :=
  ((priorityOrder s).filter (fun n => s.mem.loading.contains n)).foldl (fun l n => insertDue s n l) []
where
  insertDue (s : State) (n : Nat) : List Nat → List Nat
    | [] => [n]
    | m :: r => if (nextDue s n).getD 0 < (nextDue s m).getD 0 then n :: m :: r else m :: insertDue s n r

/-- The absent pages of each request for frames of the pool, in the order in which the pager serves them: HELD and PREEMPTED
activations, then lead loads (R197). -/
def poolRequests (s : State) : List (List (Nat × Nat)) :=
  if !pagerRuns s then []
  else
    (((priorityOrder s).filter (fun n => (getTask s n).st == .held || (getTask s n).st == .preempted)) ++ leadOrder s).map
      (fun n => absentPages s (runningGen s) (taskPages s n))

/-- The pages of the resident sets that are still to be filled (R195, R204). -/
def residentRequests (s : State) : List (Nat × Nat) :=
  s.mem.resident.flatMap (fun f => absentPages s f.1 [f.2])

/-- A page can be placed without an eviction: a frame holds its bytes already, or a frame is free for it, where the reserve of 16
frames stays free for rebuilds (R194, R205). -/
def frameLeft (s : State) (gen page : Nat) : Bool :=
  (match progOf s gen with
    | some p => (twinFrame s page (codePage p page)).isSome
    | none => false) ||
    (if s.mem.resident.contains (gen, page) then decide (s.mem.frames.length < 2032) else decide (0 < poolFree s))

/-- A page can be placed. -/
def canPlace (s : State) (f : Nat × Nat) : Bool := frameLeft s f.1 f.2 || (evictPage s).isSome

/-- The pages of which the pager loads one next: those of the first request that can be served, and after all of them the initial
fills (R197). -/
def nextFills (s : State) : List (Nat × Nat) :=
  match (poolRequests s).find? (fun l => l.any (canPlace s)) with
  | some l => l
  | none => residentRequests s

/-- HELD tasks whose pages are all resident become READY, lead loads that are complete end (R123, R196). -/
def afterFill (s : State) : State :=
  let s1 := (List.range 64).foldl (fun u n =>
    if (getTask u n).st == .held && resident u n then onTask n (fun t => { t with st := .ready }) u else u) s
  settle (onMem (fun m => { m with loading := m.loading.filter (fun n => !resident s1 n) }) s1)

/-- A page is loaded into a free frame, or into one whose page may be evicted (R198). -/
def fillPage (gen page : Nat) (s : State) : State :=
  if frameLeft s gen page then putFrame gen page s
  else
    match evictPage s with
    | some i => putFrame gen page (dropFrame i s)
    | none => s

/-- The end of one page load (R196 to R199). -/
def execPageFill (gen page : Nat) (s : State) : Out :=
  finish s (if pagerActive s && (nextFills s).contains (gen, page) then afterFill (fillPage gen page s) else s)

/-! ### Frames of a generation that goes (R206) -/

/-- Free the frames that only a generation uses, its resident set and its line CRC table. -/
def dropGeneration (gen : Nat) : State → State :=
  onMem (fun m =>
    { m with
      frames := (m.frames.map (fun e => (e.1, { e.2 with gens := e.2.gens.filter (· != gen) }))).filter (fun e => !e.2.gens.isEmpty)
      resident := m.resident.filter (fun f => f.1 != gen)
      tables := erase m.tables gen
      spareMap := m.spareMap.filter (fun e => e.1.1 != gen)
      badPages := m.badPages.filter (fun f => f.1 != gen)
      lostPages := m.lostPages.filter (fun f => f.1 != gen) })

/-- The line CRC table of a generation is made, and its resident set loaded, each line checked (R192, R195, R205). -/
def loadResident (p : Program) (pages : List Nat) (s : State) : State :=
  pages.foldl (fun t n => fillPage p.gen n t)
    (onMem (fun m => { m with resident := m.resident.filter (fun f => f.1 != p.gen) ++ pages.map (fun n => (p.gen, n)) })
      (keepTable p s))

/-- The plan of the running generation is made anew from the records in force (R193). -/
def replan (s : State) : State :=
  let g := runningGen s
  onMem (fun m =>
    { m with resident := m.resident.filter (fun f => f.1 != g) ++ (residentPages (planOf s)).map (fun p => (g, p)) }) s

end Sys2Proof.Machine
end

