-- ==== Sys2Proof/Machine/ProgramImage.lean ====
section
/-! DEFINITION. Program images (R126, R158 to R162), scheduling records (R105 to R107) and the checks that PROGRAM_LOAD and
CHANGE_STAGE make on them. -/

namespace Sys2Proof.Machine

/-! ### Scheduling records (R105, R106, R107) -/

/-- The record of 32 bytes, without its task number. -/
def parseSched (b : Bytes) : SchedRec :=
  { kind := byteAt b 1, priority := byteAt b 2 % 16, elastic := bitOf (byteAt b 3) 0, dual := bitOf (byteAt b 3) 1,
    startSuspended := bitOf (byteAt b 3) 2, period := le b 4 4, offset := le b 8 4, budget := le b 12 4,
    budgetAction := byteAt b 16, engines := BitVec.ofNat 16 (le b 18 2), trigger := byteAt b 20, mode := byteAt b 21,
    object := le b 24 4, delay := le b 28 4 }

/-- A local channel whose input is in use (R107): a flexible channel in mode 1, or the readback of a guarded one. -/
def inputInUse (s : State) (c : Nat) : Bool :=
  decide (c < 32) && (decide (24 ≤ c) || (nth (Channel.reset 0) s.fio.ch c).mode == 1)

/-- Mode and object fit the trigger of an event task (R107). -/
def triggerOk (s : State) (descs : List (Nat × SlotDesc)) (c : SchedRec) : Bool :=
  match c.trigger with
  | 0 => c.mode == 0 && c.object == 0
  | 1 =>
    match look descs c.object with
    | some d => decide (0 < c.mode ∧ c.mode < 16) && (decide (c.mode < 4) || d.ty == Ty.bool)
    | none => false
  | 2 => decide (0 < c.mode ∧ c.mode < 4) && inputInUse s c.object
  | 3 => decide (c.mode < 2) && (if c.mode = 1 then c.object == 0 else decide (c.object < 1024))
  | 4 => decide (c.mode < 2) && c.object == 0
  | _ => false

/-- A mask holds both bits of some pair. -/
def maskHasPair (m : BitVec 16) : Bool := (List.range 8).any (fun k => m.getLsbD (2 * k) && m.getLsbD (2 * k + 1))

/-- A scheduling record that R106 accepts. -/
def schedOk (s : State) (descs : List (Nat × SlotDesc)) (b : Bytes) : Bool :=
  let c := parseSched b
  decide (byteAt b 0 < 64) &&
    (if c.kind = 0 then zeroFrom b 2 32
    else
      decide (c.kind ≤ 2) && decide (byteAt b 2 < 16) && decide (byteAt b 3 < 8) && byteAt b 17 == 0 && le b 22 2 == 0 &&
        decide (1 ≤ c.budget ∧ c.budget ≤ 10000000) && decide (c.budgetAction ≤ 2) && c.engines != 0 &&
        (!c.dual || maskHasPair c.engines) && decide (c.period ≤ 40000) &&
        (if c.kind = 1 then
          decide (1 ≤ c.period ∧ c.offset < c.period) && c.trigger == 0 && c.mode == 0 && c.object == 0 && c.delay == 0
        else
          c.offset == 0 && triggerOk s descs c &&
            (if c.trigger = 4 then decide (1 ≤ c.delay ∧ c.delay ≤ 10000000) else c.delay == 0)))

/-! ### The scatter list (R126) -/

/-- The entries of a scatter list. -/
def scatterEntries (r : Request) : List Bytes := pieces 16 (r.payload.length / 16 + 1) r.payload

/-- The used entries are well formed and their lengths reach the total exactly; what follows them is 0 (R126). -/
def scatterOk (total : Nat) : List Bytes → Bool
  | [] => total == 0
  | e :: r =>
    if total = 0 then e.all (· == 0) && scatterOk 0 r
    else
      let n := le e 8 4
      le e 0 8 % 64 == 0 && decide (le e 0 8 < 2 ^ 48) && n % 64 == 0 && decide (64 ≤ n ∧ n ≤ 4194304) &&
        le e 12 4 == 0 && decide (n ≤ total) && scatterOk (total - n) r

/-! ### The header (R158) -/

/-- A structure of n bytes at an offset lies before sig_offset on a multiple of 8. -/
def placed (sig off n : Nat) : Bool := off % 8 == 0 && decide (off + n ≤ sig)

/-- The records that follow one another from an offset lie wholly before sig_offset; a record's length may depend on its first 8
bytes (R158, R160, R161). -/
def recordsFit (size : Bytes → Nat → Nat) (b : Bytes) (sig : Nat) : Nat → Nat → Bool
  | 0, off => decide (off ≤ sig)
  | k + 1, off => decide (off + 8 ≤ sig) && recordsFit size b sig k (off + size b off)

/-- Length of a page record (R160): a literal page follows kind 0. -/
def pageRecordSize (b : Bytes) (off : Nat) : Nat := if byteAt b (off + 2) = 0 then 4104 else 8

/-- Length of an initial data record (R161). -/
def initRecordSize (b : Bytes) (off : Nat) : Nat := 8 + 8 * le b (off + 4) 4

/-- Every rule of R158 but the signature. -/
def headerOk (b : Bytes) : Bool :=
  let sig := le b 56 4
  decide (256 ≤ b.length) && slice b 0 4 == [0x53, 0x4E, 0x43, 0x50] && le b 4 2 == 1 && le b 6 2 == 256 &&
    byteAt b 8 == 1 && decide (byteAt b 9 ≤ 3) && decide (byteAt b 11 < 4) && byteAt b 11 % 2 == 1 &&
    decide (byteAt b 12 < 64) && zeroFrom b 13 16 && le b 16 4 % 4096 == 0 &&
    decide (4096 ≤ le b 16 4 ∧ le b 16 4 ≤ 268435456) && decide (1 ≤ le b 20 4 ∧ le b 20 4 ≤ 4194304) &&
    decide (le b 24 4 ≤ le b 20 4 ∧ le b 24 4 ≤ 2097152) && decide (1 ≤ le b 36 4 ∧ le b 36 4 ≤ 65536) &&
    decide (le b 44 4 ≤ 262144) && sig % 8 == 0 && sig + 96 == b.length && placed sig (le b 28 4) 4096 &&
    placed sig (le b 32 4) (8 * le b 36 4) && placed sig (le b 40 4) (8 * le b 44 4) &&
    placed sig (le b 48 4) (8 * le b 52 4) && zeroFrom b 60 64 && zeroFrom b 128 256 &&
    recordsFit pageRecordSize b sig (le b 36 4) (le b 32 4) && recordsFit initRecordSize b sig (le b 52 4) (le b 48 4)

/-- The signature block verifies against a root key slot (R158, R460); in BLANK it is not required (R459). -/
def signedOk (s : State) (slot sig : Nat) (b : Bytes) : Bool :=
  !enforced s || (decide (slot < 4) && storeVerify s 0 slot (sha384 (b.take sig)) (slice b sig 96))

/-! ### The parts (R159 to R161) -/

/-- One page record (R160): page number and bytes, and the offset behind it. -/
def pageRecord (b : Bytes) (sig pages off : Nat) (got : List (Nat × Bytes)) : Option ((Nat × Bytes) × Nat) :=
  let n := le b off 2
  let kind := byteAt b (off + 2)
  if decide (sig < off + 8) || decide (pages ≤ n) || (look got n).isSome then none
  else if kind = 0 then
    if zeroFrom b (off + 3) (off + 8) && decide (off + 4104 ≤ sig) then some ((n, slice b (off + 8) 4096), off + 4104) else none
  else if kind = 1 && byteAt b (off + 3) == 0 && le b (off + 6) 2 == 0 then
    (look got (le b (off + 4) 2)).map (fun c => ((n, c), off + 8))
  else none

/-- Page records one after the other. `lit` holds the literal pages, which kind 1 may copy. -/
def pageRecords (b : Bytes) (sig pages : Nat) : Nat → Nat → List (Nat × Bytes) → List (Nat × Bytes) →
    Option (List (Nat × Bytes))
  | 0, _, _, all => some all
  | k + 1, off, lit, all =>
    match pageRecord b sig pages off lit with
    | none => none
    | some (e, next) =>
      if (look all e.1).isSome then none
      else pageRecords b sig pages k next (if byteAt b (off + 2) = 0 then insertAt lit e.1 e.2 else lit) (insertAt all e.1 e.2)

/-- Initial data records (R161): the words of one record. -/
def initWords (b : Bytes) (off : Nat) : Nat → Nat → List (Nat × TWord)
  | 0, _ => []
  | k + 1, a => (a, entryWord (slice b off 8)) :: initWords b (off + 8) k (a + 1)

/-- The entries of a record are well formed. -/
def initOk (b : Bytes) (off n : Nat) : Bool :=
  (List.range n).all (fun i =>
    le b (off + 8 * i + 5) 3 == 0 && hostWord (entryWord (slice b (off + 8 * i) 8)))

/-- Initial data records one after the other. -/
def initRecords (b : Bytes) (sig words : Nat) : Nat → Nat → List (Nat × TWord) → Option (List (Nat × TWord))
  | 0, _, acc => some acc
  | k + 1, off, acc =>
    let a := le b off 4
    let n := le b (off + 4) 4
    if decide (sig < off + 8 + 8 * n) || decide (words < a + n) || !initOk b (off + 8) n then none
    else initRecords b sig words k (off + 8 + 8 * n)
      (initWords b (off + 8) n a |>.foldl (fun l e => insertAt l e.1 e.2) acc)

/-- Rising numbers without repeats. -/
def rising : List Nat → Bool
  | a :: b :: r => decide (a < b) && rising (b :: r)
  | _ => true

/-- A task entry of 64 bytes at an offset (R159), without its checks. -/
def parseTask (b : Bytes) (off : Nat) : TaskDef :=
  let e := slice b off 64
  { sched := parseSched e, entry := le e 32 4,
    pages := (List.range (le e 40 2)).map (fun i => le b (le e 36 4 + 2 * i) 2), window := le e 42 2,
    context := le e 44 4, outputs := (List.range (le e 52 4)).map (fun i => le b (le e 48 4 + 4 * i) 4) }

/-- The rules of R159 on a task entry. -/
def taskEntryOk (s : State) (descs : List (Nat × SlotDesc)) (b : Bytes) (n : Nat) : Bool :=
  let sig := le b 56 4
  let code := le b 16 4
  let off := le b 28 4 + 64 * n
  let e := slice b off 64
  let d := parseTask b off
  schedOk s descs (e.take 32) && byteAt e 0 == n &&
    (if d.sched.kind = 0 then zeroFrom e 2 64
    else
      placed sig (le e 36 4) (2 * le e 40 2) && decide (1 ≤ le e 40 2 ∧ le e 40 2 ≤ 2048) &&
        d.pages.all (fun p => decide (4096 * p < code)) && rising d.pages && d.entry % 2 == 0 && decide (d.entry < code) &&
        d.pages.contains (d.entry / 4096) && decide (d.window ≤ 16384) && decide (le b 20 4 ≤ d.context) &&
        decide (d.context + 64 + d.window ≤ 4194304) && decide (le e 52 4 ≤ 262144) &&
        placed sig (le e 48 4) (4 * le e 52 4) && d.outputs.all (fun o => decide (o < slotCount)) && zeroFrom e 56 64)

/-- No two context areas overlap (R159). -/
def contextsApart (ds : List TaskDef) : Bool :=
  let l := (ds.filter (fun d => d.sched.kind != 0)).map (fun d => (d.context, 64 + d.window))
  (l.zipIdx).all (fun x => (l.zipIdx).all (fun y =>
    x.2 == y.2 || decide (x.1.1 + x.1.2 ≤ y.1.1) || decide (y.1.1 + y.1.2 ≤ x.1.1)))

/-- The slot references (R161): slot, direction, declared type. -/
def slotRefs (b : Bytes) : List (Nat × Nat × Nat) :=
  (List.range (le b 44 4)).map (fun i =>
    let e := slice b (le b 40 4 + 8 * i) 8
    (le e 0 4, byteAt e 4, byteAt e 5))

def slotRefsOk (b : Bytes) : Bool :=
  (List.range (le b 44 4)).all (fun i =>
    let e := slice b (le b 40 4 + 8 * i) 8
    decide (le e 0 4 < slotCount) && decide (1 ≤ byteAt e 4 ∧ byteAt e 4 ≤ 3) && decide (byteAt e 5 ≤ 0xA) && le e 6 2 == 0)

/-- Address pages of a page map that reaches the end of the highest context area (R212). -/
def mapLength (words : Nat) (ds : List TaskDef) : Nat :=
  let top := (ds.filter (fun d => d.sched.kind != 0)).foldl (fun m d => max m (d.context + 64 + d.window)) words
  (top + 1023) / 1024

/-- The generation that an image describes; none for a structural error (R159 to R161). The page map is the identity that
PROGRAM_LOAD gives (R212). -/
def parseProgram (s : State) (descs : List (Nat × SlotDesc)) (gen slot : Nat) (b : Bytes) : Option Program :=
  let sig := le b 56 4
  let ds := (List.range 64).map (fun n => parseTask b (le b 28 4 + 64 * n))
  match pageRecords b sig (le b 16 4 / 4096) (le b 36 4) (le b 32 4) [] [],
      initRecords b sig (le b 20 4) (le b 52 4) (le b 48 4) [] with
  | some code, some init =>
    if (List.range 64).all (taskEntryOk s descs b) && contextsApart ds && slotRefsOk b then
      some { gen := gen, keySlot := slot, image := b, codeLength := le b 16 4, dataWords := le b 20 4,
             retentiveWords := le b 24 4, trapPolicy := b8 (byteAt b 12), layoutHash := slice b 64 48,
             buildId := slice b 112 16, tasks := ds, code := code, slotRefs := slotRefs b, init := init,
             pageMap := List.range (mapLength (le b 20 4) ds) }
    else none
  | _, _ => none

/-- Every slot the image refers to is allocated as it declares, and every declared output is an output slot (R127 step 4). -/
def refsOk (descs : List (Nat × SlotDesc)) (p : Program) : Bool :=
  p.slotRefs.all (fun e =>
    match look descs e.1 with
    | some d => d.dir == e.2.1 && d.ty.toNat == e.2.2
    | none => false) &&
  p.tasks.all (fun d => d.outputs.all (fun o =>
    match look descs o with
    | some x => x.dir == 2
    | none => false))

/-- The slots a generation refers to (R75). -/
def refsOf (p : Program) : List Nat := p.slotRefs.map (·.1) ++ p.tasks.flatMap (·.outputs)

/-- An enabled task with no eligible engine in the mode it needs (R129): the first such task. -/
def noEngine (s : State) (scheds : List SchedRec) : Option Nat :=
  let split := fun k => getPair s k == .split
  let joined := fun k => getPair s k == .joined
  (scheds.zipIdx.find? (fun e =>
    e.1.kind != 0 &&
      !(if e.1.dual then (List.range 8).any (fun k => e.1.engines.getLsbD (2 * k) && e.1.engines.getLsbD (2 * k + 1) && joined k)
        else (List.range 16).any (fun i => e.1.engines.getLsbD i && split (i / 2))))).map (·.2)

/-- ref_run and ref_staged of every descriptor (R75, R220). -/
def setRefs (s : State) : State :=
  let dests := fun (b : Beside) => b.map.actions.flatMap (fun a => match a with
    | .move o _ dst => (List.range (2 ^ o)).map (dst + ·)
    | _ => [])
  let run := (match s.chg.running with
    | some p => refsOf p
    | none => []) ++ (match s.chg.retained with
    | some b => refsOf b.prog
    | none => [])
  let staged := match s.chg.staged with
    | some b => refsOf b.prog ++ dests b
    | none => []
  onImg (fun i =>
    { i with descs := i.descs.map (fun e => (e.1, { e.2 with refRun := run.contains e.1, refStaged := staged.contains e.1 })) }) s

end Sys2Proof.Machine
end

