-- ==== Sys2Proof/Machine/Alu.lean ====
section
/-! DEFINITION. The operations of Synna Code on operands, without engines: arithmetic (R168 to R172), comparison (R173), bits
(R174), types and conversion (R176 to R178). -/

namespace Sys2Proof.Machine

/-! ### Arithmetic -/

def addRows : List Row :=
  [sameRow Ty.int, sameRow Ty.word, sameRow Ty.real, sameRow Ty.duration, (Ty.stamp, Ty.int, Ty.stamp),
    (Ty.dataref, Ty.int, Ty.dataref), (Ty.slotref, Ty.int, Ty.slotref)]
def subRows : List Row := addRows ++ [(Ty.stamp, Ty.stamp, Ty.int)]
def mulRows : List Row := [sameRow Ty.int, sameRow Ty.word, sameRow Ty.real, (Ty.duration, Ty.int, Ty.duration)]
def modRows : List Row := [sameRow Ty.int, sameRow Ty.word]
def minRows : List Row := [sameRow Ty.int, sameRow Ty.word, sameRow Ty.real, sameRow Ty.duration]
def realRows : List Row := [sameRow Ty.real]

def aluAdd (lgc : Bool) (a b : TWord) : Res :=
  withRows addRows a b (fun t =>
    if t = Ty.real then real (fAdd a.payload b.payload) else exact lgc t (numOf t a.payload + numOf b.ty b.payload))

def aluSub (lgc : Bool) (a b : TWord) : Res :=
  withRows subRows a b (fun t =>
    if t = Ty.real then real (fSub a.payload b.payload)
    else if a.ty = Ty.stamp ∧ b.ty = Ty.stamp then
      exact lgc t ((a.payload - b.payload).toInt)
    else exact lgc t (numOf t a.payload - numOf b.ty b.payload))

def aluMul (lgc : Bool) (a b : TWord) : Res :=
  withRows mulRows a b (fun t =>
    if t = Ty.real then real (fMul a.payload b.payload) else exact lgc t (numOf t a.payload * numOf b.ty b.payload))

/-- What MARK writes for DIVIDE: by the sign of the dividend (R150). -/
def divideMark (x : Int) : Word := if 0 < x then 0x7FFFFFFF#32 else if x < 0 then 0x80000000#32 else 0

def aluDiv (lgc : Bool) (a b : TWord) : Res :=
  withRows mulRows a b (fun t =>
    if t = Ty.real then real (fDiv a.payload b.payload)
    else
      let x := numOf t a.payload
      let y := numOf b.ty b.payload
      if y = 0 then .fail cDivide t (divideMark x) else exact lgc t (x.tdiv y))

def aluMod (lgc : Bool) (a b : TWord) : Res :=
  withRows modRows a b (fun t =>
    let x := numOf t a.payload
    let y := numOf b.ty b.payload
    if y = 0 then .fail cDivide t (divideMark x) else exact lgc t (x.tmod y))

def aluNeg (lgc : Bool) (a : TWord) : Res :=
  withTypes [Ty.int, Ty.real, Ty.duration] a
    (if a.ty = Ty.real then real (if fIsNan a.payload then none else some (fNeg a.payload))
      else exact lgc a.ty (-a.payload.toInt))

def aluAbs (lgc : Bool) (a : TWord) : Res :=
  withTypes [Ty.int, Ty.real, Ty.duration] a
    (if a.ty = Ty.real then real (if fIsNan a.payload then none else some (fAbs a.payload))
      else exact lgc a.ty (a.payload.toInt.natAbs : Int))

/-- MIN and MAX on payloads of one type; none for a NaN. -/
def pickMin (t : BitVec 4) (x y : Word) : Option Word :=
  if t = Ty.real then (if fIsNan x || fIsNan y then none else some (fMin x y))
  else some (if numOf t x ≤ numOf t y then x else y)

def pickMax (t : BitVec 4) (x y : Word) : Option Word :=
  if t = Ty.real then (if fIsNan x || fIsNan y then none else some (fMax x y))
  else some (if numOf t y ≤ numOf t x then x else y)

/-- A picked payload as a result of its type, with legacy reduction (R172). -/
def picked (lgc : Bool) (t : BitVec 4) (x : Option Word) : Res :=
  if t = Ty.real then real x else exact lgc t (numOf t (x.getD 0))

def aluMin (lgc : Bool) (a b : TWord) : Res :=
  withRows minRows a b (fun t => picked lgc t (pickMin t a.payload b.payload))

def aluMax (lgc : Bool) (a b : TWord) : Res :=
  withRows minRows a b (fun t => picked lgc t (pickMax t a.payload b.payload))

/-- MIN(MAX(d, a), b) (R168); the nominal type looks at a, then b, then d (log entry 10). -/
def aluLim (lgc : Bool) (d a b : TWord) : Res :=
  let nom :=
    if minRows.any (fun r => r.1 == a.ty) || minRows.any (fun r => r.1 == b.ty) then nominal minRows a.ty b.ty
    else nominal minRows d.ty d.ty
  if a.ty = Ty.empty ∨ b.ty = Ty.empty ∨ d.ty = Ty.empty then .fail cEmpty nom 0
  else match rowResult minRows a.ty b.ty with
    | some t =>
      if d.ty ≠ a.ty then .fail cType nom 0
      else picked lgc t ((pickMax t d.payload a.payload).bind (fun x => pickMin t x b.payload))
    | none => .fail cType nom 0

/-- ADDI: the immediate counts in the unit of a (R168). -/
def aluAddi (lgc : Bool) (imm : Word) (a : TWord) : Res :=
  withTypes [Ty.int, Ty.word, Ty.duration, Ty.stamp, Ty.dataref, Ty.slotref] a
    (exact lgc a.ty (numOf a.ty a.payload + imm.toInt))

def aluMuli (lgc : Bool) (imm : Word) (a : TWord) : Res :=
  withTypes [Ty.int] a (exact lgc Ty.int (a.payload.toInt * imm.toInt))

/-- An operation on one REAL. -/
def aluReal1 (f : Word → Option Word) (a : TWord) : Res := withTypes [Ty.real] a (real (f a.payload))

def aluAtan2 (a b : TWord) : Res := withRows realRows a b (fun _ => real (fAtan2 a.payload b.payload))

/-! ### Comparison (R173) -/

/-- The order of two payloads of one type: below, equal, above; none where neither holds. -/
def order (t : BitVec 4) (x y : Word) : Option Ordering :=
  if t = Ty.real then (if fIsNan x || fIsNan y then none else some (compare (fKey x) (fKey y)))
  else if t = Ty.stamp then
    let d := (x - y).toNat
    if d = 0 then some .eq else if d < 2 ^ 31 then some .gt else if d = 2 ^ 31 then none else some .lt
  else some (compare (numOf t x) (numOf t y))

/-- EQ and NE take every type but EMPTY and POISON; the orderings take INT, DURATION, WORD, REAL and STAMP. -/
def eqTypes : List (BitVec 4) :=
  [Ty.bool, Ty.int, Ty.word, Ty.real, Ty.duration, Ty.stamp, Ty.slotref, Ty.coderef, Ty.dataref, Ty.sample16]
def ordTypes : List (BitVec 4) := [Ty.int, Ty.word, Ty.real, Ty.duration, Ty.stamp]

def boolRes (c : Bool) : Res := .ok Ty.bool (if c then 1 else 0) false

/-- A comparison: EMPTY, TYPE, or BOOL (R173, R165). -/
def aluCompare (types : List (BitVec 4)) (test : Option Ordering → Bool) (a b : TWord) : Res :=
  if a.ty = Ty.empty ∨ b.ty = Ty.empty then .fail cEmpty Ty.bool 0
  else if a.ty ≠ b.ty ∨ !types.contains a.ty then .fail cType Ty.bool 0
  else boolRes (test (order a.ty a.payload b.payload))

def tEq (o : Option Ordering) : Bool := o == some .eq
def tNe (o : Option Ordering) : Bool := o != some .eq
def tLt (o : Option Ordering) : Bool := o == some .lt
def tLe (o : Option Ordering) : Bool := o == some .lt || o == some .eq
def tGt (o : Option Ordering) : Bool := o == some .gt
def tGe (o : Option Ordering) : Bool := o == some .gt || o == some .eq

def aluUnord (a b : TWord) : Res := aluCompare [Ty.real] (· == none) a b

/-- CEQI, CLTI, CGTI: INT and DURATION against the immediate. -/
def aluCompareImm (test : Option Ordering → Bool) (imm : Word) (a : TWord) : Res :=
  withFixed [Ty.int, Ty.duration] Ty.bool a (boolRes (test (some (compare a.payload.toInt imm.toInt))))

/-! ### Bits (R174) -/

def logicRows : List Row := [sameRow Ty.bool, sameRow Ty.word]

def aluLogic (f : Word → Word → Word) (a b : TWord) : Res :=
  withRows logicRows a b (fun t =>
    .ok t (if t = Ty.bool then f a.payload b.payload &&& 1 else f a.payload b.payload) false)

def aluNot (a : TWord) : Res :=
  withTypes [Ty.bool, Ty.word] a (.ok a.ty (if a.ty = Ty.bool then ~~~a.payload &&& 1 else ~~~a.payload) false)

/-- A count or bit index: INT or WORD. -/
def countOk (b : TWord) : Bool := b.ty == Ty.int || b.ty == Ty.word

/-- The low five bits of a count. -/
def count5 (b : TWord) : Nat := b.payload.toNat % 32

/-- An operation on a value of type ta with a count (R174): EMPTY before TYPE. -/
def withCount (ta tr : BitVec 4) (a b : TWord) (f : Nat → Res) : Res :=
  if a.ty = Ty.empty ∨ b.ty = Ty.empty then .fail cEmpty tr 0
  else if a.ty ≠ ta ∨ !countOk b then .fail cType tr 0
  else f (count5 b)

/-- The exact value of a left shift decides the legacy range flag; without legacy mode the shift keeps 32 bits (R154, R174). -/
def shifted (lgc : Bool) (t : BitVec 4) (x : Int) (p : Word) : Res := if lgc then exact true t x else .ok t p false

def aluShl (lgc : Bool) (a b : TWord) : Res :=
  withCount Ty.word Ty.word a b (fun n => shifted lgc Ty.word ((a.payload.toNat * 2 ^ n : Nat) : Int) (a.payload <<< n))

def aluShr (lgc : Bool) (a b : TWord) : Res :=
  withCount Ty.word Ty.word a b (fun n => shifted lgc Ty.word ((a.payload >>> n).toNat : Int) (a.payload >>> n))

def aluSar (lgc : Bool) (a b : TWord) : Res :=
  withCount Ty.int Ty.int a b (fun n => shifted lgc Ty.int ((a.payload.sshiftRight n).toInt) (a.payload.sshiftRight n))

def aluRol (lgc : Bool) (a b : TWord) : Res :=
  withCount Ty.word Ty.word a b (fun n =>
    shifted lgc Ty.word ((a.payload.rotateLeft n).toNat : Int) (a.payload.rotateLeft n))

def aluRor (lgc : Bool) (a b : TWord) : Res :=
  withCount Ty.word Ty.word a b (fun n =>
    shifted lgc Ty.word ((a.payload.rotateRight n).toNat : Int) (a.payload.rotateRight n))

/-- Number of set bits among the low n. -/
def popCount (w : Word) : Nat := ((List.range 32).filter (fun i => w.getLsbD i)).length

def aluPopc (a : TWord) : Res := withFixed [Ty.word] Ty.int a (.ok Ty.int (BitVec.ofNat 32 (popCount a.payload)) false)
def aluClz (a : TWord) : Res :=
  withFixed [Ty.word] Ty.int a (.ok Ty.int (BitVec.ofNat 32 (32 - bitLen a.payload.toNat)) false)

def aluLogicImm (f : Word → Word → Word) (imm : Word) (a : TWord) : Res :=
  withTypes [Ty.word] a (.ok Ty.word (f a.payload imm) false)

def aluBtst (a b : TWord) : Res := withCount Ty.word Ty.bool a b (fun n => boolRes (a.payload.getLsbD n))
def aluBset (a b : TWord) : Res := withCount Ty.word Ty.word a b (fun n => .ok Ty.word (a.payload ||| (1#32 <<< n)) false)
def aluBclr (a b : TWord) : Res := withCount Ty.word Ty.word a b (fun n => .ok Ty.word (a.payload &&& ~~~(1#32 <<< n)) false)

/-- BPUT: bit b of d becomes a. -/
def aluBput (d a b : TWord) : Res :=
  if d.ty = Ty.empty ∨ a.ty = Ty.empty ∨ b.ty = Ty.empty then .fail cEmpty Ty.word 0
  else if d.ty ≠ Ty.word ∨ a.ty ≠ Ty.bool ∨ !countOk b then .fail cType Ty.word 0
  else
    let n := count5 b
    .ok Ty.word (if a.payload = 0 then d.payload &&& ~~~(1#32 <<< n) else d.payload ||| (1#32 <<< n)) false

/-! ### Conversion (R177, R178) -/

/-- The types that CVT names by fn 0 to 7. -/
def cvtType (fn : Nat) : BitVec 4 :=
  match fn with
  | 0 => Ty.int | 1 => Ty.word | 2 => Ty.real | 3 => Ty.duration | 4 => Ty.bool | 5 => Ty.slotref | 6 => Ty.dataref
  | 7 => Ty.stamp | 8 => Ty.real | _ => Ty.word

/-- An integer in the range of a type, or OVERFLOW with its saturation. -/
def ranged (t : BitVec 4) (x : Int) : Res :=
  if tooBig t x then .fail cOverflow t (saturated t (decide (0 < x))) else .ok t (BitVec.ofInt 32 x) false

/-- A REAL converted to INT, WORD or DURATION (R177). -/
def realTo (t : BitVec 4) (mode : Nat) (p : Word) : Res :=
  if fIsNan p || fIsInf p then .fail cOverflow t (saturated t (!fSign p)) else ranged t (fToInt mode p)

def aluCvt (fn mode : Nat) (a : TWord) : Res :=
  let t := cvtType fn
  let isIn := fun (l : List (BitVec 4)) => l.contains a.ty
  if a.ty = Ty.empty then .fail cEmpty t 0
  else if fn = 8 then (if a.ty = Ty.word then .ok Ty.real a.payload false else .fail cType t 0)
  else if fn = 9 then (if a.ty = Ty.real then .ok Ty.word a.payload false else .fail cType t 0)
  else if a.ty = t then .ok t a.payload false
  else if (t = Ty.int ∨ t = Ty.duration) ∧ isIn [Ty.int, Ty.duration] then .ok t a.payload false
  else if t = Ty.word ∧ a.ty = Ty.int ∨ t = Ty.int ∧ a.ty = Ty.word then ranged t (numOf a.ty a.payload)
  else if t = Ty.real ∧ isIn [Ty.int, Ty.word, Ty.duration] then .ok t (fOfInt mode (numOf a.ty a.payload)) false
  else if a.ty = Ty.real ∧ (t = Ty.int ∨ t = Ty.word ∨ t = Ty.duration) then realTo t mode a.payload
  else if a.ty = Ty.bool ∧ (t = Ty.int ∨ t = Ty.word) then .ok t a.payload false
  else if t = Ty.bool ∧ isIn [Ty.int, Ty.word] then boolRes (a.payload != 0)
  else if (t = Ty.slotref ∨ t = Ty.dataref) ∧ isIn [Ty.int, Ty.word] then ranged t (numOf a.ty a.payload)
  else if (t = Ty.int ∨ t = Ty.word) ∧ isIn [Ty.slotref, Ty.dataref] then .ok t a.payload false
  else if t = Ty.stamp ∧ a.ty = Ty.word ∨ t = Ty.word ∧ a.ty = Ty.stamp then .ok t a.payload false
  else .fail cType t 0

/-- Conversions between a number and REAL take 3 cycles, the others 1 (R177). -/
def cvtCycles (fn : Nat) (a : TWord) : Nat :=
  let num := fun t => t == Ty.int || t == Ty.word || t == Ty.duration
  if fn < 8 && ((a.ty == Ty.real && num (cvtType fn)) || (cvtType fn == Ty.real && num a.ty)) then 3 else 1

def aluRaws (a : TWord) : Res :=
  withFixed [Ty.sample16] Ty.int a (.ok Ty.int ((a.payload.extractLsb' 0 16).signExtend 32) false)
def aluRawu (a : TWord) : Res :=
  withFixed [Ty.sample16] Ty.int a (.ok Ty.int ((a.payload.extractLsb' 0 16).zeroExtend 32) false)
def aluSflg (a : TWord) : Res :=
  withFixed [Ty.sample16] Ty.word a (.ok Ty.word ((a.payload.extractLsb' 16 16).zeroExtend 32) false)

/-- SCALE: raw × b (R178). -/
def aluScale (signed : Bool) (a b : TWord) : Res :=
  if a.ty = Ty.empty ∨ b.ty = Ty.empty then .fail cEmpty Ty.real 0
  else if a.ty ≠ Ty.sample16 ∨ b.ty ≠ Ty.real then .fail cType Ty.real 0
  else
    let raw := a.payload.extractLsb' 0 16
    real (fMul (fOfInt 0 (if signed then raw.toInt else (raw.toNat : Int))) b.payload)

end Sys2Proof.Machine
end

