-- ==== Sys2Proof/Machine/DataOps.lean ====
section
/-! DEFINITION. Data memory through page maps (R212), the tracer and the conversions of a carry map (R216, R221), and what a
generation that is discarded gives back (R230, R232). -/

namespace Sys2Proof.Machine

/-! ### Data memory (R212, R221) -/

/-- The addresses of a generation that its page map maps to a physical address, rising: a page that two forward entries share has
more than one (R212, R213). -/
def virtsOf (p : Program) (a : Nat) : List Nat :=
  (p.pageMap.zipIdx.filter (fun e => e.1 == a / 1024)).map (fun e => 1024 * e.2 + a % 1024)

/-- The lowest of them. -/
def virtOf (p : Program) (a : Nat) : Option Nat := (virtsOf p a).head?

def readPhys (s : State) (a : Nat) : TWord := readAt TWord.empty s.mem.data a

/-- A data word of the running generation. -/
def readData (s : State) (a : Nat) : TWord :=
  match s.chg.running with
  | some p => readPhys s (physOf p a)
  | none => TWord.empty

/-- Write a word by its physical address, with persistence and the delta (R330, R362); FABRIC ticks waited and the state. -/
def writePhys (waits : Bool) (a : Nat) (w : TWord) (s : State) : Nat × State :=
  let r := match groupOf s (.data (a / 1024) (a % 1024 / 64)) with
    | some g => touchWord waits g (a % 64) (readPhys s a) w s
    | none => (0, s)
  (r.1, mirror (.data a [w]) (onMem (fun m => { m with data := writeAt TWord.empty m.data a w }) r.2))

/-- The carry entries whose source ranges the tracer watches (R221, R222). -/
def traceEntries (s : State) : List CarryEntry :=
  if !s.chg.tracing then []
  else
    (if s.chg.reverse then (s.chg.retained.map (·.map.rev)).getD [] else (s.chg.staged.map (·.map.fwd)).getD []).filter
      (fun e => e.conv != 0x80)

def covers (e : CarryEntry) (a : Nat) : Bool := decide (e.src ≤ a) && decide (a < e.src + e.count)

/-- The tracer marks a written address of the running generation (R221). -/
def markTraced (a : Nat) (s : State) : State :=
  if (traceEntries s).any (fun e => covers e a) then onChg (fun c => { c with traced := insertNat c.traced a }) s else s

/-- The tracer marks a write by its physical address: every address of the running generation that reads the word (R221, R234). -/
def markPhys (a : Nat) (s : State) : State :=
  match s.chg.running with
  | some p => if s.chg.tracing then (virtsOf p a).foldl (fun t v => markTraced v t) s else s
  | none => s

/-- Write a data word of the running generation; FABRIC ticks waited and the state. -/
def writeData (waits : Bool) (a : Nat) (w : TWord) (s : State) : Nat × State :=
  match s.chg.running with
  | some p => let r := writePhys waits (physOf p a) w s; (r.1, markPhys (physOf p a) r.2)
  | none => (0, s)

/-! ### Conversion (R216) -/

/-- A word under a conversion code: the word, and whether the conversion was refused. -/
def convert (conv gen : Nat) (pairs : List (Nat × Nat)) (w : TWord) : TWord × Bool :=
  if w.ty = Ty.empty ∨ w.ty = Ty.poison then (w, false)
  else if 1 ≤ conv ∧ conv ≤ 8 then
    match aluCvt (conv - 1) 0 w with
    | .ok t p _ => ({ w with ty := t, payload := p }, false)
    | .fail _ t _ => ({ w with ty := t, payload := 0, q := Q.bad }, true)
  else if conv = 0x10 ∧ w.ty = Ty.coderef then
    match look pairs (w.payload.toNat % 2 ^ 28) with
    | some o => ({ w with payload := BitVec.ofNat 32 (2 ^ 28 * (gen % 16) + o) }, false)
    | none => ({ w with ty := Ty.empty, payload := 0, q := Q.bad }, false)
  else (w, false)

/-- Copy one source word into the destination generation through every entry that covers it. A refused conversion counts at each
copy, the initial carry's, the tracer's and the switch's (DESIGN CHOICE, log entry 60). -/
def carryWord (src dst : Program) (es : List CarryEntry) (pairs : List (Nat × Nat)) (a : Nat) (s : State) : State :=
  es.foldl (fun t e =>
    if e.conv != 0x80 && covers e a then
      let c := convert e.conv dst.gen pairs (readPhys t (physOf src a))
      let t1 := (writePhys false (physOf dst (e.dst + (a - e.src))) c.1 t).2
      if c.2 then onChg (fun g => { g with convFailures := g.convFailures + 1 }) t1 else t1
    else t) s

/-- The translation pairs of the reverse direction: the inverted ones. Where two old offsets share a new one, the pair with the
greater old offset stands (DESIGN CHOICE, log entry 60). -/
def swapPairs (l : List (Nat × Nat)) : List (Nat × Nat) := l.foldl (fun m e => insertAt m e.2 e.1) []

/-- Copy a traced word between the running generation and the one beside it (R221, R222). -/
def carryTraced (a : Nat) (s : State) : State :=
  match s.chg.running with
  | none => s
  | some run =>
    if s.chg.reverse then
      match s.chg.retained with
      | some b => carryWord run b.prog b.map.rev (swapPairs b.map.codePairs) a s
      | none => s
    else
      match s.chg.staged with
      | some b => carryWord run b.prog b.map.fwd b.map.codePairs a s
      | none => s

/-! ### Pages and groups -/

/-- The group keys of the retentive words of a generation (R361). -/
def retentiveKeys (p : Program) : List GroupKey :=
  (List.range ((p.retentiveWords + 63) / 64)).map (fun i => .data (nth 4096 p.pageMap (i / 16)) (i % 16))

def addGroups (l : List GroupKey) (s : State) : State := l.foldl (fun t k => addGroup k t) s

/-- The groups of physical pages that no generation uses any more leave MRAM. -/
def dropPages (pages : List Nat) (s : State) : State :=
  (s.mem.groups.filter (fun g => match g.2 with
    | .data p _ => pages.contains p
    | .slots _ => false)).foldl (fun t g => dropGroup g.1 t) s

/-- Physical pages of one generation that the running one does not use. -/
def privatePages (s : State) (p : Program) : List Nat :=
  match s.chg.running with
  | some run => p.pageMap.filter (fun x => !run.pageMap.contains x)
  | none => p.pageMap

/-- Give back an allocated run of slots, with forces that stand on it (R77); one that has been given back already stays so. -/
def giveRun (base order : Nat) (s : State) : State :=
  if look s.img.runs base = some order then
    let s1 := ((s.img.forces.map (·.slot)).filter (fun a => decide (base ≤ a) && decide (a < base + 2 ^ order))).foldl
      (fun t a => clearForce 3 a t) s
    clearDescs base (2 ^ order)
      (mirror (.freeRun base order) (onImg (fun i => { i with free := freeRun i.free base order, runs := erase i.runs base }) s1))
  else s

/-! ### Discarding (R230, R232) -/

/-- A PENDING commit or revert ends with ABORTED; held event tasks are held no longer (R230). -/
def abortAttempt (s : State) : State :=
  match s.chg.attempt with
  | some a => onChg (fun c => { c with attempt := none, heldTasks := [] }) (endOp a.handle stAborted [] s)
  | none => s

/-- The staged generation is discarded (R230), with the cause of its record (R455): 0 abort, 1 stop, 2 halt, 3 restart,
4 partner. -/
def discardStaged (cause : Nat) (s : State) : State :=
  match s.chg.staged with
  | none => s
  | some b =>
    let s1 := abortAttempt s
    let s2 := b.map.actions.foldl (fun t a => match a with
      | .move o _ dst => giveRun dst o t
      | _ => t) s1
    let s3 := dropPages (privatePages s2 b.prog) (dropGeneration b.prog.gen s2)
    let s4 := setRefs (onChg (fun c =>
      { c with staged := none, busySlots := [], tracing := c.reverse && c.tracing,
               traced := if c.reverse then c.traced else [] }) s3)
    capture (cause == 0) 0x3004 (fields [(4, b.prog.gen), (1, cause)]) (mirror (.mark .changeAbort) s4)

/-- Runs that a release frees: the FREE runs and the MOVE source runs (R232). -/
def releasedRuns (b : Beside) : List (Nat × Nat) :=
  b.map.actions.filterMap (fun a => match a with
    | .free o base => some (base, o)
    | .move o src _ => some (src, o)
    | .retype _ _ _ _ => none)

/-- The retained generation goes: its private pages, its frames and the reverse tracer (R232). -/
def dropRetained (s : State) : State :=
  match s.chg.retained with
  | none => s
  | some b =>
    let s1 := dropPages (privatePages s b.prog) (dropGeneration b.prog.gen s)
    setRefs (onChg (fun c =>
      { c with retained := none, tracing := c.tracing && !c.reverse, reverse := false,
               traced := if c.reverse then [] else c.traced }) s1)

end Sys2Proof.Machine
end

