-- ==== Sys2Proof/Machine/Halts.lean ====
section
/-! DEFINITION. Stops and halts that several chapters share (R59, R65, R130, R259 to R262): STOP_PROGRAM, the output halt,
entry to HALTED and to FAULT, and lifting. -/

namespace Sys2Proof.Machine

/-- Send a notice to the partner, three times (R327). -/
def sendNotice (k : NoticeKind) (hold : Nat) (s : State) : State :=
  sendSel (.notice k hold) (sendSel (.notice k hold) (sendSel (.notice k hold) s))

/-- halt_all is set; the next CONTROL frame carries it even if it is lifted before (R259). -/
def setHaltAll (s : State) : State :=
  mirror (.haltAll true) (onNet (fun n => { n with haltAll := true, haltLatched := true }) s)

/-- halt_all is cleared as far as no halt that only another condition lifts stands (R261, R262, R466). -/
def liftHalt (s : State) : State :=
  let on := s.net.haltConfigure || s.net.haltExtest || s.dev.haltReqLow
  mirror (.haltAll on) (onNet (fun n => { n with haltAll := on }) s)

/-- Enter HALTED from STOP, RUN or CHANGING (R59), or make it the return state in HOLDUP. In a switch window only the outputs halt: the
state is entered from RUN at its end (R229). -/
def goHalted (s : State) : State :=
  if s.chg.window.isSome then
    onChg (fun c => { c with window := c.window.map (fun w => { w with halt := true }) }) (setHaltAll s)
  else
    let s1 := if effState s = .changing then discardStaged 2 s else s
    enterOrReturn .halted (stopReleasing (setHaltAll s1))

/-- The output halt of NET_HALT_ALL_OUTPUTS (R59, R229, R259, R262): what it does in each state. -/
def haltOutputs (s : State) : State :=
  match effState s with
  | .stop | .run | .changing => goHalted s
  | .halted | .fault => s
  | .configure => onNet (fun n => { n with haltConfigure := true }) (setHaltAll s)
  | _ => setHaltAll s

/-- The halt of HALT_REQ_N (R59, R259): in CONFIGURE it is the halt of R262, as R59 says of HOLDUP with that return state (DEDUCED, log
entry 55). -/
def haltRequested (s : State) : State := haltOutputs s

/-- STOP_PROGRAM (R59, R64, R130): releases cease, activations are discarded, a staged generation goes, and output slots take
their substitute values. Where the function has taken place already, nothing happens. -/
def stopProgram (s : State) : State :=
  match effState s with
  | .run | .changing | .halted =>
    let s1 := if effState s = .changing then discardStaged 1 s else s
    let s2 := substituteOutputs (discardAll (stopReleasing s1))
    let s3 := if effState s = .halted then liftHalt s2 else s2
    settle (enterOrReturn .stop s3)
  | _ => s

/-- What a module forgets of a pair operation when its role changes. -/
def clearPairWork (p : Pair) : Pair :=
  { p with inStep := false, switchover := none, heldTasks := [], handoverDue := false, handoverAt := none, master := false, takeoverDue := none,
           yieldDue := false, deltas := [], changed := [], closed := none, deciding := none, copies := [] }

/-- The synchronisation in progress ends; its operation ends with a status (R345, R348). -/
def endSync (status : Nat) (s : State) : State :=
  let s1 := onPair (fun p => { p with syncPhase := 0, syncHandle := none, syncPaused := false, joinTick := 0, awaiting := false }) s
  match s.pair.syncHandle with
  | some i =>
    endOp i status (fields [(4, s.pair.epoch), (4, s.pair.joinTick % 2 ^ 32), (1, s.pair.syncPhase), (1, s.pair.refusal)]) s1
  | none => s1

/-- An online change that is under way ends where it stands: no switch is made in FAULT, and a commit or revert in progress ends
with ABORTED (R59, R68). -/
def abandonChange (s : State) : State :=
  let s1 := abortAttempt s
  match s1.chg.window with
  | some w => onChg (fun c => { c with window := none }) (endOp w.handle stAborted [] s1)
  | none => s1

/-- Enter FAULT (R59, R65, R346): outputs halted, releases ceased, activations discarded, no change and no work of the
pair under way, role SOLO, and the record, whose cause code the spec does not give: a free value (log entry 3). -/
def enterFault (detail : Nat) (s : State) : State :=
  if s.dev.st = .fault then s
  else
    let s1 := endSync stAborted (abandonChange (discardAll (stopReleasing (setHaltAll s))))
    let s2 := if s1.dev.role = .primary ∨ s1.dev.role = .standby then sendNotice .fault 0 s1 else s1
    let s3 := takeRole .solo (enter .fault (onDev (fun d => { d with ret := none, stage := 0 })
      (onPair clearPairWork s2)))
    let (c, s4) := draw 16 s3
    logHw 0x0003 (fields [(2, c.toNat), (4, detail)]) s4

/-- budget_action of an expired budget (R118). Action 1 goes from HALTED to STOP whatever the level of HALT_REQ_N (DESIGN CHOICE, log entry
55). -/
def budgetAction (a : Nat) (s : State) : State :=
  match a with
  | 1 => stopProgram s
  | 2 => haltOutputs s
  | _ => s

/-- A task is HALTED with a reason (R118, R313): its declared outputs take their substitute values and its end is captured. -/
def haltTask (n reason : Nat) (s : State) : State :=
  endActivation n (some reason) (substituteDeclared n s)

/-! ### Evidence and budgets (R118, R437, R438) -/

/-- The record of a watchdog, which 0 task budget, 1 firmware, 2 host, with a new expiry or failure (R437). -/
def newEvidence (old : Evidence) (where0 where1 : Word) (good now : Nat) : Evidence :=
  { where0 := where0, where1 := where1, good := good, count := satTo 0xFFFF (old.count + 1),
    deltaMs := satTo 0xFFFFFFFF (now - good) }

def evidenceOf (s : State) : Nat → Evidence
  | 0 => s.wdg.evTask
  | 1 => s.wdg.evFw
  | _ => s.wdg.evHost

def putEvidence (which : Nat) (e : Evidence) : State → State :=
  onWdg (fun w => match which with
    | 0 => { w with evTask := e }
    | 1 => { w with evFw := e }
    | _ => { w with evHost := e })

/-- The first 16 bytes of an evidence record (R437, R440). -/
def evidenceBytes (e : Evidence) : Bytes :=
  leBytes 4 e.where0.toNat ++ leBytes 4 e.where1.toNat ++ leBytes 4 e.good ++ leBytes 2 (e.good / 2 ^ 32) ++ leBytes 2 e.count

/-- Capture evidence (R438). -/
def captureEvidence (which : Nat) (where0 where1 : Word) (good : Nat) (s : State) : State :=
  putEvidence which (newEvidence (evidenceOf s which) where0 where1 good (optimeMs s)) s

/-- The budget of task n has been reached (R118). -/
def budgetReached (s : State) (n t : Nat) : Bool :=
  decide ((getTask s n).st = .running) && !hasEnded s n && decide (600 * (getTask s n).sched.budget ≤ engineTime s n t)

/-- The budget of task n expires (R118, R429): evidence first, the records, the halt of the task, then budget_action. -/
def expireBudget (n : Nat) (s : State) : State :=
  match enginesOf s n with
  | [] => s
  | e :: _ =>
    let t := getTask s n
    let pc := (getEng s e).pc
    let s1 := captureEvidence 0 (BitVec.ofNat 32 (2 ^ 28 * (runningGen s % 16) + pc)) (BitVec.ofNat 32 (n + 256 * e)) t.lastGood s
    let s2 := logHw 0xD001 (evidenceBytes s1.wdg.evTask)
      (logHw 0x1003 (keyed ([b8 n, b8 e, 0, 0] ++ leBytes 4 (runningGen s)) (leBytes 4 pc ++ [b8 t.sched.budgetAction])) s1)
    budgetAction t.sched.budgetAction
      (settle (haltTask n 1 (onTask n (fun t => { t with expiries := inc32 t.expiries }) s2)))

end Sys2Proof.Machine
end

