-- ==== Sys2Proof/Machine/Plan.lean ====
section
/-! DEFINITION. What one Synna Code instruction asks for and does, before any engine carries it out: the operation it needs next
(R301), its effect when it has what it needs, or its trap (R149, R150). -/

namespace Sys2Proof.Machine

/-- The effect of an instruction that completes. -/
structure Effect where
  dst : Option (Nat × TWord) := none
  link : Option TWord := none
  target : Option Nat := none
  loc : Option (Nat × TWord) := none
  data : List (Nat × TWord) := []
  carry : Bool := false
  clearCarry : Bool := false
  lgc : Option Bool := none
  marked : Option Nat := none
  ends : Bool := false
  cycles : Nat := 1
  deriving DecidableEq, Repr

/-- The next thing an instruction does: an operation on what lies outside the engine, a read of its local store, a sample of the
engine's own timebase shadow, its completion, or a trap under END with its user code and its cycles. -/
inductive Plan where
  | need (op : XOp)
  | local' (addr : Nat)
  | shadow
  | done (f : Effect)
  | stop (cause user cycles : Nat)
  deriving DecidableEq, Repr

/-- What an instruction sees: the machine, its engine, the running generation, its task's entry, the engine's number. -/
structure View where
  s : State
  g : Engine
  p : Program
  d : TaskDef
  e : Nat

/-- A register: G0 reads EMPTY (R135). -/
def reg (v : View) (i : Fin 32) : TWord := if i.val = 0 then TWord.empty else nth TWord.empty v.g.regs i.val

/-- The policy of a data cause is MARK (R150). -/
def marks (v : View) (cause : Nat) : Bool :=
  decide (7 ≤ cause) && decide (cause ≤ 12) && v.p.trapPolicy.getLsbD (cause - 7)

def illegal : Plan := .stop cIllegal 0 1

/-- A data cause: a trap under END, or under MARK the word given to the destination and 2 more cycles (R150, R163). -/
def dataCause (v : View) (d : Option (Fin 32)) (ws : List TWord) (ty : BitVec 4) (p : Word) (cause cycles : Nat) : Plan :=
  if marks v cause then
    .done { dst := d.map (fun i => (i.val, markWord ws ty p)), marked := some cause, cycles := cycles + 2 }
  else .stop cause 0 cycles

/-- An operation on register operands: POISON first, then its result or data cause (R149). The cycles depend on the result
type. -/
def resPlan (v : View) (d : Fin 32) (qb : Bool) (ws : List TWord) (res : Res) (cycles : BitVec 4 → Nat) : Plan :=
  if ws.any poisonous then .stop cPoison 0 (match res with
    | .ok t _ _ => cycles t
    | .fail _ t _ => cycles t)
  else match res with
    | .ok t p c => .done { dst := some (d.val, resultWord qb ws t p), carry := c, cycles := cycles t }
    | .fail cause t p => dataCause v (some d) ws t p cause (cycles t)

/-- Cycles of an instruction with a REAL form. -/
def cyc (n r : Nat) : BitVec 4 → Nat := fun t => if t = Ty.real then r else n

/-- Format L legality: qb only where a variant exists, xf at most a bound, unused register fields 0 (R144, R164). -/
def lBad (f : LForm) (qb : Bool) (xf : Nat) (useD useA useB : Bool) : Bool :=
  (f.qb && !qb) || decide (xf < f.xf.val) || (!useD && f.d.val != 0) || (!useA && f.a.val != 0) || (!useB && f.b.val != 0)

/-- An instruction with two register operands. -/
def plan2 (v : View) (f : LForm) (qb : Bool) (op : TWord → TWord → Res) (cycles : BitVec 4 → Nat) : Plan :=
  if lBad f qb 0 true true true then illegal
  else resPlan v f.d f.qb [reg v f.a, reg v f.b] (op (reg v f.a) (reg v f.b)) cycles

/-- An instruction with one register operand. -/
def plan1 (v : View) (f : LForm) (qb : Bool) (op : TWord → Res) (cycles : BitVec 4 → Nat) : Plan :=
  if lBad f qb 0 true true false then illegal
  else resPlan v f.d f.qb [reg v f.a] (op (reg v f.a)) cycles

/-- An instruction that also reads d. -/
def plan3 (v : View) (f : LForm) (qb : Bool) (op : TWord → TWord → TWord → Res) (cycles : BitVec 4 → Nat) : Plan :=
  if lBad f qb 0 true true true then illegal
  else
    resPlan v f.d f.qb [reg v f.d, reg v f.a, reg v f.b] (op (reg v f.d) (reg v f.a) (reg v f.b)) cycles

/-- An instruction of format I. -/
def planI (v : View) (f : IForm) (op : TWord → Res) (cycles : Nat) : Plan :=
  resPlan v f.d false [reg v f.a] (op (reg v f.a)) (fun _ => cycles)

/-- A result that carries no operand's quality: GOOD, F = 0, S = 0. -/
def good (d : Fin 32) (ty : BitVec 4) (p : Word) (cycles : Nat) : Plan :=
  .done { dst := some (d.val, .mk0 ty p), cycles := cycles }

def boolWord (b : Bool) : Word := if b then 1 else 0

/-- The base registers that a space accepts (R136). -/
def baseTypes (sp : Nat) : List (BitVec 4) :=
  match sp with
  | 0 => [Ty.dataref]
  | 1 => [Ty.slotref]
  | 2 => [Ty.int]
  | _ => [Ty.int, Ty.word]

/-- Words of a space (R136). -/
def spaceSize (v : View) (sp : Nat) : Nat :=
  match sp with
  | 0 => v.p.dataWords
  | 1 => slotCount
  | 2 => v.d.window
  | _ => 65536

/-- A base register: the base, or BASE (R136). G0 means base 0. -/
def baseOf (v : View) (sp : Nat) (i : Fin 32) : Option Int :=
  let w := reg v i
  if i.val = 0 then some 0
  else if (baseTypes sp).contains w.ty && w.q != Q.bad then some (numOf (if w.ty = Ty.int then Ty.int else Ty.word) w.payload)
  else none

/-- The effective address base + displacement in a space, or the cause BASE or ADDRESS (R136). -/
def address (v : View) (sp : Nat) (i : Fin 32) (disp : Int) : Except Nat Nat :=
  match baseOf v sp i with
  | none => .error cBase
  | some b => if 0 ≤ b + disp ∧ b + disp < (spaceSize v sp : Int) then .ok (b + disp).toNat else .error cAddress

/-- The result of operation n of the instruction, if it has been made. -/
def got (v : View) (n : Nat) : Option TWord := v.g.results[n]?

/-- A write to a slot that R89 refuses. -/
def slotRefused (v : View) (slot : Nat) (w : TWord) : Bool :=
  let d := descOf v.s slot
  d.dir == 0 || d.dir == 1 || !(if d.ty = 0 then decide (w.ty.toNat ≤ 0xA) else w.ty == d.ty)

/-- A word loaded into d: POISON when it is, a copy otherwise (R140). -/
def loaded (d : Fin 32) (w : TWord) (cycles : Nat) : Plan :=
  if poisonous w then .stop cPoison 0 cycles else .done { dst := some (d.val, w), cycles := cycles }

/-- Load from a data address, a slot, the local store, a legacy word. -/
def loadPlan (v : View) (sp addr : Nat) (d : Fin 32) (cycles : Nat) : Plan :=
  match got v 0 with
  | some w => loaded d w cycles
  | none =>
    match sp with
    | 0 => .need (.readData addr)
    | 1 => if (descOf v.s addr).dir == 0 then .stop cSlot 0 cycles else .need (.readSlot addr)
    | 2 => .local' addr
    | _ => if v.s.mem.legacyBad.contains addr then .stop cPoison 0 cycles else .need (.readLegacy addr)

/-- A legacy store of a word (R153): TYPE, LEGACY, the store. -/
def legacyStore (v : View) (addr : Nat) (w : TWord) (blind : Bool) (cycles : Nat) : Plan :=
  if w.ty = Ty.empty then dataCause v none [] Ty.empty 0 cEmpty cycles
  else if !(w.ty == Ty.bool || w.ty == Ty.int || w.ty == Ty.word) then dataCause v none [] Ty.empty 0 cType cycles
  else if w.q != Q.good && !blind then
    if marks v cLegacy then
      match got v 0 with
      | some _ => .done { marked := some cLegacy, cycles := cycles + 2 }
      | none => .need (.writeLegacy addr w)
    else .stop cLegacy 0 cycles
  else match got v 0 with
    | some _ => .done { cycles := cycles }
    | none => .need (.writeLegacy addr w)

/-- Store a word into a space (R140, R89, R153). -/
def storePlan (v : View) (sp addr : Nat) (w : TWord) (cycles : Nat) : Plan :=
  match sp with
  | 0 => .done { data := [(addr, w)], cycles := cycles }
  | 1 =>
    if slotRefused v addr w then .stop cSlot 0 cycles
    else match got v 0 with
      | some _ => .done { cycles := cycles }
      | none => .need (.writeSlot addr w)
  | 2 => .done { loc := some (addr, w), cycles := cycles }
  | _ => legacyStore v addr w false cycles

/-- A load or store with base, displacement and space: POISON of the source, BASE, ADDRESS, then the access. -/
def memPlan (v : View) (sp : Nat) (base : Fin 32) (disp : Int) (d : Fin 32) (store : Bool) (cycles : Nat) : Plan :=
  if poisonous (reg v base) || (store && poisonous (reg v d)) then .stop cPoison 0 cycles
  else match address v sp base disp with
    | .error c => .stop c 0 cycles
    | .ok a => if store then storePlan v sp a (reg v d) cycles else loadPlan v sp a d cycles

/-! ### Control flow -/

/-- The byte offset that the fetch accepts as a target: even, in the code, on a page of the task's list (R147, R148). -/
def targetOk (v : View) (t : Int) : Bool :=
  decide (0 ≤ t) && decide (t < (v.p.codeLength : Int)) && t % 2 == 0 && v.d.pages.contains (t.toNat / 4096)

/-- PC := PC + 2 × disp. -/
def jump (v : View) (disp : Int) : Int := (v.g.pc : Int) + 2 * disp

/-- A branch to a target, with a link. -/
def branchTo (v : View) (t : Int) (link : Option TWord) (cycles : Nat) : Plan :=
  if targetOk v t then .done { target := some t.toNat, link := link, cycles := cycles } else .stop cCode 0 cycles

/-- The CODEREF to the instruction after this one, of n bytes (R147). -/
def returnRef (v : View) (n : Nat) : TWord :=
  .mk0 Ty.coderef (BitVec.ofNat 32 (2 ^ 28 * (v.p.gen % 16) + (v.g.pc + n) % 2 ^ 28))

/-- The offset of a CODEREF, or CODE (R147). A word that is not a CODEREF and a malformed one, whose offset is odd, cause CODE,
which R149 lists before POISON. -/
def throughRef (v : View) (w : TWord) (link : Option TWord) : Plan :=
  if w.ty ≠ Ty.coderef ∨ w.payload.toNat / 2 ^ 28 ≠ v.p.gen % 16 then .stop cCode 0 4
  else branchTo v (w.payload.toNat % 2 ^ 28 : Nat) link 4

/-- BT and BF: CODE of a target that could be taken, then EMPTY and TYPE of the condition (R180; log entry 12). -/
def condBranch (v : View) (a : Fin 32) (disp : Int) (want : Bool) : Plan :=
  let w := reg v a
  let taken := w.ty == Ty.bool && ((w.payload != 0) == want)
  if w.ty == Ty.bool && wellFormed w && !taken then .done {}
  else if !targetOk v (jump v disp) then .stop cCode 0 3
  else if poisonous w then .stop cPoison 0 3
  else if w.ty = Ty.empty then dataCause v none [] Ty.empty 0 cEmpty 3
  else if w.ty ≠ Ty.bool then dataCause v none [] Ty.empty 0 cType 3
  else branchTo v (jump v disp) none 3

end Sys2Proof.Machine
end

