-- ==== Sys2Proof/Machine/PlanOps.lean ====
section
/-! DEFINITION. What each Synna Code instruction asks for and does (R168 to R190), one plan per instruction whose form is not one
of the general ones of Plan.lean. -/

namespace Sys2Proof.Machine

/-! ### Comparison (R173) -/

/-- A comparison costs 2 cycles on REAL operands. -/
def planCmp (v : View) (f : LForm) (op : TWord → TWord → Res) : Plan :=
  plan2 v f true op (fun _ => if (reg v f.a).ty = Ty.real then 2 else 1)

/-! ### Moves, constants, selection (R175) -/

def planMov (v : View) (f : LForm) : Plan :=
  if lBad f false 0 true true false then illegal
  else if poisonous (reg v f.a) then .stop cPoison 0 1
  else .done { dst := some (f.d.val, reg v f.a) }

def planSel (v : View) (f : LForm) : Plan :=
  let c := reg v f.d
  let x := if c.payload != 0 then reg v f.a else reg v f.b
  if lBad f true 0 true true true then illegal
  else if poisonous c then .stop cPoison 0 1
  else if c.ty = Ty.empty then dataCause v (some f.d) [c] Ty.empty 0 cEmpty 1
  else if c.ty ≠ Ty.bool then dataCause v (some f.d) [c] Ty.empty 0 cType 1
  else if poisonous x then .stop cPoison 0 1
  else .done { dst := some (f.d.val, resultWord f.qb [c, x] x.ty x.payload) }

def planLdi (f : WForm) : Plan := good f.d Ty.int (f.imm.signExtend 32) 1
def planLui (f : WForm) : Plan := good f.d Ty.word (f.imm.zeroExtend 32 <<< 12) 1
def planLdd (f : WForm) : Plan := good f.d Ty.duration (f.imm.signExtend 32) 1

/-! ### Type and quality (R176) -/

/-- The instructions of op 0x19: any operand, POISON included, but not a malformed one (R149, R176). -/
def planDescribe (v : View) (f : LForm) (ty : BitVec 4) (g : TWord → Word) : Plan :=
  if lBad f false 0 true true false then illegal
  else if !wellFormed (reg v f.a) then .stop cPoison 0 1
  else good f.d ty (g (reg v f.a)) 1

def qualOf (w : TWord) : Word := if w.ty = Ty.poison then 3 else w.q.zeroExtend 32
def flagsOf (w : TWord) : Word :=
  if w.ty = Ty.poison then 0 else BitVec.ofNat 32 (flag w.forced 0 + flag w.sub 1)

/-- QSET and QWORSE. -/
def planQuality (v : View) (f : LForm) (q : TWord → BitVec 2 → BitVec 2) : Plan :=
  let a := reg v f.a
  let b := reg v f.b
  if lBad f false 0 true true true then illegal
  else if poisonous a || poisonous b then .stop cPoison 0 1
  else if b.ty = Ty.empty then dataCause v (some f.d) [a, b] a.ty 0 cEmpty 1
  else if !countOk b then dataCause v (some f.d) [a, b] a.ty 0 cType 1
  else .done { dst := some (f.d.val, { a with q := q a (b.payload.extractLsb' 0 2) }) }

def planSubst (v : View) (f : LForm) : Plan :=
  let a := reg v f.a
  let b := reg v f.b
  if lBad f false 0 true true true then illegal
  else if poisonous a || poisonous b then .stop cPoison 0 1
  else .done { dst := some (f.d.val, if a.ty != Ty.empty && a.q != Q.bad then a else b) }

/-! ### Conversion (R177, R178) -/

def planCvt (v : View) (fn : BitVec 6) (f : LForm) : Plan :=
  if decide (9 < fn.toNat) || lBad f true 3 true true false then illegal
  else resPlan v f.d f.qb [reg v f.a] (aluCvt fn.toNat f.xf.val (reg v f.a)) (fun _ => cvtCycles fn.toNat (reg v f.a))

def planScale (v : View) (f : LForm) : Plan :=
  if lBad f true 1 true true true then illegal
  else resPlan v f.d f.qb [reg v f.a, reg v f.b] (aluScale (f.xf.val == 0) (reg v f.a) (reg v f.b)) (fun _ => 4)

/-! ### Memory and slots (R179) -/

def memCycles (sp : Nat) : Nat := if sp = 2 then 2 else 6

def planLd (v : View) (f : MForm) : Plan := memPlan v f.sp.val f.base f.disp.toInt f.d false (memCycles f.sp.val)
def planSt (v : View) (f : MForm) : Plan := memPlan v f.sp.val f.base f.disp.toInt f.d true (memCycles f.sp.val)

def planLdsA (v : View) (f : WForm) : Plan :=
  if slotCount ≤ f.imm.toNat then illegal else loadPlan v 1 f.imm.toNat f.d 6

def planStsA (v : View) (f : WForm) : Plan :=
  if slotCount ≤ f.imm.toNat then illegal
  else if poisonous (reg v f.d) then .stop cPoison 0 6
  else storePlan v 1 f.imm.toNat (reg v f.d) 6

def planLds (v : View) (f : LForm) : Plan :=
  if lBad f false 0 true true false then illegal else memPlan v 1 f.a 0 f.d false 6

def planSts (v : View) (f : LForm) : Plan :=
  if lBad f false 0 true true false then illegal else memPlan v 1 f.a 0 f.d true 6

/-- LDSX and STSX: slot[a + b] with b INT. -/
def planIndexed (v : View) (f : LForm) (store : Bool) : Plan :=
  let b := reg v f.b
  let d := if store then none else some f.d
  if lBad f false 0 true true true then illegal
  else if poisonous (reg v f.a) || poisonous b || (store && poisonous (reg v f.d)) then .stop cPoison 0 7
  else if (baseOf v 1 f.a).isNone then .stop cBase 0 7
  else if b.ty = Ty.empty then dataCause v d [b] Ty.empty 0 cEmpty 7
  else if b.ty ≠ Ty.int then dataCause v d [b] Ty.empty 0 cType 7
  else memPlan v 1 f.a b.payload.toInt f.d store 7

def planSdesc (v : View) (f : LForm) : Plan :=
  if lBad f false 3 true true false then illegal
  else if poisonous (reg v f.a) then .stop cPoison 0 8
  else match address v 1 f.a 0 with
    | .error c => .stop c 0 8
    | .ok a => match got v 0 with
      | some w => good f.d Ty.word w.payload 8
      | none => .need (.readDesc a f.xf.val)

/-! ### Branches and calls (R180) -/

def planBr (v : View) (f : JForm) : Plan := if f.a.val ≠ 0 then illegal else branchTo v (jump v f.disp.toInt) none 3

def planCall (v : View) (f : JForm) : Plan :=
  if f.a.val ≠ 0 then illegal else branchTo v (jump v f.disp.toInt) (some (returnRef v 4)) 3

def planBe (v : View) (f : JForm) : Plan :=
  let w := reg v f.a
  if w.ty = Ty.empty then branchTo v (jump v f.disp.toInt) none 3
  else if poisonous w then .stop (if targetOk v (jump v f.disp.toInt) then cPoison else cCode) 0 3
  else .done {}

def planJr (v : View) (f : LForm) : Plan :=
  if lBad f false 0 false true false then illegal else throughRef v (reg v f.a) none

def planCallr (v : View) (f : LForm) : Plan :=
  if lBad f false 0 false true false then illegal else throughRef v (reg v f.a) (some (returnRef v 4))

def planRet (v : View) (f : LForm) : Plan :=
  if lBad f false 0 false false false then illegal else throughRef v (nth TWord.empty v.g.regs 31) none

/-! ### Timers (R181 to R183) -/

/-- The running time of a timer block (R182): ET, REM and LAST (none while idle). -/
structure TimerRun where
  et : Int
  rem : Int
  last : Option Word
  deriving DecidableEq, Repr

/-- The update that opens each execution (R182). -/
def timerUpdate (pt : Int) (now : Word) (t : TimerRun) : TimerRun :=
  match t.last with
  | none => t
  | some l =>
    let r := t.rem + ((now - l).toNat : Int)
    let et := t.et + r / 1000
    if pt ≤ et then { t with et := pt, rem := 0 } else { t with et := et, rem := r % 1000 }

def timerStart (now : Word) : TimerRun := ⟨0, 0, some now⟩

/-- TON (R182): the block after the execution, and Q. -/
def stepTon (pt : Int) (now : Word) (inp : Bool) (t : TimerRun) : TimerRun × Bool :=
  if inp then
    let u := if t.last.isNone then timerStart now else { t with last := some now }
    (u, decide (pt ≤ u.et))
  else ({ t with et := 0, last := none }, false)

/-- TOF (R182). -/
def stepTof (pt : Int) (now : Word) (inp : Bool) (t : TimerRun) : TimerRun × Bool :=
  if inp then (⟨0, 0, none⟩, true)
  else if t.last.isSome then
    if pt ≤ t.et then ({ t with et := pt, last := none }, false) else ({ t with last := some now }, true)
  else if t.et < pt then (if 0 < pt then (timerStart now, true) else (⟨0, 0, none⟩, false))
  else (t, false)

/-- TP (R182). -/
def stepTp (pt : Int) (now : Word) (inp : Bool) (t : TimerRun) : TimerRun × Bool :=
  if t.last.isSome && decide (t.et < pt) then ({ t with last := some now }, true)
  else if !inp then (⟨0, 0, none⟩, false)
  else if t.last.isSome then ({ t with et := pt, last := none }, false)
  else if t.et = 0 then (timerStart now, decide (0 < pt))
  else (t, false)

/-- The words of a block read so far, or the read that comes next. -/
def blockRead (v : View) (base n : Nat) : Except XOp (List TWord) :=
  if v.g.results.length < n then .error (.readData (base + v.g.results.length)) else .ok (v.g.results.take n)

/-- The base of a block of n words, or BASE or ADDRESS (R183). -/
def blockBase (v : View) (a : Fin 32) (n : Nat) : Except Nat Nat :=
  match address v 0 a 0 with
  | .error c => .error c
  | .ok b => if b + n ≤ v.p.dataWords then .ok b else .error cAddress

/-- A timer instruction. -/
def planTimer (v : View) (f : LForm) (kind : Int → Word → Bool → TimerRun → TimerRun × Bool) : Plan :=
  let inp := reg v f.b
  if lBad f false 0 true true true then illegal
  else if poisonous inp || poisonous (reg v f.a) then .stop cPoison 0 24
  else match blockBase v f.a 4 with
    | .error c => .stop c 0 24
    | .ok base => match blockRead v base 4 with
      | .error op => .need op
      | .ok ws =>
        let pt := nth TWord.empty ws 0
        let et := nth TWord.empty ws 1
        let last := nth TWord.empty ws 2
        let rem := nth TWord.empty ws 3
        let fail := fun c => dataCause v (some f.d) [inp, pt] Ty.bool 0 c 24
        if ws.any poisonous then .stop cPoison 0 24
        else if inp.ty = Ty.empty ∨ pt.ty = Ty.empty then fail cEmpty
        else if inp.ty ≠ Ty.bool ∨ pt.ty ≠ Ty.duration ∨ et.ty ≠ Ty.duration ∨
            !(last.ty == Ty.stamp || last.ty == Ty.empty) ∨ rem.ty ≠ Ty.int then fail cType
        else if rem.payload.toInt < 0 ∨ 999 < rem.payload.toInt then fail cOverflow
        else match got v 4 with
          | none => .need .timeNow
          | some now =>
            let p := max 0 pt.payload.toInt
            let run : TimerRun :=
              ⟨et.payload.toInt, rem.payload.toInt, if last.ty = Ty.stamp then some last.payload else none⟩
            let (t, q) := kind p now.payload (inp.payload != 0) (timerUpdate p now.payload run)
            .done
              { dst := some (f.d.val, resultWord false [inp, pt] Ty.bool (boolWord q))
                data := [(base + 1, resultWord false [inp, pt] Ty.duration (BitVec.ofInt 32 t.et)),
                  (base + 2, match t.last with
                    | some l => .mk0 Ty.stamp l
                    | none => TWord.empty),
                  (base + 3, resultWord false [inp, pt] Ty.int (BitVec.ofInt 32 t.rem))]
                cycles := 24 }

/-! ### Counters (R184) -/

/-- A counter instruction: whether it uses EDGE, the new CV with the words that give its quality, the words it writes,
and Q. -/
def planCounter (v : View) (f : LForm) (edge : Bool) (next : Bool → Bool → Int → Int → Option Int) (q : Int → Int → Bool) :
    Plan :=
  let b := reg v f.b
  if lBad f false 0 true true true then illegal
  else if poisonous b || poisonous (reg v f.a) then .stop cPoison 0 16
  else match blockBase v f.a 3 with
    | .error c => .stop c 0 16
    | .ok base => match blockRead v base (if edge then 3 else 2) with
      | .error op => .need op
      | .ok ws =>
        let pv := nth TWord.empty ws 0
        let cv := nth TWord.empty ws 1
        let eg := nth TWord.empty ws 2
        let fail := fun c => dataCause v (some f.d) [b, pv, cv] Ty.bool 0 c 16
        if ws.any poisonous then .stop cPoison 0 16
        else if b.ty = Ty.empty ∨ pv.ty = Ty.empty then fail cEmpty
        else if b.ty ≠ Ty.bool ∨ pv.ty ≠ Ty.int ∨ cv.ty ≠ Ty.int ∨ (edge && eg.ty != Ty.bool) then fail cType
        else
          let n := next (b.payload != 0) (eg.payload != 0) cv.payload.toInt pv.payload.toInt
          let w := match n with
            | some x => resultWord false (if edge then [cv, b, pv] else [b, pv]) Ty.int (BitVec.ofInt 32 x)
            | none => cv
          .done
            { dst := some (f.d.val, { w with ty := Ty.bool, payload := boolWord (q w.payload.toInt pv.payload.toInt) })
              data := (if n.isSome then [(base + 1, w)] else []) ++ (if edge then [(base + 2, b)] else [])
              cycles := 16 }

def nextCtu (b edge : Bool) (cv _pv : Int) : Option Int := some (if b && !edge then min 2147483647 (cv + 1) else cv)
def nextCtd (b edge : Bool) (cv _pv : Int) : Option Int := some (if b && !edge then max (-2147483648) (cv - 1) else cv)
def nextCrst (b _edge : Bool) (_cv _pv : Int) : Option Int := if b then some 0 else none
def nextCld (b _edge : Bool) (_cv pv : Int) : Option Int := if b then some pv else none
def reachesPv (cv pv : Int) : Bool := decide (pv ≤ cv)
def reachesZero (cv _pv : Int) : Bool := decide (cv ≤ 0)

/-! ### Event timers and triggers (R185, R187) -/

/-- TMSTART and TMSTOP: a must be 0, the task number 0 to 63. -/
def planEventTimer (v : View) (f : IForm) (start : Bool) : Plan :=
  if f.a.val ≠ 0 ∨ f.imm.toInt < 0 ∨ 63 < f.imm.toInt then illegal
  else match got v 0 with
    | some w => good f.d Ty.bool w.payload 8
    | none => .need (if start then .timerStart f.imm.toNat else .timerStop f.imm.toNat)

def planRaise (v : View) (f : IForm) : Plan :=
  if f.imm.toInt < 0 ∨ 63 < f.imm.toInt then illegal
  else if poisonous (reg v f.a) then .stop cPoison 0 12
  else match got v 0 with
    | some w => good f.d Ty.int w.payload 12
    | none => .need (.raise f.imm.toNat (reg v f.a))

def planRaiser (v : View) (f : LForm) : Plan :=
  let b := reg v f.b
  if lBad f false 0 true true true then illegal
  else if poisonous (reg v f.a) || poisonous b then .stop cPoison 0 12
  else if b.ty = Ty.empty then dataCause v (some f.d) [reg v f.a, b] Ty.int 0 cEmpty 12
  else if !countOk b then dataCause v (some f.d) [reg v f.a, b] Ty.int 0 cType 12
  else match got v 0 with
    | some w => good f.d Ty.int w.payload 12
    | none => .need (.raise b.payload.toNat (reg v f.a))

def planLogev (v : View) (f : LForm) : Plan :=
  let b := reg v f.b
  if lBad f false 0 false true true then illegal
  else if poisonous (reg v f.a) || poisonous b then .stop cPoison 0 20
  else if b.ty = Ty.empty then dataCause v none [] Ty.empty 0 cEmpty 20
  else if !countOk b then dataCause v none [] Ty.empty 0 cType 20
  else match got v 0 with
    | some _ => .done { cycles := 20 }
    | none => .need (.logEvent (b.payload.extractLsb' 0 16) (reg v f.a))

/-! ### Asynchronous sampling (R186) -/

/-- Quality of a timebase read: UNCERTAIN in holdover. -/
def tbQuality (s : State) : BitVec 2 := if s.net.tb = .holdover then Q.uncertain else Q.good

/-- Quality of a calendar read. -/
def calQuality (s : State) : BitVec 2 :=
  if !s.cal.valid then Q.bad else if s.cal.suspect then Q.uncertain else Q.good

def sampled (d : Fin 32) (ty : BitVec 4) (q : BitVec 2) (p : Word) (cycles : Nat) : Plan :=
  .done { dst := some (d.val, ⟨false, false, q, ty, p⟩), cycles := cycles }

/-- TBREAD takes the engine's own shadow, which the run gives as the first result (R18). -/
def planTbread (v : View) (f : LForm) : Plan :=
  if lBad f false 0 true false false then illegal
  else match got v 0 with
    | some w => sampled f.d Ty.stamp (tbQuality v.s) w.payload 4
    | none => .shadow

def planTbtick (v : View) (f : LForm) : Plan :=
  if lBad f false 0 true false false then illegal
  else sampled f.d Ty.word (tbQuality v.s) (BitVec.ofNat 32 v.s.dev.tick) 4

def planRtct (v : View) (f : LForm) : Plan :=
  let c := v.s.cal.fields
  if lBad f false 0 true false false then illegal
  else sampled f.d Ty.word (calQuality v.s) (0#8 ++ c.hours ++ c.minutes ++ c.seconds) 8

def planRtcd (v : View) (f : LForm) : Plan :=
  let c := v.s.cal.fields
  if lBad f false 0 true false false then illegal
  else sampled f.d Ty.word (calQuality v.s) (c.century ++ c.year ++ c.month ++ c.day) 8

/-- The supply of a channel's group (R500). -/
def supplyOf (s : State) (c : Nat) : Supply := if c < 16 then s.fio.supplyA else s.fio.supplyB

def planLin (v : View) (f : LForm) : Plan :=
  let a := reg v f.a
  let c := a.payload.toInt
  let ch := nth (Channel.reset 0) v.s.fio.ch c.toNat
  if lBad f false 0 true true false then illegal
  else if poisonous a then .stop cPoison 0 10
  else if a.ty ≠ Ty.int then .stop cBase 0 10
  else if c < 0 ∨ !inputInUse v.s c.toNat then .stop cAddress 0 10
  else
    let bad := ch.linkBreak || (supplyOf v.s c.toNat).cond != 0 || !v.s.fio.linkUp
    sampled f.d Ty.bool (if bad then Q.bad else Q.good) (boolWord (if v.e % 2 = 0 then ch.linkA else ch.linkB)) 10

/-! ### Legacy operations (R188) -/

def planLdls (v : View) (f : MForm) : Plan :=
  if f.sp.val ≠ 3 then illegal
  else if poisonous (reg v f.base) then .stop cPoison 0 6
  else match address v 3 f.base f.disp.toInt with
    | .error c => .stop c 0 6
    | .ok a =>
      if v.s.mem.legacyBad.contains a then .stop cPoison 0 6
      else match got v 0 with
        | some w => good f.d Ty.int ((w.payload.extractLsb' 0 16).signExtend 32) 6
        | none => .need (.readLegacy a)

def planStlq (v : View) (f : MForm) : Plan :=
  if f.sp.val ≠ 3 then illegal
  else if poisonous (reg v f.base) || poisonous (reg v f.d) then .stop cPoison 0 6
  else match address v 3 f.base f.disp.toInt with
    | .error c => .stop c 0 6
    | .ok a => legacyStore v a (reg v f.d) true 6

def planLbtst (v : View) (f : LForm) : Plan :=
  let b := reg v f.b
  if lBad f false 0 true true true then illegal
  else if poisonous (reg v f.a) || poisonous b then .stop cPoison 0 6
  else match address v 3 f.a 0 with
    | .error c => .stop c 0 6
    | .ok a =>
      if v.s.mem.legacyBad.contains a then .stop cPoison 0 6
      else if b.ty = Ty.empty then dataCause v (some f.d) [b] Ty.bool 0 cEmpty 6
      else if !countOk b then dataCause v (some f.d) [b] Ty.bool 0 cType 6
      else match got v 0 with
        | some w =>
          .done { dst := some (f.d.val,
                    resultWord false [b] Ty.bool (boolWord (w.payload.getLsbD (b.payload.toNat % 16)))), cycles := 6 }
        | none => .need (.readLegacy a)

/-- LBPUT and LBPUTQ. -/
def planLbput (v : View) (f : LForm) (blind : Bool) : Plan :=
  let b := reg v f.b
  let d := reg v f.d
  if lBad f false 0 true true true then illegal
  else if poisonous (reg v f.a) || poisonous b || poisonous d then .stop cPoison 0 10
  else match address v 3 f.a 0 with
    | .error c => .stop c 0 10
    | .ok a =>
      let n := b.payload.toNat % 16
      if v.s.mem.legacyBad.contains a then .stop cPoison 0 10
      else if b.ty = Ty.empty ∨ d.ty = Ty.empty then dataCause v none [] Ty.empty 0 cEmpty 10
      else if !countOk b || d.ty != Ty.bool then dataCause v none [] Ty.empty 0 cType 10
      else if d.q != Q.good && !blind && !marks v cLegacy then .stop cLegacy 0 10
      else match got v 0 with
        | some _ =>
          if d.q != Q.good && !blind then .done { marked := some cLegacy, cycles := 12 } else .done { cycles := 10 }
        | none => .need (.putLegacyBit a n d)

def planLgon (f : LForm) : Plan := if lBad f false 0 false false false then illegal else .done { lgc := some true }
def planLgoff (f : LForm) : Plan := if lBad f false 0 false false false then illegal else .done { lgc := some false }
def planLgcry (v : View) (f : LForm) : Plan :=
  if lBad f false 0 true false false then illegal else good f.d Ty.bool (boolWord v.g.lgcCarry) 1
def planLgclr (f : LForm) : Plan := if lBad f false 0 false false false then illegal else .done { clearCarry := true }

/-! ### System (R189) -/

def planNop (f : LForm) : Plan := if lBad f false 0 false false false then illegal else .done {}
def planEnd (f : LForm) : Plan :=
  if lBad f false 0 false false false then illegal else .done { ends := true, cycles := 2 }
def planTrap (f : LForm) : Plan := if lBad f false 0 false false false then illegal else .stop cExplicit 0 2
def planRdstat (v : View) (f : LForm) : Plan :=
  if lBad f false 0 true false false then illegal else good f.d Ty.word (statusWord v.g) 1

def planWrstat (v : View) (f : LForm) : Plan :=
  let a := reg v f.a
  if lBad f false 0 false true false then illegal
  else if poisonous a then .stop cPoison 0 1
  else if a.ty = Ty.empty then dataCause v none [] Ty.empty 0 cEmpty 1
  else if a.ty ≠ Ty.word then dataCause v none [] Ty.empty 0 cType 1
  else .done { lgc := some (a.payload.getLsbD 0), clearCarry := !a.payload.getLsbD 1 }

/-- FEAT_ISA, FEAT_SIZE, FEAT_CODE, FEAT_TIME (R155 to R157). -/
def featWord (n : Nat) : Word :=
  match n with
  | 0 => 0x0103FF00#32
  | 1 => BitVec.ofNat 32 (15 * 2 ^ 27 + 63 * 2 ^ 21 + 18 * 2 ^ 16 + 22 * 2 ^ 11 + 14 * 2 ^ 6 + 16 * 2)
  | 2 => 0x08000C06#32
  | _ => 0x04B000FA#32

def planRdfeat (f : LForm) : Plan :=
  if lBad f false 3 true false false then illegal else good f.d Ty.word (featWord f.xf.val) 2

def planTrapi (f : WForm) : Plan := if f.d.val ≠ 0 then illegal else .stop cExplicit f.imm.toNat 2

/-! ### The 16-bit forms (R146, R190) -/

/-- The L form that a C2 form stands for, with d as first operand. -/
def c2L (f : C2Form) : LForm := ⟨f.d, f.d, f.a, f.qb, 0⟩

def planCMov (v : View) (f : C2Form) : Plan := planMov v ⟨f.d, f.a, 0, f.qb, 0⟩
def planCLds (v : View) (f : C2Form) : Plan := planLds v ⟨f.d, f.a, 0, f.qb, 0⟩
def planCSts (v : View) (f : C2Form) : Plan := planSts v ⟨f.d, f.a, 0, f.qb, 0⟩
def planCAddi (v : View) (f : C6Form) : Plan :=
  resPlan v f.r false [reg v f.r] (aluAddi v.g.lgc (f.imm.signExtend 32) (reg v f.r)) (fun _ => 1)
def planCLdk (f : C6Form) : Plan := good f.r Ty.int (f.imm.signExtend 32) 1
def planCLdl (v : View) (f : C6Form) : Plan := memPlan v 2 30 f.imm.toNat f.r false 2
def planCStl (v : View) (f : C6Form) : Plan := memPlan v 2 30 f.imm.toNat f.r true 2
def planCBr (v : View) (disp : BitVec 11) : Plan := branchTo v (jump v disp.toInt) none 3
def planCBt (v : View) (f : C6Form) : Plan := condBranch v f.r f.imm.toInt true
def planCBf (v : View) (f : C6Form) : Plan := condBranch v f.r f.imm.toInt false

/-- A C.SYS parcel whose bits [5:0] are not 0 causes ILLEGAL (R143, R146). -/
def sysForm (low : BitVec 6) (p : Plan) : Plan := if low ≠ 0 then illegal else p

end Sys2Proof.Machine
end

