-- ==== Sys2Proof/Machine/SncDecode.lean ====
section
/-! DEFINITION. The encodings of Synna Code (R141 to R146, R164, and the tables of chapter 07): the formats, the instruction that a
parcel or a pair of parcels spells, and the words of an instruction. What no row of the tables assigns spells none, and an engine
that fetches it traps ILLEGAL. -/

namespace Sys2Proof.Machine

/-! ### Formats, from the word (R142, R143) -/

/-- A register number of 5 bits. -/
def regOf (b : BitVec 5) : Fin 32 := ⟨b.toNat, b.isLt⟩

/-- The 5 bits of a register number. -/
def regBits (r : Fin 32) : BitVec 5 := BitVec.ofNat 5 r.val

def fieldsL (w : BitVec 32) : LForm :=
  { d := regOf (w.extractLsb' 20 5), a := regOf (w.extractLsb' 15 5), b := regOf (w.extractLsb' 10 5), qb := w.getLsbD 3,
    xf := ⟨(w.extractLsb' 0 3).toNat, (w.extractLsb' 0 3).isLt⟩ }
def fieldsI (w : BitVec 32) : IForm :=
  { d := regOf (w.extractLsb' 20 5), a := regOf (w.extractLsb' 15 5), imm := w.extractLsb' 0 15 }
def fieldsM (w : BitVec 32) : MForm :=
  { d := regOf (w.extractLsb' 20 5), base := regOf (w.extractLsb' 15 5),
    sp := ⟨(w.extractLsb' 13 2).toNat, (w.extractLsb' 13 2).isLt⟩, disp := w.extractLsb' 0 13 }
def fieldsJ (w : BitVec 32) : JForm := { a := regOf (w.extractLsb' 20 5), disp := w.extractLsb' 0 20 }
def fieldsW (w : BitVec 32) : WForm := { d := regOf (w.extractLsb' 20 5), imm := w.extractLsb' 0 20 }
def fieldsC2 (p : BitVec 16) : C2Form :=
  { d := regOf (p.extractLsb' 6 5), a := regOf (p.extractLsb' 1 5), qb := p.getLsbD 0 }
def fieldsC6 (p : BitVec 16) : C6Form := { r := regOf (p.extractLsb' 6 5), imm := p.extractLsb' 0 6 }

/-! ### The instruction that a word spells -/

/-- Format L: the functions of each major opcode. -/
def decodeL (e : Fin 16) (f : LForm) (fn : BitVec 6) : Nat → Option Instr
  | 0x00 =>
    match fn.toNat with
    | 0 => some (.add e f)
    | 1 => some (.sub e f)
    | 2 => some (.mul e f)
    | 3 => some (.div e f)
    | 4 => some (.mod e f)
    | 5 => some (.neg e f)
    | 6 => some (.abs e f)
    | 7 => some (.min e f)
    | 8 => some (.max e f)
    | 9 => some (.lim e f)
    | _ => none
  | 0x03 =>
    match fn.toNat with
    | 0 => some (.sqrt e f)
    | 1 => some (.ln e f)
    | 2 => some (.exp e f)
    | 3 => some (.sin e f)
    | 4 => some (.cos e f)
    | 5 => some (.atan2 e f)
    | _ => none
  | 0x08 =>
    match fn.toNat with
    | 0 => some (.eq e f)
    | 1 => some (.ne e f)
    | 2 => some (.lt e f)
    | 3 => some (.le e f)
    | 4 => some (.gt e f)
    | 5 => some (.ge e f)
    | 6 => some (.unord e f)
    | _ => none
  | 0x0C =>
    match fn.toNat with
    | 0 => some (.and e f)
    | 1 => some (.or e f)
    | 2 => some (.xor e f)
    | 3 => some (.not e f)
    | 4 => some (.andn e f)
    | 5 => some (.shl e f)
    | 6 => some (.shr e f)
    | 7 => some (.sar e f)
    | 8 => some (.rol e f)
    | 9 => some (.ror e f)
    | 10 => some (.popc e f)
    | 11 => some (.clz e f)
    | _ => none
  | 0x10 =>
    match fn.toNat with
    | 0 => some (.btst e f)
    | 1 => some (.bset e f)
    | 2 => some (.bclr e f)
    | 3 => some (.bput e f)
    | _ => none
  | 0x14 =>
    match fn.toNat with
    | 0 => some (.mov e f)
    | 1 => some (.sel e f)
    | _ => none
  | 0x19 =>
    match fn.toNat with
    | 0 => some (.typeof e f)
    | 1 => some (.qualof e f)
    | 2 => some (.isgood e f)
    | 3 => some (.flags e f)
    | 4 => some (.isempty e f)
    | _ => none
  | 0x1A =>
    match fn.toNat with
    | 0 => some (.qset e f)
    | 1 => some (.qworse e f)
    | 2 => some (.subst e f)
    | _ => none
  | 0x1B =>
    match fn.toNat with
    | 0 => some (.raws e f)
    | 1 => some (.rawu e f)
    | 2 => some (.sflg e f)
    | 3 => some (.scale e f)
    | _ => none
  | 0x22 =>
    match fn.toNat with
    | 0 => some (.lds e f)
    | 1 => some (.sts e f)
    | 2 => some (.ldsx e f)
    | 3 => some (.stsx e f)
    | 4 => some (.sdesc e f)
    | _ => none
  | 0x24 =>
    match fn.toNat with
    | 0 => some (.ton e f)
    | 1 => some (.tof e f)
    | 2 => some (.tp e f)
    | _ => none
  | 0x25 =>
    match fn.toNat with
    | 0 => some (.ctu e f)
    | 1 => some (.ctd e f)
    | 2 => some (.crst e f)
    | 3 => some (.cld e f)
    | _ => none
  | 0x2C =>
    match fn.toNat with
    | 0 => some (.jr e f)
    | 1 => some (.callr e f)
    | 2 => some (.ret e f)
    | _ => none
  | 0x30 =>
    match fn.toNat with
    | 0 => some (.tbread e f)
    | 1 => some (.tbtick e f)
    | 2 => some (.rtct e f)
    | 3 => some (.rtcd e f)
    | _ => none
  | 0x31 =>
    match fn.toNat with
    | 0 => some (.lin e f)
    | _ => none
  | 0x35 =>
    match fn.toNat with
    | 0 => some (.raiser e f)
    | 1 => some (.logev e f)
    | _ => none
  | 0x38 =>
    match fn.toNat with
    | 0 => some (.lbtst e f)
    | 1 => some (.lbput e f)
    | 2 => some (.lbputq e f)
    | _ => none
  | 0x39 =>
    match fn.toNat with
    | 0 => some (.lgon e f)
    | 1 => some (.lgoff e f)
    | 2 => some (.lgcry e f)
    | 3 => some (.lgclr e f)
    | _ => none
  | 0x3A =>
    match fn.toNat with
    | 0 => some (.nop e f)
    | 1 => some (.endAct e f)
    | 2 => some (.trap e f)
    | 3 => some (.rdstat e f)
    | 4 => some (.wrstat e f)
    | 5 => some (.rdfeat e f)
    | _ => none
  | _ => none

/-- The other formats, and CVT, whose fn names the target type. -/
def decodeOther (e : Fin 16) (w : BitVec 32) (fn : BitVec 6) : Nat → Option Instr
  | 0x18 => some (.cvt e fn (fieldsL w))
  | 0x01 => some (.addi e (fieldsI w))
  | 0x02 => some (.muli e (fieldsI w))
  | 0x09 => some (.ceqi e (fieldsI w))
  | 0x0A => some (.clti e (fieldsI w))
  | 0x0B => some (.cgti e (fieldsI w))
  | 0x0D => some (.andi e (fieldsI w))
  | 0x0E => some (.ori e (fieldsI w))
  | 0x0F => some (.xori e (fieldsI w))
  | 0x26 => some (.tmstart e (fieldsI w))
  | 0x27 => some (.tmstop e (fieldsI w))
  | 0x34 => some (.raise e (fieldsI w))
  | 0x1C => some (.ld e (fieldsM w))
  | 0x1D => some (.st e (fieldsM w))
  | 0x36 => some (.ldls e (fieldsM w))
  | 0x37 => some (.stlq e (fieldsM w))
  | 0x28 => some (.br e (fieldsJ w))
  | 0x29 => some (.bt e (fieldsJ w))
  | 0x2A => some (.bf e (fieldsJ w))
  | 0x2B => some (.call e (fieldsJ w))
  | 0x2D => some (.be e (fieldsJ w))
  | 0x15 => some (.ldi e (fieldsW w))
  | 0x16 => some (.lui e (fieldsW w))
  | 0x17 => some (.ldd e (fieldsW w))
  | 0x20 => some (.ldsA e (fieldsW w))
  | 0x21 => some (.stsA e (fieldsW w))
  | 0x3B => some (.trapi e (fieldsW w))
  | _ => none

/-- A word of the 32-bit form, I[31] = 1, for engine e (R142, R145). -/
def decodeLong (e : Fin 16) (w : BitVec 32) : Option Instr :=
  let op := (w.extractLsb' 25 6).toNat
  let fn := w.extractLsb' 4 6
  match decodeL e (fieldsL w) fn op with
  | some i => some i
  | none => decodeOther e w fn op

/-- A parcel of the 16-bit form, bit [15] = 0, for engine e (R143, R146). -/
def decodeShort (e : Fin 16) (p : BitVec 16) : Option Instr :=
  match (p.extractLsb' 11 4).toNat with
  | 1 => some (.cMov e (fieldsC2 p))
  | 2 => some (.cAdd e (fieldsC2 p))
  | 3 => some (.cSub e (fieldsC2 p))
  | 4 => some (.cAnd e (fieldsC2 p))
  | 5 => some (.cOr e (fieldsC2 p))
  | 6 => some (.cAddi e (fieldsC6 p))
  | 7 => some (.cLdk e (fieldsC6 p))
  | 8 => some (.cLdl e (fieldsC6 p))
  | 9 => some (.cStl e (fieldsC6 p))
  | 10 => some (.cLds e (fieldsC2 p))
  | 11 => some (.cSts e (fieldsC2 p))
  | 13 => some (.cBt e (fieldsC6 p))
  | 14 => some (.cBf e (fieldsC6 p))
  | 12 => some (.cBr e (p.extractLsb' 0 11))
  | 15 =>
    match (p.extractLsb' 6 5).toNat with
    | 0 => some (.cSysNop e (p.extractLsb' 0 6))
    | 1 => some (.cSysRet e (p.extractLsb' 0 6))
    | 2 => some (.cSysEnd e (p.extractLsb' 0 6))
    | 3 => some (.cSysTrap e (p.extractLsb' 0 6))
    | _ => none
  | _ => none

/-- The instruction at which a word begins, with its first parcel as I[31:16] (R141). -/
def decodeSnc (e : Fin 16) (w : BitVec 32) : Option Instr :=
  if w.getLsbD 31 then decodeLong e w else decodeShort e (w.extractLsb' 16 16)

/-! ### The word of an instruction -/

def wordL (op fn : Nat) (f : LForm) : BitVec 32 :=
  1#1 ++ BitVec.ofNat 6 op ++ regBits f.d ++ regBits f.a ++ regBits f.b ++ BitVec.ofNat 6 fn ++ BitVec.ofBool f.qb ++
    BitVec.ofNat 3 f.xf.val
def wordI (op : Nat) (f : IForm) : BitVec 32 := 1#1 ++ BitVec.ofNat 6 op ++ regBits f.d ++ regBits f.a ++ f.imm
def wordM (op : Nat) (f : MForm) : BitVec 32 :=
  1#1 ++ BitVec.ofNat 6 op ++ regBits f.d ++ regBits f.base ++ BitVec.ofNat 2 f.sp.val ++ f.disp
def wordJ (op : Nat) (f : JForm) : BitVec 32 := 1#1 ++ BitVec.ofNat 6 op ++ regBits f.a ++ f.disp
def wordW (op : Nat) (f : WForm) : BitVec 32 := 1#1 ++ BitVec.ofNat 6 op ++ regBits f.d ++ f.imm

/-- A parcel, with zeros where a second parcel would stand. -/
def short (p : BitVec 16) : BitVec 32 := p ++ 0#16
def wordC2 (op : Nat) (f : C2Form) : BitVec 32 :=
  short (0#1 ++ BitVec.ofNat 4 op ++ regBits f.d ++ regBits f.a ++ BitVec.ofBool f.qb)
def wordC6 (op : Nat) (f : C6Form) : BitVec 32 := short (0#1 ++ BitVec.ofNat 4 op ++ regBits f.r ++ f.imm)
def wordSys (sop : Nat) (low : BitVec 6) : BitVec 32 := short (0#1 ++ 15#4 ++ BitVec.ofNat 5 sop ++ low)

/-- The engine of a Synna Code instruction with the word that encodes it; none for the other commands. -/
def encodeSnc : Instr → Option (Fin 16 × BitVec 32)
  | .add e f => some (e, wordL 0x00 0 f)
  | .sub e f => some (e, wordL 0x00 1 f)
  | .mul e f => some (e, wordL 0x00 2 f)
  | .div e f => some (e, wordL 0x00 3 f)
  | .mod e f => some (e, wordL 0x00 4 f)
  | .neg e f => some (e, wordL 0x00 5 f)
  | .abs e f => some (e, wordL 0x00 6 f)
  | .min e f => some (e, wordL 0x00 7 f)
  | .max e f => some (e, wordL 0x00 8 f)
  | .lim e f => some (e, wordL 0x00 9 f)
  | .sqrt e f => some (e, wordL 0x03 0 f)
  | .ln e f => some (e, wordL 0x03 1 f)
  | .exp e f => some (e, wordL 0x03 2 f)
  | .sin e f => some (e, wordL 0x03 3 f)
  | .cos e f => some (e, wordL 0x03 4 f)
  | .atan2 e f => some (e, wordL 0x03 5 f)
  | .eq e f => some (e, wordL 0x08 0 f)
  | .ne e f => some (e, wordL 0x08 1 f)
  | .lt e f => some (e, wordL 0x08 2 f)
  | .le e f => some (e, wordL 0x08 3 f)
  | .gt e f => some (e, wordL 0x08 4 f)
  | .ge e f => some (e, wordL 0x08 5 f)
  | .unord e f => some (e, wordL 0x08 6 f)
  | .and e f => some (e, wordL 0x0C 0 f)
  | .or e f => some (e, wordL 0x0C 1 f)
  | .xor e f => some (e, wordL 0x0C 2 f)
  | .not e f => some (e, wordL 0x0C 3 f)
  | .andn e f => some (e, wordL 0x0C 4 f)
  | .shl e f => some (e, wordL 0x0C 5 f)
  | .shr e f => some (e, wordL 0x0C 6 f)
  | .sar e f => some (e, wordL 0x0C 7 f)
  | .rol e f => some (e, wordL 0x0C 8 f)
  | .ror e f => some (e, wordL 0x0C 9 f)
  | .popc e f => some (e, wordL 0x0C 10 f)
  | .clz e f => some (e, wordL 0x0C 11 f)
  | .btst e f => some (e, wordL 0x10 0 f)
  | .bset e f => some (e, wordL 0x10 1 f)
  | .bclr e f => some (e, wordL 0x10 2 f)
  | .bput e f => some (e, wordL 0x10 3 f)
  | .mov e f => some (e, wordL 0x14 0 f)
  | .sel e f => some (e, wordL 0x14 1 f)
  | .typeof e f => some (e, wordL 0x19 0 f)
  | .qualof e f => some (e, wordL 0x19 1 f)
  | .isgood e f => some (e, wordL 0x19 2 f)
  | .flags e f => some (e, wordL 0x19 3 f)
  | .isempty e f => some (e, wordL 0x19 4 f)
  | .qset e f => some (e, wordL 0x1A 0 f)
  | .qworse e f => some (e, wordL 0x1A 1 f)
  | .subst e f => some (e, wordL 0x1A 2 f)
  | .raws e f => some (e, wordL 0x1B 0 f)
  | .rawu e f => some (e, wordL 0x1B 1 f)
  | .sflg e f => some (e, wordL 0x1B 2 f)
  | .scale e f => some (e, wordL 0x1B 3 f)
  | .lds e f => some (e, wordL 0x22 0 f)
  | .sts e f => some (e, wordL 0x22 1 f)
  | .ldsx e f => some (e, wordL 0x22 2 f)
  | .stsx e f => some (e, wordL 0x22 3 f)
  | .sdesc e f => some (e, wordL 0x22 4 f)
  | .ton e f => some (e, wordL 0x24 0 f)
  | .tof e f => some (e, wordL 0x24 1 f)
  | .tp e f => some (e, wordL 0x24 2 f)
  | .ctu e f => some (e, wordL 0x25 0 f)
  | .ctd e f => some (e, wordL 0x25 1 f)
  | .crst e f => some (e, wordL 0x25 2 f)
  | .cld e f => some (e, wordL 0x25 3 f)
  | .jr e f => some (e, wordL 0x2C 0 f)
  | .callr e f => some (e, wordL 0x2C 1 f)
  | .ret e f => some (e, wordL 0x2C 2 f)
  | .tbread e f => some (e, wordL 0x30 0 f)
  | .tbtick e f => some (e, wordL 0x30 1 f)
  | .rtct e f => some (e, wordL 0x30 2 f)
  | .rtcd e f => some (e, wordL 0x30 3 f)
  | .lin e f => some (e, wordL 0x31 0 f)
  | .raiser e f => some (e, wordL 0x35 0 f)
  | .logev e f => some (e, wordL 0x35 1 f)
  | .lbtst e f => some (e, wordL 0x38 0 f)
  | .lbput e f => some (e, wordL 0x38 1 f)
  | .lbputq e f => some (e, wordL 0x38 2 f)
  | .lgon e f => some (e, wordL 0x39 0 f)
  | .lgoff e f => some (e, wordL 0x39 1 f)
  | .lgcry e f => some (e, wordL 0x39 2 f)
  | .lgclr e f => some (e, wordL 0x39 3 f)
  | .nop e f => some (e, wordL 0x3A 0 f)
  | .endAct e f => some (e, wordL 0x3A 1 f)
  | .trap e f => some (e, wordL 0x3A 2 f)
  | .rdstat e f => some (e, wordL 0x3A 3 f)
  | .wrstat e f => some (e, wordL 0x3A 4 f)
  | .rdfeat e f => some (e, wordL 0x3A 5 f)
  | .cvt e fn f => some (e, wordL 0x18 fn.toNat f)
  | .addi e f => some (e, wordI 0x01 f)
  | .muli e f => some (e, wordI 0x02 f)
  | .ceqi e f => some (e, wordI 0x09 f)
  | .clti e f => some (e, wordI 0x0A f)
  | .cgti e f => some (e, wordI 0x0B f)
  | .andi e f => some (e, wordI 0x0D f)
  | .ori e f => some (e, wordI 0x0E f)
  | .xori e f => some (e, wordI 0x0F f)
  | .tmstart e f => some (e, wordI 0x26 f)
  | .tmstop e f => some (e, wordI 0x27 f)
  | .raise e f => some (e, wordI 0x34 f)
  | .ld e f => some (e, wordM 0x1C f)
  | .st e f => some (e, wordM 0x1D f)
  | .ldls e f => some (e, wordM 0x36 f)
  | .stlq e f => some (e, wordM 0x37 f)
  | .br e f => some (e, wordJ 0x28 f)
  | .bt e f => some (e, wordJ 0x29 f)
  | .bf e f => some (e, wordJ 0x2A f)
  | .call e f => some (e, wordJ 0x2B f)
  | .be e f => some (e, wordJ 0x2D f)
  | .ldi e f => some (e, wordW 0x15 f)
  | .lui e f => some (e, wordW 0x16 f)
  | .ldd e f => some (e, wordW 0x17 f)
  | .ldsA e f => some (e, wordW 0x20 f)
  | .stsA e f => some (e, wordW 0x21 f)
  | .trapi e f => some (e, wordW 0x3B f)
  | .cMov e f => some (e, wordC2 1 f)
  | .cAdd e f => some (e, wordC2 2 f)
  | .cSub e f => some (e, wordC2 3 f)
  | .cAnd e f => some (e, wordC2 4 f)
  | .cOr e f => some (e, wordC2 5 f)
  | .cAddi e f => some (e, wordC6 6 f)
  | .cLdk e f => some (e, wordC6 7 f)
  | .cLdl e f => some (e, wordC6 8 f)
  | .cStl e f => some (e, wordC6 9 f)
  | .cLds e f => some (e, wordC2 10 f)
  | .cSts e f => some (e, wordC2 11 f)
  | .cBt e f => some (e, wordC6 13 f)
  | .cBf e f => some (e, wordC6 14 f)
  | .cBr e d => some (e, short (0#1 ++ 12#4 ++ d))
  | .cSysNop e low => some (e, wordSys 0 low)
  | .cSysRet e low => some (e, wordSys 1 low)
  | .cSysEnd e low => some (e, wordSys 2 low)
  | .cSysTrap e low => some (e, wordSys 3 low)
  | _ => none

/-! ### Fetch -/

/-- The word whose first parcel lies at an address of the running generation's code (R141). -/
def fetchWord (s : State) (pc : Nat) : BitVec 32 :=
  (parcel s pc).getD 0 ++ (parcel s (pc + 2)).getD 0

/-- The instruction that engine e fetches at an address: none where it traps ILLEGAL, for a code that no table assigns, or for 32 bits
that straddle two pages (R141, R145, R146, R164). -/
def codeAt (s : State) (e pc : Nat) : Option Instr :=
  let w := fetchWord s pc
  if w.getLsbD 31 && pc % 4096 == 4094 then none else decodeSnc (Fin.ofNat 16 e) w

/-- The lines from which the word is read pass the checks that the engine makes (R200). -/
def fetchPasses (s : State) (pc : Nat) : Bool :=
  (fetchLine s pc).all lineIntact &&
    (!(fetchWord s pc).getLsbD 31 || pc % 4096 == 4094 || (fetchLine s (pc + 2)).all lineIntact)

end Sys2Proof.Machine
end

