-- ==== Sys2Proof/Machine/Run.lean ====
section
/-! DEFINITION. How an engine, or a compare pair, carries out one instruction: fetch checks (R141, R148), operations on what lies
outside the engine (R301), completion, traps (R150, R309), ends (R304), mismatches (R312, R313) and commits (R303). -/

namespace Sys2Proof.Machine

/-! ### The plan of an instruction -/

/-- The plan of a Synna Code instruction; any other command has none. -/
def sncPlan (i : Instr) (v : View) : Plan :=
  let l := v.g.lgc
  match i with
  | .add _ f => plan2 v f true (aluAdd l) (cyc 1 3)
  | .sub _ f => plan2 v f true (aluSub l) (cyc 1 3)
  | .mul _ f => plan2 v f true (aluMul l) (cyc 3 4)
  | .div _ f => plan2 v f true (aluDiv l) (cyc 18 14)
  | .mod _ f => plan2 v f true (aluMod l) (cyc 18 18)
  | .neg _ f => plan1 v f true (aluNeg l) (cyc 1 1)
  | .abs _ f => plan1 v f true (aluAbs l) (cyc 1 1)
  | .min _ f => plan2 v f true (aluMin l) (cyc 1 2)
  | .max _ f => plan2 v f true (aluMax l) (cyc 1 2)
  | .lim _ f => plan3 v f true (aluLim l) (cyc 2 3)
  | .addi _ f => planI v f (aluAddi l (immWord f.imm)) 1
  | .muli _ f => planI v f (aluMuli l (immWord f.imm)) 3
  | .sqrt _ f => plan1 v f true (aluReal1 fSqrt) (cyc 16 16)
  | .ln _ f => plan1 v f true (aluReal1 fLn) (cyc 40 40)
  | .exp _ f => plan1 v f true (aluReal1 fExpE) (cyc 40 40)
  | .sin _ f => plan1 v f true (aluReal1 fSin) (cyc 48 48)
  | .cos _ f => plan1 v f true (aluReal1 fCos) (cyc 48 48)
  | .atan2 _ f => plan2 v f true aluAtan2 (cyc 56 56)
  | .eq _ f => planCmp v f (aluCompare eqTypes tEq)
  | .ne _ f => planCmp v f (aluCompare eqTypes tNe)
  | .lt _ f => planCmp v f (aluCompare ordTypes tLt)
  | .le _ f => planCmp v f (aluCompare ordTypes tLe)
  | .gt _ f => planCmp v f (aluCompare ordTypes tGt)
  | .ge _ f => planCmp v f (aluCompare ordTypes tGe)
  | .unord _ f => plan2 v f true aluUnord (fun _ => 2)
  | .ceqi _ f => planI v f (aluCompareImm tEq (immWord f.imm)) 1
  | .clti _ f => planI v f (aluCompareImm tLt (immWord f.imm)) 1
  | .cgti _ f => planI v f (aluCompareImm tGt (immWord f.imm)) 1
  | .and _ f => plan2 v f true (aluLogic (· &&& ·)) (cyc 1 1)
  | .or _ f => plan2 v f true (aluLogic (· ||| ·)) (cyc 1 1)
  | .xor _ f => plan2 v f true (aluLogic (· ^^^ ·)) (cyc 1 1)
  | .not _ f => plan1 v f true aluNot (cyc 1 1)
  | .andn _ f => plan2 v f true (aluLogic (fun a b => a &&& ~~~b)) (cyc 1 1)
  | .shl _ f => plan2 v f true (aluShl l) (cyc 1 1)
  | .shr _ f => plan2 v f true (aluShr l) (cyc 1 1)
  | .sar _ f => plan2 v f true (aluSar l) (cyc 1 1)
  | .rol _ f => plan2 v f true (aluRol l) (cyc 1 1)
  | .ror _ f => plan2 v f true (aluRor l) (cyc 1 1)
  | .popc _ f => plan1 v f true aluPopc (cyc 2 2)
  | .clz _ f => plan1 v f true aluClz (cyc 2 2)
  | .andi _ f => planI v f (aluLogicImm (· &&& ·) (immWord f.imm)) 1
  | .ori _ f => planI v f (aluLogicImm (· ||| ·) (immWord f.imm)) 1
  | .xori _ f => planI v f (aluLogicImm (· ^^^ ·) (immWord f.imm)) 1
  | .btst _ f => plan2 v f true aluBtst (cyc 1 1)
  | .bset _ f => plan2 v f true aluBset (cyc 1 1)
  | .bclr _ f => plan2 v f true aluBclr (cyc 1 1)
  | .bput _ f => plan3 v f true aluBput (cyc 2 2)
  | .mov _ f => planMov v f
  | .sel _ f => planSel v f
  | .ldi _ f => planLdi f
  | .lui _ f => planLui f
  | .ldd _ f => planLdd f
  | .typeof _ f => planDescribe v f Ty.int (fun w => w.ty.zeroExtend 32)
  | .qualof _ f => planDescribe v f Ty.int qualOf
  | .isgood _ f => planDescribe v f Ty.bool (fun w => boolWord (w.q == Q.good && w.ty != Ty.poison))
  | .flags _ f => planDescribe v f Ty.word flagsOf
  | .isempty _ f => planDescribe v f Ty.bool (fun w => boolWord (w.ty == Ty.empty))
  | .qset _ f => planQuality v f (fun _ q => q)
  | .qworse _ f => planQuality v f (fun a q => worse a.q q)
  | .subst _ f => planSubst v f
  | .cvt _ fn f => planCvt v fn f
  | .raws _ f => plan1 v f true aluRaws (cyc 1 1)
  | .rawu _ f => plan1 v f true aluRawu (cyc 1 1)
  | .sflg _ f => plan1 v f true aluSflg (cyc 1 1)
  | .scale _ f => planScale v f
  | .ld _ f => planLd v f
  | .st _ f => planSt v f
  | .ldsA _ f => planLdsA v f
  | .stsA _ f => planStsA v f
  | .lds _ f => planLds v f
  | .sts _ f => planSts v f
  | .ldsx _ f => planIndexed v f false
  | .stsx _ f => planIndexed v f true
  | .sdesc _ f => planSdesc v f
  | .br _ f => planBr v f
  | .bt _ f => condBranch v f.a f.disp.toInt true
  | .bf _ f => condBranch v f.a f.disp.toInt false
  | .call _ f => planCall v f
  | .be _ f => planBe v f
  | .jr _ f => planJr v f
  | .callr _ f => planCallr v f
  | .ret _ f => planRet v f
  | .ton _ f => planTimer v f stepTon
  | .tof _ f => planTimer v f stepTof
  | .tp _ f => planTimer v f stepTp
  | .ctu _ f => planCounter v f true nextCtu reachesPv
  | .ctd _ f => planCounter v f true nextCtd reachesZero
  | .crst _ f => planCounter v f false nextCrst reachesPv
  | .cld _ f => planCounter v f false nextCld reachesZero
  | .tmstart _ f => planEventTimer v f true
  | .tmstop _ f => planEventTimer v f false
  | .tbread _ f => planTbread v f
  | .tbtick _ f => planTbtick v f
  | .rtct _ f => planRtct v f
  | .rtcd _ f => planRtcd v f
  | .lin _ f => planLin v f
  | .raise _ f => planRaise v f
  | .raiser _ f => planRaiser v f
  | .logev _ f => planLogev v f
  | .ldls _ f => planLdls v f
  | .stlq _ f => planStlq v f
  | .lbtst _ f => planLbtst v f
  | .lbput _ f => planLbput v f false
  | .lbputq _ f => planLbput v f true
  | .lgon _ f => planLgon f
  | .lgoff _ f => planLgoff f
  | .lgcry _ f => planLgcry v f
  | .lgclr _ f => planLgclr f
  | .nop _ f => planNop f
  | .endAct _ f => planEnd f
  | .trap _ f => planTrap f
  | .rdstat _ f => planRdstat v f
  | .wrstat _ f => planWrstat v f
  | .rdfeat _ f => planRdfeat f
  | .trapi _ f => planTrapi f
  | .cMov _ f => planCMov v f
  | .cAdd _ f => plan2 v (c2L f) true (aluAdd l) (cyc 1 3)
  | .cSub _ f => plan2 v (c2L f) true (aluSub l) (cyc 1 3)
  | .cAnd _ f => plan2 v (c2L f) true (aluLogic (· &&& ·)) (cyc 1 1)
  | .cOr _ f => plan2 v (c2L f) true (aluLogic (· ||| ·)) (cyc 1 1)
  | .cAddi _ f => planCAddi v f
  | .cLdk _ f => planCLdk f
  | .cLdl _ f => planCLdl v f
  | .cStl _ f => planCStl v f
  | .cLds _ f => planCLds v f
  | .cSts _ f => planCSts v f
  | .cBr _ d => planCBr v d
  | .cBt _ f => planCBt v f
  | .cBf _ f => planCBf v f
  | .cSysNop _ low => sysForm low (.done {})
  | .cSysRet _ low => sysForm low (throughRef v (nth TWord.empty v.g.regs 31) none)
  | .cSysEnd _ low => sysForm low (.done { ends := true, cycles := 2 })
  | .cSysTrap _ low => sysForm low (.stop cExplicit 0 2)
  | _ => .stop cIllegal 0 1

/-- The instruction is one parcel long (R141, R146). -/
def shortForm (i : Instr) : Bool :=
  match i with
  | .cMov _ _ | .cAdd _ _ | .cSub _ _ | .cAnd _ _ | .cOr _ _ | .cAddi _ _ | .cLdk _ _ | .cLdl _ _ | .cStl _ _
  | .cLds _ _ | .cSts _ _ | .cBr _ _ | .cBt _ _ | .cBf _ _ | .cSysNop _ _ | .cSysRet _ _ | .cSysEnd _ _
  | .cSysTrap _ _ => true
  | _ => false

def lengthOf (i : Instr) : Nat := if shortForm i then 2 else 4

/-- The plan with the checks of the fetch: a page off the task's list traps CODE, a damaged context POISON, and code that spells no
instruction, or straddles two pages, ILLEGAL (R141, R145, R146, R148, R164, R417). -/
def fetched (i : Instr) (v : View) : Plan :=
  if !v.d.pages.contains (v.g.pc / 4096) then .stop cCode 0 1
  else if v.g.ctxBad then .stop cPoison 0 1
  else if (codeAt v.s v.e v.g.pc).isNone then illegal
  else sncPlan i v

/-- Instruction i is what the engine meets at its program counter: what the code there spells, or anything where a fetch traps
(R141, R148; log entry 11). -/
def meets (i : Instr) (v : View) : Bool :=
  !v.d.pages.contains (v.g.pc / 4096) || (codeAt v.s v.e v.g.pc).all (· == i)

/-! ### The engine's view -/

/-- The view of engine e, which runs an activation of the running generation. -/
def viewOf (s : State) (e : Nat) : Option View :=
  let g := getEng s e
  match g.task, s.chg.running with
  | some n, some p => (p.tasks[n]?).map (fun d => ⟨s, g, p, d, e⟩)
  | _, _ => none

/-- CORE ticks of an engine in units of 1/6 ns at its clock class (R122, R357). -/
def coreUnits (s : State) (n cycles : Nat) : Nat :=
  5 * cycles * (if (getTask s n).sched.elastic then 2 ^ s.energy.cls else 1)

/-! ### Operations on what lies outside the engine (R301) -/

/-- The timebase shadow of an engine at the present instant, at most 8 ns old: how old is a free value (R18, log entry 3). -/
def shadowUs (e : Nat) (s : State) : Word × State :=
  let (x, s1) := draw 4 s
  (BitVec.ofNat 32 ((ptpNs s1 (engineNow s1 e) - x.toNat % 9) / 1000), s1)

/-- A program trigger of a task number (R187): outcome 4 when it names no event task. -/
def raiseTask (n : Nat) (w : TWord) (s : State) : Nat × State :=
  if n < 64 ∧ (getTask s n).sched.kind = 2 then fireTrigger n 6 s.dev.now { w with q := Q.good, forced := false, sub := false } s
  else (4, s)

/-- R113 permits a timer start: the device releases tasks, and the task may be triggered. -/
def timerAllowed (s : State) (n : Nat) : Bool :=
  let t := getTask s n
  t.sched.kind == 2 && t.sched.trigger == 4 && releases s &&
    !(t.st == .suspended || t.st == .halted || t.st == .disabled)

/-- Start a timer with the delay of the scheduling record (R185), with the lead load it may need (R196). -/
def startTimer (n : Nat) (s : State) : State :=
  timerLead n (onTask n (fun t => { t with timer := some (s.dev.now + 6000 * t.sched.delay) }) s)

/-- The legacy word after a store or a bit put. -/
def setLegacy (a : Nat) (w : BitVec 16) (s : State) : State :=
  mirror (.legacy a [w])
    (onMem (fun m =>
      { m with legacy := writeAt 0#16 m.legacy a w, legacyBad := m.legacyBad.filter (fun x => x != a) }) s)

/-- Time from the issue of an operation to the completion of an instruction of so many cycles; none where a pair resolves it. -/
def afterIssue (s : State) (n cycles : Nat) : Nat := if (getTask s n).sched.dual then 0 else coreUnits s n cycles

/-- One operation of the activation of task n on engine e: its result word, FABRIC ticks waited, the state. A release that it raises
and a timer that it starts have the instant at which the instruction completes, 12 and 8 cycles on (R109, R185, R187), or for a pair
that of the resolution (R301). -/
def perform (n e : Nat) (op : XOp) (s : State) : TWord × Nat × State :=
  match op with
  | .readData a => (readData s a, 0, s)
  | .readSlot a => (slotForTask s a, 0, s)
  | .readDesc a k => (.mk0 Ty.word (BitVec.ofNat 32 (le (descBytes (descOf s a) (forceOf s a).isSome) (4 * k) 4)), 0, s)
  | .readLegacy a => (.mk0 Ty.word ((readAt 0#16 s.mem.legacy a).zeroExtend 32), 0, s)
  | .writeSlot a w =>
    let r := writeRunning a w s
    let fires := !(changeTasks r.2 a (effWord s a) (effWord r.2 a)).isEmpty
    let t := withTriggers [a] (fun _ => if fires then advance (engineNow s e) r.2 else r.2) s
    (w, r.1, onAct n (fun x => if (descOf s a).dir = 2 then { x with writes := insertAt x.writes a w } else x)
      (if fires then dispatch t else t))
  | .writeLegacy a w => (w, 0, setLegacy a (w.payload.extractLsb' 0 16) s)
  | .putLegacyBit a k w =>
    let old := readAt 0#16 s.mem.legacy a
    (w, 0, setLegacy a (if w.payload = 0 then old &&& ~~~(1#16 <<< k) else old ||| (1#16 <<< k)) s)
  | .raise t w =>
    let r := raiseTask t w (advance (engineNow s e + afterIssue s n 12) s)
    (.mk0 Ty.int (BitVec.ofNat 32 r.1), 0, dispatch r.2)
  | .timerStart t =>
    if t < 64 && timerAllowed s t then (.mk0 Ty.bool 1, 0, startTimer t (advance (engineNow s e + afterIssue s n 8) s))
    else (.mk0 Ty.bool 0, 0, s)
  | .timerStop t =>
    if t < 64 && timerAllowed s t then (.mk0 Ty.bool 1, 0, onTask t (fun x => { x with timer := none }) s)
    else (.mk0 Ty.bool 0, 0, s)
  | .logEvent c w =>
    (w, 0, logHw 0x1008 (keyed (leBytes 2 c.toNat ++ [b8 n, 0] ++ leBytes 4 (runningGen s)) (entry w 0))
      (advance (engineNow s e) s))
  | .timeNow =>
    let r := shadowUs e s
    (.mk0 Ty.stamp r.1, 0, r.2)
  | .trapped _ | .ended | .bufferFull => (TWord.empty, 0, s)

/-! ### Local store -/

/-- A local word as the engine holds it; one that nothing has written in the activation is undefined (R138): a free value,
which then stays (log entry 3). -/
def readLocal (e a : Nat) (s : State) : TWord × State :=
  match look (getEng s e).loc a with
  | some w => (w, s)
  | none =>
    let (x, s1) := draw 40 s
    (TWord.ofBits x, onEng e (fun g => { g with loc := insertAt g.loc a (TWord.ofBits x) }) s1)

/-! ### Completion -/

def setReg (g : Engine) (i : Nat) (w : TWord) : Engine :=
  if i = 0 then g else { g with regs := g.regs.set i w }

/-- The engine after an instruction of n bytes that completes. -/
def applyEngine (n : Nat) (f : Effect) (units : Nat) (g : Engine) : Engine :=
  let g1 := match f.link with
    | some w => setReg g 31 w
    | none => g
  let g2 := match f.dst with
    | some (i, w) => setReg g1 i w
    | none => g1
  let g3 := match f.loc with
    | some (a, w) => { g2 with loc := insertAt g2.loc a w }
    | none => g2
  let g4 := match f.marked with
    | some c => countMark c g3
    | none => g3
  { g4 with
    pc := f.target.getD (g.pc + n)
    lgc := f.lgc.getD g4.lgc
    lgcCarry := (g4.lgcCarry || f.carry) && !f.clearCarry
    clk := g4.clk + units
    retired := g4.retired + 1
    issued := none
    results := []
    stepOne := false }

/-- Data writes of a single engine, one after the other; FABRIC ticks waited and the state (R364). -/
def writeAll : List (Nat × TWord) → State → Nat × State
  | [], s => (0, s)
  | (a, w) :: r, s =>
    let x := writeData true a w s
    let y := writeAll r x.2
    (x.1 + y.1, y.2)

/-- TRAP_END and TRAP_MARK (R150, R455). -/
def recordTrap (underEnd : Bool) (n e cause pc user : Nat) (s : State) : State :=
  logHw (if underEnd then 0x1004 else 0x1005)
    (keyed ([b8 n, b8 cause, b8 e, 0] ++ leBytes 4 (runningGen s)) (leBytes 4 pc ++ leBytes 4 user)) s

/-- A data write of a pair goes into the engine's commit buffer, a single engine's into data memory (R303). -/
def commitData (paired : Bool) (e : Nat) (ws : List (Nat × TWord)) (s : State) : Nat × State :=
  if paired then (0, onEng e (fun g => { g with buf := g.buf ++ ws }) s) else writeAll ws s

/-- An instruction of task n completes on engine e. -/
def complete (paired : Bool) (n e len : Nat) (f : Effect) (s : State) : State :=
  let r := commitData paired e f.data s
  let s1 := onEng e (applyEngine len f (coreUnits s n f.cycles + 10 * r.1)) r.2
  match f.marked with
  | some c =>
    if (getEng s e).markCount = 0 && (!paired || e % 2 == 0) then recordTrap false n e c (getEng s e).pc 0 s1 else s1
  | none => s1

/-- A trap under END on a single engine or an agreeing pair (R150): substitutes, the record, the end of the activation. -/
def trapEnd (n e cause user units : Nat) (s : State) : State :=
  let pc := (getEng s e).pc
  let stop := fun (g : Engine) => { g with clk := g.clk + units, issued := none, results := [], stepOne := false }
  let s1 := (enginesOf s n).foldl (fun t x => onEng x stop t) s
  settle (endActivation n none (recordTrap true n e cause pc user (substituteDeclared n s1)))

/-! ### Pairs: mismatch and commit -/

/-- Event data that continue in a second record carry the rest behind the first 24 bytes (R443). -/
def mismatchData (n k reason target pcA pcB nth' : Nat) (rest : Bytes) : Bytes :=
  sliceZ (keyed ([b8 n, b8 k, b8 reason, 0] ++ leBytes 4 target) (fields [(4, pcA), (4, pcB), (4, nth')])) 0 24 ++ rest

/-- PAIR_FAULT_N falls with the pair's fault bit (R313, R314, R535). -/
def setDualFault (k : Nat) (s : State) : State :=
  setCause 4 (onScan (fun x => { x with dualFault := x.dualFault ||| (1#8 <<< k) }) s)

/-- A mismatch of pair k (R313). -/
def mismatch (n k reason target nth' : Nat) (rest : Bytes) (s : State) : State :=
  let pcA := (getEng s (2 * k)).pc
  let pcB := (getEng s (2 * k + 1)).pc
  let drop := fun (g : Engine) => { g with buf := [], issued := none, results := [] }
  let s1 := onEng (2 * k + 1) drop (onEng (2 * k) drop s)
  let s2 := haltTask n 2 s1
  let s3 := setDualFault k (onScan (fun x =>
    { x with mismatches := satTo 0xFFFF (x.mismatches + 1), verified := x.verified &&& ~~~(1#8 <<< k) }) s2)
  settle (setPair k .verifying (logHw 0x1006 (mismatchData n k reason target pcA pcB nth' rest) s3))

/-- Both words of a mismatch, 5 bytes each (R455). -/
def bothWords (a b : TWord) : Bytes := leBytes 4 a.payload.toNat ++ [a.tag] ++ leBytes 4 b.payload.toNat ++ [b.tag]

/-- The first entry at which two commit buffers differ (R303). -/
def bufferDiff : Nat → List (Nat × TWord) → List (Nat × TWord) → Option (Nat × Nat × TWord × TWord)
  | _, [], [] => none
  | i, (a, w) :: r, (b, x) :: q => if a = b ∧ w = x then bufferDiff (i + 1) r q else some (i, a, w, x)
  | i, (a, w) :: _, [] => some (i, a, w, TWord.empty)
  | i, [], (b, x) :: _ => some (i, b, TWord.empty, x)

/-- Compare the buffers of pair k and commit them, or mismatch with reason DATA (R303); true when they agreed. -/
def commitPair (n k : Nat) (s : State) : Bool × State :=
  match bufferDiff 1 (getEng s (2 * k)).buf (getEng s (2 * k + 1)).buf with
  | some (i, a, w, x) => (false, mismatch n k 4 a i (bothWords w x) s)
  | none =>
    let ws := (getEng s (2 * k)).buf
    let units := if ws.isEmpty then 0 else 10 * (8 + (ws.length + 1) / 2)
    let r := writeAll ws s
    let clear := fun (g : Engine) => { g with buf := [], clk := g.clk + units + 10 * r.1 }
    (true, onEng (2 * k + 1) clear (onEng (2 * k) clear r.2))

/-- The DISCREPANCY counters at the end of a pair's activation (R308): the first slot that passes its limit, and the state. -/
def discrepancies (k : Nat) : List (Nat × TWord) → State → Option (Nat × TWord × TWord) × State
  | [], s => (none, s)
  | (a, w) :: r, s =>
    let x := readAt w (getEng s (2 * k + 1)).discWrites a
    let c := if w = x then 0 else readAt 0 s.img.disc a + 1
    let s1 := mirror (.discrepancy a (satTo 255 c)) (onImg (fun i => { i with disc := writeAt 0 i.disc a (satTo 255 c) }) s)
    let y := discrepancies k r s1
    if (descOf s a).cmpParam < c then (some (a, w, x), y.2) else y

/-- The budget expires in the final commit of pair k (R118, R304): of the entries those stay that have been written by then, 2 in a
FABRIC tick after the first 8; the others are discarded (R311). -/
def cutCommit (n k : Nat) (s : State) : State :=
  let g := getEng s (2 * k)
  let left := 600 * (getTask s n).sched.budget - engineTime s n (engineNow s (2 * k))
  let s1 := (writeAll (g.buf.take (2 * (left - 8))) s).2
  let cut := fun (x : Engine) => { x with buf := [], clk := x.clk + 10 * left }
  expireBudget n (onEng (2 * k + 1) cut (onEng (2 * k) cut s1))

/-- The activation of pair k has reached its end: the counters of R308, the final commit, and what ends it (R303, R304). -/
def finalCommit (n k : Nat) (finish : State → State) (s : State) : State :=
  match discrepancies k (getEng s (2 * k)).discWrites s with
  | (some (a, w, x), s1) => mismatch n k 2 a 0 (bothWords w x) s1
  | (none, s1) =>
    let c := commitPair n k s1
    if !c.1 then c.2
    else if budgetReached c.2 n (engineNow c.2 (2 * k)) then cutCommit n k s1
    else finish c.2

/-- Both engines of pair k have executed END (R304, R308). -/
def endPair (n k : Nat) : State → State := finalCommit n k (fun s => settle (endActivation n none s))

/-! ### Pairs: comparison (R301, R305 to R307) -/

/-- Difference of two payloads for TOLERANT; none when outside every tolerance (R306). -/
def tolerance (a b : TWord) : Option Nat :=
  if a.ty ≠ b.ty then none
  else if a.ty = Ty.int ∨ a.ty = Ty.duration then some (a.payload.toInt - b.payload.toInt).natAbs
  else if a.ty = Ty.word then some ((a.payload.toNat : Int) - (b.payload.toNat : Int)).natAbs
  else if a.ty = Ty.stamp then some (a.payload - b.payload).toInt.natAbs
  else if a.ty = Ty.real then (if fIsNan a.payload || fIsNan b.payload then none else some (fDistance a.payload b.payload))
  else if a.ty = Ty.sample16 then
    if a.payload.extractLsb' 16 16 = b.payload.extractLsb' 16 16 then
      some (((a.payload.extractLsb' 0 16).toNat : Int) - ((b.payload.extractLsb' 0 16).toNat : Int)).natAbs
    else none
  else if a.payload = b.payload then some 0 else none

/-- The merged word of two image writes, or none for a mismatch VALUE (R305, R307). -/
def merged (d : SlotDesc) (a b : TWord) : Option TWord :=
  let m : TWord := { a with q := worse a.q b.q, forced := a.forced || b.forced, sub := a.sub || b.sub }
  if a = b && !(d.cmpClass == 1 && a.ty == Ty.real && fIsNan a.payload) then some a
  else match d.cmpClass with
    | 1 => match tolerance a b with
      | some n => if n ≤ d.cmpParam then some m else none
      | none => none
    | 2 => some { m with q := worse m.q Q.uncertain }
    | _ => none

/-- Kind and target of an operation (R301): what must agree before words are compared. -/
def opKey : XOp → Nat × Nat × Nat
  | .readData a => (0, a, 0)
  | .readSlot a => (1, a, 0)
  | .readDesc a k => (2, a, k)
  | .readLegacy a => (3, a, 0)
  | .writeSlot a _ => (4, a, 0)
  | .writeLegacy a _ => (5, a, 0)
  | .putLegacyBit a _ _ => (6, a, 0)
  | .raise t _ => (7, t, 0)
  | .timerStart t => (8, t, 0)
  | .timerStop t => (9, t, 0)
  | .logEvent _ _ => (10, 0, 0)
  | .timeNow => (11, 0, 0)
  | .trapped _ => (12, 0, 0)
  | .ended => (13, 0, 0)
  | .bufferFull => (14, 0, 0)

/-- The word an operation carries. -/
def opWord : XOp → TWord
  | .writeSlot _ w | .writeLegacy _ w | .putLegacyBit _ _ w | .raise _ w | .logEvent _ w => w
  | _ => TWord.empty

/-- The operation that takes place when both engines have issued theirs: none for a mismatch VALUE. -/
def agreed (s : State) (a b : XOp) : Option XOp :=
  match a, b with
  | .writeSlot x w, .writeSlot _ y => (merged (descOf s x) w y).map (XOp.writeSlot x)
  | _, _ => if a = b then some a else none

/-- The engine stands at an operation of its instruction. -/
def issue (e : Nat) (op : XOp) (i : Instr) : State → State := onEng e (fun g => { g with issued := some (op, i) })

/-- The newest word buffered for an address (R303). -/
def buffered (g : Engine) (a : Nat) : Option TWord := (g.buf.reverse.find? (fun x => x.1 == a)).map (·.2)

/-! ### One engine to its next compared operation -/

/-- The data words of an instruction that are not in the commit buffer yet. -/
def wordsLeft (g : Engine) (f : Effect) : List (Nat × TWord) := f.data.drop g.written

/-- The engine stops before a data write for which its buffer has no room (R303). -/
def bufferStops (g : Engine) (f : Effect) : Bool := decide (8192 < g.buf.length + (wordsLeft g f).length)

/-- The words for which there is still room go into the buffer. -/
def fillBuffer (e : Nat) (f : Effect) : State → State :=
  onEng e (fun g =>
    let l := (wordsLeft g f).take (8192 - g.buf.length)
    { g with buf := g.buf ++ l, written := g.written + l.length })

def pushResult (e : Nat) (w : TWord) : State → State := onEng e (fun g => { g with results := g.results ++ [w] })

/-- Engine e of a pair goes on with an instruction until it issues an operation or completes. -/
def runPaired (n e : Nat) (i : Instr) : Nat → State → State
  | 0, s => s
  | k + 1, s =>
    match viewOf s e with
    | none => s
    | some v =>
      match fetched i v with
      | .local' a => let r := readLocal e a s; runPaired n e i k (pushResult e r.1 r.2)
      | .shadow => let r := shadowUs e s; runPaired n e i k (pushResult e (.mk0 Ty.stamp r.1) r.2)
      | .need op =>
        match op with
        | .readData a =>
          match buffered v.g a with
          | some w => runPaired n e i k (pushResult e w s)
          | none => issue e op i s
        | _ => issue e op i s
      | .stop c _ _ => issue e (.trapped c) i s
      | .done f =>
        match f.marked with
        | some c => issue e (.trapped c) i s
        | none =>
          if f.ends then issue e .ended i s
          else if bufferStops v.g f then issue e .bufferFull i (fillBuffer e f s)
          else complete true n e (lengthOf i) { f with data := wordsLeft v.g f } s

/-- Engine e, alone, carries an instruction out. -/
def runAlone (n e : Nat) (i : Instr) : Nat → State → State
  | 0, s => s
  | k + 1, s =>
    match viewOf s e with
    | none => s
    | some v =>
      match fetched i v with
      | .local' a => let r := readLocal e a s; runAlone n e i k (pushResult e r.1 r.2)
      | .shadow => let r := shadowUs e s; runAlone n e i k (pushResult e (.mk0 Ty.stamp r.1) r.2)
      | .need op =>
        let r := perform n e op s
        runAlone n e i k (onEng e (fun g => { g with clk := g.clk + 10 * r.2.1 }) (pushResult e r.1 r.2.2))
      | .stop c u cy => trapEnd n e c u (coreUnits s n cy) s
      | .done f =>
        let s1 := complete false n e (lengthOf i) f s
        if f.ends then settle (endActivation n none s1) else s1

/-! ### Two engines -/

/-- The larger engine time counts for both (R299). -/
def levelClocks (k extra : Nat) (s : State) : State :=
  let c := max (getEng s (2 * k)).clk (getEng s (2 * k + 1)).clk + extra
  onEng (2 * k + 1) (fun g => { g with clk := c }) (onEng (2 * k) (fun g => { g with clk := c }) s)

/-- Both engines trap with one cause at one PC: once, under the policy (R309). -/
def agreeTrap (n k cause : Nat) (i j : Instr) (s : State) : State :=
  match viewOf s (2 * k), viewOf s (2 * k + 1) with
  | some v, some w =>
    match fetched i v, fetched j w with
    | .done f, .done h => levelClocks k 0 (complete true n (2 * k + 1) (lengthOf j) h (complete true n (2 * k) (lengthOf i) f s))
    | .stop _ u cy, _ => finalCommit n k (fun t => trapEnd n (2 * k) cause u (coreUnits s n cy) t) s
    | _, _ => s
  | _, _ => s

/-- An operation that both engines have issued is made once, and both go on (R301). -/
def makeOp (n k : Nat) (a b op : XOp) (i j : Instr) (s : State) : State :=
  let r := perform n (2 * k) op (levelClocks k 0 s)
  let give := fun (w : TWord) (x : XOp) (g : Engine) =>
    { g with
      issued := none
      results := g.results ++ [w]
      compared := g.compared + 1
      discWrites := match x with
        | .writeSlot t y => if (descOf s t).cmpClass = 2 then insertAt g.discWrites t y else g.discWrites
        | _ => g.discWrites }
  let s1 := onEng (2 * k + 1) (give r.1 b) (onEng (2 * k) (give r.1 a) r.2.2)
  let s2 := levelClocks k (10 + 10 * r.2.1) s1
  runPaired n (2 * k + 1) j 8 (runPaired n (2 * k) i 8 s2)

/-- Resolve what both engines of pair k have issued (R301, R304, R309). One that stands at an operation while the other has
retired the instruction without one is a mismatch as well (log entry 13). -/
def resolve (n k : Nat) (s : State) : State :=
  let g := getEng s (2 * k)
  let h := getEng s (2 * k + 1)
  let causes := fun (a b : Nat) => [b8 a, b8 b]
  match g.issued, h.issued with
  | some (a, i), some (b, j) =>
    match a, b with
    | .trapped c, .trapped d =>
      if c = d ∧ g.pc = h.pc then agreeTrap n k c i j s else mismatch n k 5 0 g.compared (causes c d) s
    | .trapped c, .ended => mismatch n k 3 0 g.compared (causes c 0) s
    | .ended, .trapped d => mismatch n k 3 0 g.compared (causes 0 d) s
    | .trapped c, _ => mismatch n k 5 0 g.compared (causes c 0) s
    | _, .trapped d => mismatch n k 5 0 g.compared (causes 0 d) s
    | .ended, .ended =>
      endPair n k (onEng (2 * k + 1) (fun x => { x with clk := x.clk + coreUnits s n 2 })
        (onEng (2 * k) (fun x => { x with clk := x.clk + coreUnits s n 2 }) s))
    | .bufferFull, .bufferFull => s
    | _, _ =>
      if opKey a ≠ opKey b ∨ a = .ended ∨ b = .ended ∨ a = .bufferFull ∨ b = .bufferFull then
        mismatch n k 3 (opKey a).2.1 (g.compared + 1) (bothWords (opWord a) (opWord b)) s
      else match agreed s a b with
        | some op => makeOp n k a b op i j s
        | none => mismatch n k 1 (opKey a).2.1 (g.compared + 1) (bothWords (opWord a) (opWord b)) s
  | some (.trapped c, _), none => if g.retired < h.retired then mismatch n k 5 0 g.compared (causes c 0) s else s
  | none, some (.trapped d, _) => if h.retired < g.retired then mismatch n k 5 0 g.compared (causes 0 d) s else s
  | some (a, _), none =>
    if g.retired < h.retired then mismatch n k 3 (opKey a).2.1 (g.compared + 1) (bothWords (opWord a) TWord.empty) s else s
  | none, some (b, _) =>
    if h.retired < g.retired then mismatch n k 3 (opKey b).2.1 (h.compared + 1) (bothWords TWord.empty (opWord b)) s else s
  | none, none => if g.retired = h.retired then levelClocks k 0 s else s

/-- Resolve until one engine waits for the other. -/
def resolveAll (n k : Nat) : Nat → State → State
  | 0, s => s
  | f + 1, s =>
    let t := resolve n k s
    if (getEng t (2 * k)).task == some n && (getEng t (2 * k)).issued.isSome && (getEng t (2 * k + 1)).issued.isSome &&
        decide (t ≠ s) then
      resolveAll n k f t
    else t

/-! ### Contexts -/

/-- Put a word of the context area of a task's entry; the delta carries it (R330). -/
def putCtx (d : TaskDef) (i : Nat) (w : TWord) (s : State) : State :=
  match s.chg.running with
  | some p => mirror (.data (physOf p (d.context + i)) [w])
      (onMem (fun m => { m with data := writeAt TWord.empty m.data (physOf p (d.context + i)) w }) s)
  | none => s

/-- The words of the context area before the window, from engine g (R117; log entry 58). -/
def ctxHead (g : Engine) : List TWord :=
  .mk0 Ty.word (BitVec.ofNat 32 g.pc) :: (List.range 31).map (fun i => nth TWord.empty g.regs (i + 1)) ++
    [.mk0 Ty.word (statusWord g)]

/-- The context of task n on engine e goes into its context area: G1 to G31, the program counter, the status and the window (R117). -/
def saveCtx (n e : Nat) (s : State) : State :=
  match taskDef s n with
  | none => s
  | some d =>
    let s1 := (ctxHead (getEng s e)).zipIdx.foldl (fun t x => putCtx d x.2 x.1 t) s
    (List.range d.window).foldl (fun t i => let r := readLocal e i t; putCtx d (64 + i) r.1 r.2) s1

/-- What a stop keeps of engine e beside the words, for a pair with the partner's bookkeeping (R310). -/
def ctxOf (s : State) (n e : Nat) : Ctx :=
  let g := getEng s e
  { compared := g.compared, discA := g.discWrites,
    discB := if (getTask s n).sched.dual then (getEng s (e + 1)).discWrites else [], bad := false }

/-- The activation of task n on engine e goes to PREEMPTED with its context saved (R116, R117, R202). -/
def suspendOn (n e : Nat) (s : State) : State :=
  let w := ((taskDef s n).map (·.window)).getD 0
  let c := ctxOf s n e
  let used := occupied s e s.dev.now + ctxTicks w
  let s1 := saveCtx n e s
  settle (onAct n (fun a => { a with ctx := some c, fabricTicks := a.fabricTicks + used })
    (onTask n (fun t => { t with st := .preempted }) ((enginesOf s1 n).foldl (fun t x => freeEngine x t) s1)))

/-- Neither engine of a pair stands inside an instruction: an engine that stops before its first data write, for want of room in its
buffer, has not begun to write (R303, R310). -/
def pairAtBoundary (g h : Engine) : Bool :=
  match g.issued, h.issued with
  | none, none => true
  | some (.bufferFull, _), some (.bufferFull, _) => g.written == 0 && h.written == 0
  | _, _ => false

/-- Stop the activation of task n at an instruction boundary (R116, R310): a pair checks its stop point and commits first. -/
def preempt (n e : Nat) (s : State) : State :=
  if hasEnded s n then s
  else if (getTask s n).sched.dual then
    let k := e / 2
    let g := getEng s (2 * k)
    let h := getEng s (2 * k + 1)
    if g.retired ≠ h.retired || !pairAtBoundary g h then s
    else if g.pc ≠ h.pc then mismatch n k 6 0 g.compared [] s
    else
      let c := commitPair n k s
      if c.1 then suspendOn n (2 * k) c.2 else c.2
  else suspendOn n e s

/-! ### One instruction -/

/-- Engine e may begin an instruction: it runs an activation, debug does not hold it, it stands at no operation, and in a
pair it is not ahead of its partner (R299, R467). -/
def mayBegin (s : State) (e : Nat) : Bool :=
  let g := getEng s e
  match g.task with
  | none => false
  | some n =>
    g.issued.isNone && !hasEnded s n && (!g.halted || g.stepOne) && s.dev.role != .standby &&
      (!(getTask s n).sched.dual ||
        decide (g.retired ≤ (getEng s (if e % 2 = 0 then e + 1 else e - 1)).retired))

/-- Engine e executes instruction i (R149, R301), where the code at its program counter is that instruction and its line passes the
engine's check (R200). A page that has gone absent stops the activation at the fetch (R202). -/
def runInstr (e : Nat) (i : Instr) (s : State) : State :=
  if !mayBegin s e then s
  else match (getEng s e).task, viewOf s e with
    | some n, some v =>
      if v.d.pages.contains (v.g.pc / 4096) && !pageIn s (v.g.pc / 4096) then preempt n e s
      else if (v.d.pages.contains (v.g.pc / 4096) && !fetchPasses s v.g.pc) || !meets i v then s
      else if (getTask s n).sched.dual then
        resolveAll n (e / 2) 16 (runPaired n e i 8 (onEng e (fun g => { g with results := [], written := 0 }) s))
      else runAlone n e i 8 (onEng e (fun g => { g with results := [], written := 0 }) s)
    | _, _ => s

end Sys2Proof.Machine
end

