-- ==== Sys2Proof/Machine/Engines.lean ====
section
/-! DEFINITION. Compare pairs and engine events: ENGINE_SPLIT, ENGINE_JOIN, the verification activation, STAT_DUAL (R314 to R320),
freezes, stops, budgets and timers (R87, R109, R116, R118), and the integrity of code lines (R201 to R204). -/

namespace Sys2Proof.Machine

/-! ### ENGINE_SPLIT and ENGINE_JOIN (R318, R319) -/

def pairCode : PState → Nat
  | .split => 0 | .joining => 1 | .verifying => 2 | .joined => 3 | .splitting => 4

/-- An ENGINE_SPLIT or ENGINE_JOIN for pair k is PENDING. -/
def pairBusy (s : State) (k : Nat) : Bool := (pairOp s 0x1009 k).isSome || (pairOp s 0x100A k).isSome

/-- Task c would have no pair but k that is JOINED, JOINING or VERIFYING within its mask (R318). -/
def leftWithoutPair (s : State) (k : Nat) (c : SchedRec) : Bool :=
  c.kind != 0 && c.dual && c.engines.getLsbD (2 * k) && c.engines.getLsbD (2 * k + 1) &&
    !((List.range 8).any (fun j =>
      j != k && c.engines.getLsbD (2 * j) && c.engines.getLsbD (2 * j + 1) &&
        (getPair s j == .joined || getPair s j == .joining || getPair s j == .verifying)))

/-- Task c would have no engine outside pair k and the pairs that are not SPLIT (R319). -/
def leftWithoutEngine (s : State) (k : Nat) (c : SchedRec) : Bool :=
  c.kind != 0 && !c.dual &&
    !((List.range 16).any (fun e => c.engines.getLsbD e && e / 2 != k && getPair s (e / 2) == .split))

/-- The first task a condition on its record holds for. -/
def firstTask (s : State) (p : SchedRec → Bool) : Option Nat :=
  (List.range 64).find? (fun n => p (getTask s n).sched)

/-- BUSY, with the first task concerned in byte 4 where a task is the reason. -/
def pairRefusal (s : State) (k : Nat) (p : SchedRec → Bool) : Option Answer :=
  if pairBusy s k then some { status := stBusy, result := [b8 (pairCode (getPair s k))] }
  else (firstTask s p).map (fun n =>
    { status := stBusy, result := [b8 (pairCode (getPair s k)), 0, 0, 0, b8 n] })

/-- The pair that the command names. -/
def reqPair (r : Request) : Nat := pByte r 16

def cmdEngineSplit : Cmd :=
  { op := 0x1009, used := fun _ => 17, long := true
    range := fun r _ => badIf (decide (7 < reqPair r))
    busy := fun r s => pairRefusal s (reqPair r) (leftWithoutPair s (reqPair r))
    effect := fun r s =>
      let k := reqPair r
      let a := accept 0x1009 r 1 [flag (getPair s k == .split) 0] s
      (a.1, if getPair s k = .joined then setPair k .splitting a.2 else a.2) }

def cmdEngineJoin : Cmd :=
  { op := 0x100A, used := fun _ => 17, long := true
    range := fun r _ => badIf (decide (7 < reqPair r))
    busy := fun r s => pairRefusal s (reqPair r) (leftWithoutEngine s (reqPair r))
    effect := fun r s =>
      let k := reqPair r
      let a := accept 0x100A r 1 [flag (getPair s k == .joined) 0] s
      (a.1, if getPair s k = .split then setPair k .joining a.2 else a.2) }

def execEngineSplit (r : Request) (s : State) : Out := finish s (serve cmdEngineSplit r s)
def execEngineJoin (r : Request) (s : State) : Out := finish s (serve cmdEngineJoin r s)

/-- The end of an ENGINE_SPLIT or ENGINE_JOIN as far as the pair's state now decides it (R316, R318, R319). -/
def finishPairOp (i : Nat) (o : LongOp) (s : State) : State :=
  let k := byteAt o.req.params 0
  let join := o.opcode == 0x100A
  let s1 := settle s
  match getOp s1 i with
  | none => s1
  | some o =>
    if o.done then s1
    else if nth 0 o.aux 0 = 1 then endOp i stOk [b8 (pairCode (getPair s1 k)), 1] s1
    else match getPair s1 k with
      | .split => endOp i (if join then stIntegrity else stOk) [0, 0] s1
      | .joined => if join then endOp i stOk [3, 0] s1 else s1
      | _ => s1

/-- The operation of an opcode on pair k ends, unless HOLDUP suspends it. -/
def endPairOp (op k status : Nat) (res : Bytes) (s : State) : State :=
  match pairOp s op k with
  | some i => if pairWaits s op k then s else endOp i status res s
  | none => s

/-- The verification activation of pair k ends (R315, R316). Its local stores are overwritten. -/
def execVerificationActivation (k : Fin 8) (pass : Bool) (s : State) : Out :=
  let k := k.val
  finish s
    (if getPair s k ≠ .verifying || !hostOn s then s
    else
      let wipe := fun (g : Engine) => { g with loc := [] }
      let s1 := onEng (2 * k + 1) wipe (onEng (2 * k) wipe s)
      if pass then
        let s2 := endPairOp 0x100A k stOk [3, 0]
          (onScan (fun x => { x with verified := x.verified ||| (1#8 <<< k) }) (joinPair k s1))
        settle (if (pairOp s2 0x1009 k).isSome then setPair k .splitting s2 else s2)
      else
        let s2 := logHw 0x1007 [b8 k]
          (setDualFault k (onScan (fun x => { x with verifyFails := satTo 0xFF (x.verifyFails + 1) }) (setPair k .split s1)))
        settle (endPairOp 0x1009 k stOk [0, 0] (endPairOp 0x100A k stIntegrity [0, 0] s2)))
where
  hostOn (s : State) : Bool := !(s.dev.st == .off || s.dev.st == .retain)

/-- A write to STAT_DUAL: the fault bits are W1C, the rest is RO (R314, R320). -/
def writeStatDual (v : Word) : State → State :=
  onScan (fun x => { x with dualFault := x.dualFault &&& ~~~(v.extractLsb' 24 8) })

def execStatDualFaultClear (v : Word) (s : State) : Out :=
  hostReg (.statDualFaultClear v) (writeStatDual v) s

/-! ### Freezes, stops, budgets and timers -/

/-- The freeze in progress ends (R86, R87). -/
def execFreezeEnd (task : Fin 64) (time : Nat) (s : State) : Out :=
  finish s
    (if s.scan.freezes.head? = some task.val then settle (emptyFreezes 64 (endFreeze task.val (advance time s))) else s)

/-- Engine e, asked to stop, stands at an instruction boundary (R116, R117, R310). A budget that is reached governs (R114). -/
def execPreemptionStop (e : Fin 16) (time : Nat) (s : State) : Out :=
  let s1 := advance time s
  finish s
    (match (getEng s e.val).task, (getEng s e.val).preemptFor with
    | some n, some _ => if budgetReached s1 n s1.dev.now then expireBudget n s1 else preempt n e.val s1
    | _, _ => s)

/-- The engine time of a running activation has reached its budget (R118). -/
def execBudgetExpiry (task : Fin 64) (time : Nat) (s : State) : Out :=
  let s1 := advance time s
  finish s (if budgetReached s task.val s1.dev.now then expireBudget task.val s1 else s)

/-- A timer elapses: TIMEBASE captures the trigger at the instant for which the timer was started (R107, R109). -/
def execTaskTimerExpiry (task : Fin 64) (time : Nat) (s : State) : Out :=
  let n := task.val
  let s1 := advance time s
  finish s
    (match (getTask s n).timer with
    | some t =>
      if t ≤ s1.dev.now then
        settle (fireTrigger n 4 t TWord.empty (onTask n (fun x => { x with timer := none }) s1)).2
      else s
    | none => s)

/-- Both engines of pair k stand before a data write with full buffers: they are compared and committed, and both go on
(R303). -/
def execCommitFlush (k : Fin 8) (s : State) : Out :=
  let k := k.val
  let g := getEng s (2 * k)
  let h := getEng s (2 * k + 1)
  finish s
    (match g.task, g.issued, h.issued with
    | some n, some (.bufferFull, i), some (.bufferFull, j) =>
      let c := commitPair n k s
      if c.1 then
        let free := fun (x : Engine) => { x with issued := none }
        let s1 := onEng (2 * k + 1) free (onEng (2 * k) free c.2)
        resolveAll n k 16 (runPaired n (2 * k + 1) j 8 (runPaired n (2 * k) i 8 s1))
      else c.2
    | _, _, _ => s)

/-! ### Lines and pages of code (R201 to R204) -/

/-- Engines that stand at a fetch from a line. -/
def enginesAt (s : State) (gen page line : Nat) : List Nat :=
  (List.range 16).filter (fun e =>
    (getEng s e).task.isSome && gen == runningGen s && (getEng s e).pc / 64 == 64 * page + line)

/-- A scrub burst is in progress. -/
def burstActive (s : State) : Bool := opActive s [0xB002]

/-- Counter, ERR_LAST and record of an uncorrectable error (R417, R427). The counter of the code store is refetch_count (R201). -/
def countUe (mem addr : Nat) (s : State) : State :=
  logHw 0xB002 (fields [(1, mem), (1, 0), (4, addr)])
    (onInteg (fun i =>
      { i with
        sramUe := if mem = 7 ∨ mem = 8 ∨ mem = 9 then i.sramUe else satTo 0xFF (i.sramUe + 1)
        ddrUe := if mem = 8 then satTo 0xFF (i.ddrUe + 1) else i.ddrUe
        mramUe := if mem = 9 then satTo 0xFF (i.mramUe + 1) else i.mramUe
        lastMem := mem
        lastAddr := addr
        burstUe := i.burstUe || burstActive s }) s)

/-- An engine that waits for a refetch resumes after at most 300 FABRIC ticks, a free value (log entry 57): the wait is engine time,
for both engines of a pair (R118, R201, R299). -/
def waitLine (e : Nat) (s : State) : State :=
  match (getEng s e).task with
  | some n =>
    let (v, t) := draw 9 s
    (enginesOf t n).foldl (fun u x => onEng x (fun g => { g with clk := g.clk + 10 * (v.toNat % 301) }) u) t
  | none => s

/-- The line is fetched from DDR again and rewritten with its CRC (R201). -/
def rewriteLine (frame line : Nat) (b : Bytes) : State → State :=
  onMem (fun m =>
    { m with frames := m.frames.map (fun e =>
        if e.1 = frame then (e.1, { e.2 with lines := e.2.lines.modify line (fun _ => (b, crc32c b)) }) else e) })

/-- The engines that stand at a fetch from a page that has gone absent stop there, as for a preemption (R202). The others stop at
their next fetch from it. -/
def stopAtPage (es : List Nat) (s : State) : State :=
  es.foldl (fun t e =>
    match (getEng t e).task with
    | some n => preempt n e t
    | none => t) s

/-- A line of the page in a frame has failed its check and is refetched (R201): the DDR copy is checked against the line CRC table.
When an ECC error makes the DDR copy bad, or it fails the table, the page goes absent and waits for its rebuild (R202). -/
def lineRefetch (frame line : Nat) (ddrBad : Bool) (s : State) : State :=
  match look s.mem.frames frame with
  | none => s
  | some f =>
    if 64 ≤ line || s.dev.st == .fault || (s.dev.st == .holdup && s.dev.stage == 2) then s
    else
      let gen := if f.gens.contains (runningGen s) then runningGen s else (f.gens.head?).getD 0
      let es := enginesAt s gen f.page line
      let s1 := recordRefetch gen f.page line (countUe 7 (64 * frame + line) s)
      let b := ((progOf s gen).map (fun p => lineBytes (codePage p f.page) line)).getD []
      if !ddrBad && linePasses s gen f.page line b then es.foldl (fun t e => waitLine e t) (rewriteLine frame line b s1)
      else stopAtPage es (markBad gen f.page s1)

def execLineRefetch (frame line : Nat) (ddrBad : Bool) (s : State) : Out := finish s (lineRefetch frame line ddrBad s)

/-- The image of a generation in the program archive (R203). -/
def archivedImage (s : State) (gen : Nat) : Option Bytes :=
  let of := fun (a : Option (Nat × Nat × Bytes)) => (a.filter (fun x => x.1 == gen)).map (·.2.2)
  of s.chg.archive <|> of s.chg.archivePrev

/-- The 4,096 bytes that the archive holds for a page: its kind 0 record, or the literal page that its kind 1 record copies
(R160, R203). -/
def archivedPage (s : State) (gen page : Nat) : Option Bytes :=
  (archivedImage s gen).bind (fun b =>
    (pageRecords b (le b 56 4) (le b 16 4 / 4096) (le b 36 4) (le b 32 4) [] []).map (fun l =>
      (look l page).getD (List.replicate 4096 0)))

/-- Priority of the most urgent task of the running generation that lists a bad page; 16 where none does. -/
def badPriority (s : State) (f : Nat × Nat) : Nat :=
  (List.range 64).foldl (fun m n =>
    if f.1 = runningGen s ∧ (taskPages s n).contains f.2 = true then min m (getTask s n).sched.priority else m) 16

/-- The page that is rebuilt next: that of the task of highest priority, the one that has waited longest among equals (R203). -/
def nextRebuild (s : State) : Option (Nat × Nat) :=
  s.mem.badPages.foldl (fun best f =>
    match best with
    | none => some f
    | some b => if badPriority s f < badPriority s b then some f else some b) none

/-- The page is lost (R204). -/
def losePage (gen page : Nat) (s : State) : State :=
  setCause 10 (logFw 0x1012 (fields [(4, gen), (2, page)] ++ [0]) (onMem (fun m =>
    { m with losts := satTo 0xFF (m.losts + 1), lostPages := m.lostPages ++ [(gen, page)] }) s))

/-- The page is written to its DDR location, or to the next spare page when the read-back fails, and fills a frame (R203). -/
def rebuildPage (gen page : Nat) (b : Bytes) (readBackFails : Bool) (s : State) : State :=
  afterFill (logFw 0x1011 (fields [(4, gen), (2, page)] ++ [b8 (flag readBackFails 0)])
    (placePage gen page b (onMem (fun m =>
      { m with rebuilds := satTo 0xFF (m.rebuilds + 1)
               spares := if readBackFails then m.spares + 1 else m.spares
               spareMap := if readBackFails then
                   ((gen, page), m.spares) :: m.spareMap.filter (fun e => e.1 != (gen, page)) else m.spareMap }) s)))

/-- The firmware has rebuilt the bad page that is next from the archive, or the page is lost (R203, R204): the generation is not
archived, an archived line fails its table entry or both copies of the entry are bad, or no spare page is left. -/
def execPageRebuild (gen page : Nat) (lineFails readBackFails : Bool) (s : State) : Out :=
  finish s
    (if nextRebuild s != some (gen, page) || !pagerActive s || !firmwareServes s || (freeFrame s).isNone then s
    else
      let s1 := onMem (fun m => { m with badPages := m.badPages.filter (· != (gen, page)) }) s
      match archivedPage s gen page with
      | some b =>
        if lineFails || (failingLine s gen page b).isSome || (readBackFails && decide (256 ≤ s.mem.spares)) then
          losePage gen page s1
        else rebuildPage gen page b readBackFails s1
      | none => losePage gen page s1)

end Sys2Proof.Machine
end

