-- ==== Sys2Proof/Machine/Energy.lean ====
section
/-! DEFINITION. The energy ledger (R354 to R365, R372 to R377): metering, the power cap, admission of background jobs, the dirty
limit, the backup cell, and the commands of class 0x9. -/

namespace Sys2Proof.Machine

/-! ### Hold-up energy and the dirty limit (R355, R363). Both sides of E_req ≤ E_avail are compared in units of 1/200,000 nJ. -/

/-- C_use in µF (R355, R356). -/
def cUse (e : Energy) : Nat :=
  match e.cEst with
  | some c => min e.cfg.cConfig c
  | none => e.cfg.cConfig

/-- E_avail at a bank voltage in units of 10 mV, scaled (R355). -/
def availX (e : Energy) : Nat :=
  let v := 10 * e.v
  if v ≤ e.cfg.vmin then 0 else cUse e * (v * v - e.cfg.vmin * e.cfg.vmin) * e.cfg.eta

/-- The power of E_req in mW: 6.0 W and the board's (R363). -/
def reqPower (e : Energy) : Nat := 6000 + 10 * e.cfg.pBoard

/-- E_req(D), scaled (R363): margin × power × (1,500 µs + D / 400 MB/s). -/
def reqX (e : Energy) (d : Nat) : Nat := e.cfg.margin * reqPower e * (3000000 + 5 * d)

/-- The dirty limit that the bank allows: the largest multiple of 64 bytes, between 4 KiB and the ceiling (R363). -/
def limitOf (e : Energy) : Nat :=
  let q := availX e / (e.cfg.margin * reqPower e)
  let l := if q < 3000000 then 0 else (q - 3000000) / 5 / 64 * 64
  max 4096 (min l (1024 * e.cfg.ceiling))

/-- The sample of HOLDUP_SENSE in mV becomes V, and E_avail follows (R355). -/
def sampleBank (senseMv : Nat) : State → State :=
  onEnergy (fun e =>
    let e1 := { e with v := senseMv * e.cfg.ratio / 1000 }
    { e1 with avail := availX e1 / 200000 })

/-- holdup_short follows the inequality of the floor, with a record at each change (R363). -/
def judgeShort (s : State) : State :=
  let x := decide (availX s.energy < reqX s.energy 4096)
  if x = s.energy.short then s
  else
    let s1 := logHw 0x9004 (fields [(4, flag x 0), (4, s.energy.avail / 1000000)]) (onEnergy (fun e => { e with short := x }) s)
    if x then setCause 6 s1 else s1

/-- L at the end of an interval: it falls at once, and rises to at most 64 KiB above the lowest of the last 100 (R363). -/
def nextLimit (e : Energy) : Nat :=
  let v := limitOf e
  if v ≤ e.limit then v else max e.limit (min v (e.limits.foldl min e.limit + 65536))

def updateLimit (s : State) : State :=
  judgeShort (onEnergy (fun e =>
    let l := nextLimit e
    { e with limit := l, limits := (l :: e.limits).take 100 }) s)

/-! ### Background jobs (R359, R360) -/

/-- The declared power of the job of an opcode in mW (R359), 0 for an operation that is no background job. -/
def jobPower (op : Nat) : Nat :=
  match op with
  | 0xB003 => 1500
  | 0x8003 | 0x1001 | 0x3001 => 300
  | 0x4006 => 200
  | 0xB002 => 400
  | _ => 0

/-- Declared power of the admitted jobs. -/
def admittedPower (s : State) : Nat :=
  (s.host.ops.map (fun e => if e.2.admitted && !e.2.done then jobPower e.2.opcode else 0)).sum

/-- The ceiling of R360 in mW. -/
def capMw (e : Energy) : Nat := if e.cap = 0 then 16000 else 10 * e.cap

/-- A job of a power may be admitted at this interval end (R360). -/
def admits (s : State) (p : Nat) : Bool :=
  s.dev.st != .holdup && decide (s.energy.average + admittedPower s + p ≤ capMw s.energy) && !s.energy.short &&
    decide (2 * dirtyBytes s ≤ s.energy.limit) && !s.energy.paused

/-- Waiting jobs, in the order in which they were accepted (R360). -/
def waitingJobs (s : State) : List Nat :=
  let l := s.host.ops.filter (fun e => e.2.waiting && !e.2.done && !e.2.suspended)
  (l.foldl (fun m e => insertAt m e.2.order e.1) []).map (·.2)

/-- The job ends its cancel points with its admission: the archive writes and the verification of FW_FINISH (R127, R218). -/
def pastWhenAdmitted (op : Nat) : Bool := op == 0x1001 || op == 0x3001

/-- One waiting job at an interval end: a cancel, the admission, or one more interval of waiting, 24 h at most. -/
def considerJob (s : State) (i : Nat) : State :=
  match getOp s i with
  | none => s
  | some o =>
    if stopAsked s o && o.opcode != 0x4006 then endOp i stAborted [] s
    else if admits s (jobPower o.opcode) then
      onOp i (fun o => { o with waiting := false, admitted := true, admittedAt := s.dev.now, past := o.past || pastWhenAdmitted o.opcode }) s
    else if 86400000 ≤ o.waited + 1 then endOp i stEnergy [] s
    else onOp i (fun o => { o with waited := o.waited + 1 }) s

def considerJobs (s : State) : State := (waitingJobs s).foldl considerJob s

/-- Admitted jobs that still have a cancel point at which they can be paused. -/
def pausable (s : State) : List Nat :=
  (s.host.ops.filter (fun e => e.2.admitted && !e.2.done && !e.2.past)).map (·.1)

/-- Every admitted job waits again, from its next cancel point on (R358). -/
def pauseJobs (s : State) : State :=
  (pausable s).foldl (fun t i => onOp i (fun o => { o with admitted := false, waiting := true }) t) s

/-! ### The power cap (R358) -/

/-- Engines that have held no activation for the last 1 ms and whose clocks run. -/
def parkable (s : State) : List Nat :=
  (List.range 16).filter (fun e =>
    let g := getEng s e
    g.task.isNone && !g.parked && decide (g.freeAt + 6000000 ≤ s.dev.now))

def anyParked (s : State) : Bool := s.scan.engines.any (·.parked)

/-- Steps 1 to 3 of R358: the first that can do something, at least 100 ms after the step before it. -/
def capStep (s : State) : State :=
  if s.energy.sinceStep < 100 then s
  else
    let mark := onEnergy (fun e => { e with sinceStep := 0 })
    if !(pausable s).isEmpty then mark (onEnergy (fun e => { e with paused := true }) (pauseJobs s))
    else if s.energy.cls < s.energy.floor then mark (onEnergy (fun e => { e with cls := e.cls + 1 }) s)
    else if !(parkable s).isEmpty then
      mark ((parkable s).foldl (fun t e => onEng e (fun g => { g with parked := true }) t) s)
    else s

/-- Steps 1 to 3 can do no more. -/
def capExhausted (s : State) : Bool := (pausable s).isEmpty && decide (s.energy.floor ≤ s.energy.cls) && (parkable s).isEmpty

/-- Step 4 of R358. -/
def overStep (s : State) : State :=
  let n := if capExhausted s then s.energy.overRun + 1 else 0
  let s1 := onEnergy (fun e => { e with overRun := n, underRun := 0 }) s
  if 100 ≤ n && !s.energy.energyOver then
    setCause 6 (logHw 0x9006 (fields [(4, s.energy.average / 10), (4, s.energy.cap)])
      (onEnergy (fun e => { e with energyOver := true, sinceStep := 0 }) s1))
  else s1

/-- Step 5 of R358: one step undone, where one is in force. -/
def undoStep (s : State) : State :=
  let mark := onEnergy (fun e => { e with sinceStep := 0 })
  if anyParked s then mark (onScan (fun x => { x with engines := x.engines.map (fun g => { g with parked := false }) }) s)
  else if 0 < s.energy.cls then mark (onEnergy (fun e => { e with cls := e.cls - 1 }) s)
  else if s.energy.paused then mark (onEnergy (fun e => { e with paused := false }) s)
  else s

/-- The average is at or below the cap. -/
def underStep (s : State) : State :=
  let low := decide (s.energy.average + 250 ≤ capMw s.energy)
  let n := if low then s.energy.underRun + 1 else 0
  let s1 := onEnergy (fun e => { e with energyOver := false, overRun := 0, underRun := if n = 100 then 0 else n }) s
  if n = 100 then undoStep s1 else s1

/-- With the cap disabled the class is 0, no engine is parked and energy_over is 0 (R358). -/
def uncap (s : State) : State :=
  onScan (fun x => { x with engines := x.engines.map (fun g => { g with parked := false }) })
    (onEnergy (fun e => { e with cls := 0, energyOver := false, paused := false, overRun := 0, underRun := 0 }) s)

/-- The cap at the end of an interval (R358); in HOLDUP the class stays where R368 put it. -/
def capInterval (s : State) : State :=
  let s1 := onEnergy (fun e => { e with sinceStep := satTo 100 (e.sinceStep + 1) }) s
  if s.dev.st = .holdup then s1
  else if s.energy.cap = 0 then uncap s1
  else if 10 * s.energy.cap < s.energy.average then overStep (capStep s1)
  else underStep s1

/-! ### The end of an interval -/

/-- The mean of the intervals that have ended, at most 100 (R354). -/
def meanOf (l : List Nat) : Nat := if l.isEmpty then 0 else l.sum / l.length

/-- Power drawn from the bank in stage 1 in mW: the module's and the configured board load (R356). -/
def drawMw (e : Energy) : Nat := e.rails.sum + 10 * e.cfg.pBoard

/-- The energy metered in stage 1 up to now, in nJ. -/
def meterStage (s : State) : State :=
  if s.dev.st = .holdup ∧ s.dev.stage = 1 then
    onEnergy (fun e =>
      { e with used := e.used + drawMw e * (s.dev.now - e.meterAt) / 6000, meterAt := s.dev.now }) s
  else s

/-- A pass of the scrubber over group 0 ends at its period (R421, R422; log entry 14). -/
def countPass (s : State) : State :=
  onInteg (fun i =>
    if i.passAt + 6000000000 * nth 10 i.periods 0 ≤ s.dev.now then
      { i with passes := (i.passes + 1) % 2 ^ 32, passAt := s.dev.now }
    else i) s

/-- The end of a 1 ms interval: metering, the cap, admission and the dirty limit (R354, R358, R360, R363). -/
def execEnergyIntervalEnd (rails : List Nat) (senseMv time : Nat) (s : State) : Out :=
  if s.dev.st == .off || s.dev.st == .retain then finish s s
  else
    let s1 := advance time s
    let s2 := meterStage (onEnergy (fun e =>
      let l := (rails.sum :: e.samples).take 100
      { e with rails := rails, samples := l, average := meanOf l }) s1)
    let s3 := if s2.dev.st = .holdup then s2 else sampleBank senseMv s2
    let s4 := countPass (whenB (opsProceed s3) considerJobs (updateLimit (capInterval s3)))
    finish s (onEnergy (fun e =>
      { e with overIntervals := if e.energyOver then satTo 0xFFFFFFFF (e.overIntervals + 1) else e.overIntervals }) s4)

/-- The writer writes the oldest dirty block (R362), and the clear marker where one waits (R98). -/
def execPersistWrite (s : State) : Out :=
  finish s
    (if s.dev.st == .off || s.dev.st == .retain then s
    else
      let s1 := writeMarker s
      if writerReady s1 then writeBlocks 1 s1 else s1)

/-! ### The backup cell (R372, R373) -/

/-- Remaining charge in units of 0.01 µAh. -/
def cellLeft (e : Energy) : Nat := 100000 * e.capacity - e.drawn

/-- Remaining charge in units of 0.1 %, 0xFFFF when it is unknown (R374). -/
def cellPermille (e : Energy) : Nat :=
  if e.cellUnknown then 0xFFFF else if e.capacity = 0 then 0 else cellLeft e / (100 * e.capacity)

/-- The remaining charge is below the configured threshold. -/
def cellBelow (e : Energy) : Bool :=
  !e.cellUnknown && decide (100 * cellLeft e < e.lowPct * (100000 * e.capacity))

/-- cell_low or cell_absent becomes set: its record (R372). -/
def setCell (absent : Bool) (s : State) : State :=
  setCause 6 (logHw 0x9005 (fields [(4, if absent then 2 else 1), (4, s.energy.vbat)])
    (onEnergy (fun e => if absent then { e with cellAbsent := true } else { e with cellLow := true }) s))

/-- cell_low and cell_absent become set as the last measurement and the charge give them (R372); CELL_CONFIG clears them (R377). -/
def judgeCell (s : State) : State :=
  let low := cellBelow s.energy || decide (s.energy.vbat < 2200)
  let gone := decide (s.energy.vbat < 1800)
  let s1 := if low && !s.energy.cellLow then setCell false s else s
  if gone && !s1.energy.cellAbsent then setCell true s1 else s1

/-- VBAT is measured, and the charge drawn since the last measurement is counted (R372). -/
def execVbatMeasure (mv charge : Nat) (s : State) : Out :=
  finish s
    (if s.dev.st = .off then s
    else judgeCell (onEnergy (fun e => { e with vbat := mv, drawn := if e.cellUnknown then e.drawn else e.drawn + charge }) s))

/-! ### Commands (R374 to R377) -/

/-- Byte 13 of ENERGY_STATUS (R374). -/
def energyFlags (s : State) : Nat :=
  flag (s.energy.cap != 0) 0 + flag s.energy.energyOver 1 + flag s.energy.short 2 + flag s.energy.sealMissing 3 +
    flag s.energy.cellLow 4 + flag s.energy.cellAbsent 5 + flag s.energy.cEst.isSome 6 + flag s.dev.retainLost 7

def energyResult (s : State) : Bytes :=
  fields [(2, s.energy.average / 10), (2, s.energy.cap), (4, s.energy.avail / 1000000), (2, s.energy.limit / 1024),
    (2, (dirtyBytes s + 1023) / 1024), (1, s.energy.cls), (1, energyFlags s), (2, cellPermille s.energy)]

/-- The optional record of ENERGY_STATUS (R374). -/
def energyRecord (e : Energy) : Bytes :=
  sliceZ ((List.range 6).flatMap (fun i => leBytes 2 (nth 0 e.rails i / 10)) ++
    fields [(4, cUse e), (4, e.cEst.getD 0), (2, e.v), (4, e.stalls), (4, e.returns), (4, e.stage2s), (4, e.overIntervals),
      (4, satTo 0xFFFFFFFF (e.drawn / 100)), (4, e.lastDip)]) 0 64

def cmdEnergyStatus : Cmd :=
  { op := 0x9001, used := fun _ => 17
    shape := fun r => decide (pByte r 16 < 2)
    pay := fun r => .may (payExact r 64)
    effect := fun r s =>
      let s1 := if byPointer r then putPayload r (energyRecord s.energy) s else s
      ({ status := stOk, result := energyResult s },
        if bitOf (pByte r 16) 0 then
          onEnergy (fun e => { e with stalls := 0, returns := 0, stage2s := 0, overIntervals := 0, drawn := 0 }) s1
        else s1) }

def cmdPowerCapSet : Cmd :=
  { op := 0x9002, used := fun _ => 19
    range := fun r _ =>
      badIf (decide (3 < pByte r 18) ||
        (pField r 16 2 != 0 && decide (pField r 16 2 < 600 ∨ 1600 < pField r 16 2)))
    effect := fun r s =>
      ({ status := stOk, result := leBytes 2 s.energy.cap ++ [b8 s.energy.floor] },
        onEnergy (fun e => { e with cap := pField r 16 2, floor := pByte r 18, cls := min e.cls (pByte r 18) }) s) }

/-- The parameters of HOLDUP_CONFIG (R376). -/
def reqHoldup (r : Request) : Holdup :=
  { cConfig := pField r 16 4, vmin := pField r 20 2, eta := pByte r 22, margin := pByte r 23, pBoard := pField r 24 2,
    ride := pField r 26 2, ceiling := pField r 28 2, ratio := pField r 30 2 }

def holdupBad (h : Holdup) : Bool :=
  decide (1000000 < h.cConfig) || decide (h.vmin < 1000 ∨ 60000 < h.vmin) || decide (h.eta < 50 ∨ 100 < h.eta) ||
    decide (h.margin < 100 ∨ 250 < h.margin) || decide (3000 < h.pBoard) || decide (10000 < h.ride) ||
    decide (h.ceiling < 4 ∨ 10240 < h.ceiling) || decide (h.ratio < 100 ∨ 10000 < h.ratio)

/-- A new configuration: V follows the new sense ratio, L and E_avail are computed anew (R376). -/
def configureHoldup (h : Holdup) (discard : Bool) (s : State) : State :=
  judgeShort (onEnergy (fun e =>
    let e1 := { e with cfg := h, cEst := if discard then none else e.cEst, v := e.v * h.ratio / max 1 e.cfg.ratio }
    { e1 with avail := availX e1 / 200000, limit := limitOf e1 }) s)

def cmdHoldupConfig : Cmd :=
  { op := 0x9003, used := fun _ => 33
    shape := fun r => decide (pByte r 32 < 2)
    range := fun r _ => badIf (holdupBad (reqHoldup r))
    effect := fun r s =>
      let t := configureHoldup (reqHoldup r) (bitOf (pByte r 32) 0) s
      ({ status := stOk, result := fields [(2, t.energy.limit / 1024), (2, 0), (4, t.energy.avail / 1000000)] }, t) }

def cmdCellConfig : Cmd :=
  { op := 0x9004, used := fun _ => 20
    shape := fun r => decide (pByte r 18 < 4)
    also := fun r s => !s.energy.cellUnknown || bitOf (pByte r 18) 0
    range := fun r _ => badIf (decide (pField r 16 2 < 1 ∨ 10000 < pField r 16 2) || decide (pByte r 19 < 1 ∨ 50 < pByte r 19))
    effect := fun r s =>
      let fresh := bitOf (pByte r 18) 0
      let s1 := onEnergy (fun e =>
        { e with capacity := pField r 16 2, lowPct := pByte r 19, drawn := if fresh then 0 else e.drawn,
                 cellUnknown := e.cellUnknown && !fresh, cellLow := e.cellLow && !fresh,
                 cellAbsent := if fresh then decide (e.vbat < 1800) else e.cellAbsent }) s
      let s2 := if bitOf (pByte r 18) 1 then onDev (fun d => { d with retainLost := false }) s1 else s1
      ({ status := stOk, result := fields [(4, s.energy.drawn / 100), (2, cellPermille s1.energy)] }, s2) }

def execEnergyStatus (r : Request) (s : State) : Out := finish s (serve cmdEnergyStatus r s)
def execPowerCapSet (r : Request) (s : State) : Out := finish s (serve cmdPowerCapSet r s)
def execHoldupConfig (r : Request) (s : State) : Out := finish s (serve cmdHoldupConfig r s)
def execCellConfig (r : Request) (s : State) : Out := finish s (serve cmdCellConfig r s)

end Sys2Proof.Machine
end

