-- ==== Sys2Proof/Machine/Rings.lean ====
section
/-! DEFINITION. Ring registers and interrupts: enabling, disabling, doorbells, heads, thresholds and ring errors (R26 to R30, R40
to R42, R537). The taking of descriptors stands in Take.lean. -/

namespace Sys2Proof.Machine

/-- The ring error vector (R537). -/
def raiseRingErr (s : State) : State := if s.regs.errEnable then raiseVector s.regs.errVector s else s

/-- A command ring stops with an error code (R30): its INT_RING_ERR bit is set and the vector is raised (R537). -/
def stopRing (n code : Nat) (s : State) : State :=
  let was := s.regs.ringErr.getLsbD n
  let s1 := onRegs (fun r => { r with ringErr := r.ringErr ||| (1#64 <<< n) })
    (onCq n (fun q => { q with running := false, error := code }) s)
  if was then s1 else raiseRingErr s1

/-- A command ring goes from disabled to enabled (R28). -/
def startCq (n : Nat) (s : State) : State :=
  onRegs (fun r => { r with ringErr := r.ringErr &&& ~~~(1#64 <<< n) })
    (onCq n (fun q => { q with enable := true, running := true, error := 0, pi := 0, ci := 0 }) s)

/-- A write of RING_CQ_CTRL (R26, R28). -/
def writeCqCtrl (n : Nat) (v : Word) (s : State) : State :=
  let x := v.toNat
  if (getCq s n).enable then
    if bitOf x 0 then s else onCq n (fun q => { q with enable := false, running := false }) s
  else
    let s1 := onCq n (fun q => { q with kq := bits x 21 16, sizeLog2 := bits x 11 8 }) s
    if !bitOf x 0 then s1
    else if 4 ≤ bits x 11 8 && bits x 11 8 ≤ 12 && (getKq s1 (bits x 21 16)).enable then startCq n s1
    else stopRing n 4 s1

/-- A completion ring goes from disabled to enabled: what is held for it is written first (R28, R41, R53). -/
def startKq (k : Nat) (s : State) : State :=
  kqCheck k (flushKq k
    (onKq k (fun q =>
      { q with enable := true, running := true, error := 0, head := 0, tail := 0, phase := true, armed := true,
               mem := [] }) s))

/-- A write of RING_KQ_CTRL (R26, R28). -/
def writeKqCtrl (k : Nat) (v : Word) (s : State) : State :=
  let x := v.toNat
  let s1 := onKq k (fun q => { q with intEnable := bitOf x 24, vector := bits x 22 16 }) s
  if (getKq s k).enable then
    if bitOf x 0 then kqCheck k s1
    else onKq k (fun q => { q with enable := false, running := false }) s1
  else
    let s2 := onKq k (fun q => { q with sizeLog2 := bits x 11 8 }) s1
    if !bitOf x 0 then s2
    else if 4 ≤ bits x 11 8 && bits x 11 8 ≤ 12 then startKq k s2
    else onKq k (fun q => { q with error := 4 }) s2

/-- A valid doorbell joins the doorbell queue, in which its ring has one entry (R18, R19); that of CQ0 takes its place among
the urgent writes, merged into one that still waits but not into one that has been taken (R54). -/
def ringDoorbell (n : Nat) (h : HostIf) : HostIf :=
  if n = 0 then
    { h with urgent :=
        if (if h.cq0Upto.isSome then h.urgent.drop 1 else h.urgent).contains none then h.urgent else h.urgent ++ [none] }
  else { h with doorbells := if h.doorbells.contains n then h.doorbells else h.doorbells ++ [n] }

/-- A doorbell write (R29, R30): an index out of range stops the ring. -/
def writeCqPi (n : Nat) (v : Word) (s : State) : State :=
  let x := bits v.toNat 11 0
  let q := getCq s n
  let s1 := onCq n (fun q => { q with pi := x }) s
  if !(q.enable && q.running) then s1
  else if q.size ≤ x then stopRing n 1 s1
  else onHost (ringDoorbell n) s1

/-- A write of RING_KQ_HEAD (R27, R42): room appears, and the interrupt may be armed; where a threshold is met it is raised at
once. -/
def writeKqHead (k : Nat) (v : Word) (s : State) : State :=
  let x := bits v.toNat 11 0
  let s1 := onKq k (fun q =>
    if q.size ≤ x then { q with error := 1, armed := q.armed || v.getLsbD 31 }
    else { q with head := x, armed := q.armed || v.getLsbD 31 }) s
  kqCheck k (flushKq k s1)

def writeKqIrq (k : Nat) (v : Word) (s : State) : State :=
  kqCheck k (onKq k (fun q => { q with irqTime := bits v.toNat 23 8, irqCount := bits v.toNat 7 0 }) s)

/-- Base address registers are ignored while the ring is enabled (R26). -/
def writeCqBase (n : Nat) (hi : Bool) (v : Word) : State → State :=
  onCq n (fun q => if q.enable then q else if hi then { q with baseHi := bits v.toNat 15 0 }
    else { q with baseLo := bits v.toNat 31 12 })

def writeKqBase (k : Nat) (hi : Bool) (v : Word) : State → State :=
  onKq k (fun q => if q.enable then q else if hi then { q with baseHi := bits v.toNat 15 0 }
    else { q with baseLo := bits v.toNat 31 12 })

/-- The oldest unconsumed entry has waited so long (R42): with a threshold met, an armed ring raises its vector. -/
def completionDue (n waitedUs : Nat) (s : State) : State :=
  let q := getKq s n
  kqCheck n (if q.unconsumed = 0 then s else advance (readAt s.dev.now q.written q.head + 6000 * waitedUs) s)

def execCompletionInterrupt (n : Fin 64) (waitedUs : Nat) (s : State) : Out :=
  finish s (if hostAccess s then completionDue n.val waitedUs s else s)

end Sys2Proof.Machine
end

