-- ==== Sys2Proof/Machine/Tasks.lean ====
section
/-! DEFINITION. The program and task commands of class 0x1 (R126 to R134) and the installation of a program. -/

namespace Sys2Proof.Machine

/-! ### Program data -/

/-- Data words lo to data_words − 1 of the running generation take their initial values (R128, R129). -/
def resetData (lo : Nat) (s : State) : State :=
  match s.chg.running with
  | none => s
  | some p =>
    let ours := fun a => decide (lo ≤ a) && decide (a < p.dataWords)
    let addrs := ((s.mem.data.flatMap (fun e => virtsOf p e.1)).filter ours) ++ (p.init.map (·.1)).filter ours
    addrs.foldl (fun t a => (writePhys true (physOf p a) (readAt TWord.empty p.init a) t).2) s

/-- The data words of a program that is installed (R128): retentive words stay when the layout is that of the program it
replaces, every other word takes its initial value. -/
def installData (old : Option Program) (p : Program) (s : State) : State :=
  let kept : List (Nat × TWord) := match old with
    | some q =>
      if q.layoutHash = p.layoutHash then
        s.mem.data.flatMap (fun e =>
          ((virtsOf q e.1).filter (fun a => decide (a < p.retentiveWords))).map (fun a => (a, e.2)))
      else []
    | none => []
  let keeps := match old with
    | some q => decide (q.layoutHash = p.layoutHash)
    | none => false
  let want := fun a =>
    if keeps && decide (a < p.retentiveWords) then readAt TWord.empty (kept.foldl (fun l e => insertAt l e.1 e.2) []) a
    else readAt TWord.empty p.init a
  let stale := s.mem.groups.filter (fun g => match g.2 with
    | .data _ _ => !(retentiveKeys p).contains g.2
    | .slots _ => false)
  let s1 := addGroups (retentiveKeys p) (stale.foldl (fun t g => dropGroup g.1 t) s)
  ((s.mem.data.map (·.1)) ++ (kept.map (·.1)) ++ (p.init.map (·.1))).foldl
    (fun t a => (writePhys true a (want a) t).2) s1

/-! ### Task entries at an installation (R123, R128) -/

/-- The initial state of a task: DISABLED, SUSPENDED or IDLE. -/
def initialState (c : SchedRec) : TState := if c.kind = 0 then .disabled else if c.startSuspended then .suspended else .idle

/-- A task entry of a new program. -/
def freshTask (c : SchedRec) : Task := { Task.reset with sched := c, st := initialState c }

/-- The scheduling records of the image, every task in its initial state. -/
def installTasks (p : Program) (s : State) : State :=
  (List.range 64).foldl (fun t n =>
    let c := ((p.tasks[n]?).map (·.sched)).getD schedDisabled
    mirror (.schedRec n c) (onTask n (fun _ => freshTask c) t)) s

/-- The generation after g, skipping 0 (R128). -/
def nextGeneration (g : Nat) : Nat := if g = 0xFFFFFFFF then 1 else g + 1

/-- The number that the next installation gives (R128, R218): after the highest issued since the cold start, after the
archive's when none was. -/
def newGeneration (s : State) : Nat :=
  if s.chg.highest ≠ 0 then nextGeneration s.chg.highest
  else match s.chg.archive with
    | some (g, _) => nextGeneration g
    | none => 1

/-- What the delta carries of the generations (R330). -/
def mirrorGenerations (s : State) : State :=
  let g := fun (b : Option Beside) => (b.map (·.prog.gen)).getD 0
  mirror (.generations (runningGen s) (g s.chg.staged) (g s.chg.retained)) s

/-! ### PROGRAM_LOAD (R126 to R128) -/

def loadLength (r : Request) : Nat := pField r 16 4
/-- Whole KiB that hold a number of bytes, the unit of progress (R127, R218). -/
def kib (n : Nat) : Nat := (n + 1023) / 1024
def loadSlot (r : Request) : Nat := pByte r 20

def cmdProgramLoad : Cmd :=
  { op := 0x1001, used := fun _ => 21, long := true
    pay := fun _ => .must true
    range := fun r _ =>
      badIf (loadLength r % 64 != 0 || decide (loadLength r < 4096 ∨ 67108864 < loadLength r) || decide (3 < loadSlot r) ||
        !scatterOk (loadLength r) (scatterEntries r))
    effect := fun r s => accept 0x1001 r (2 * kib (loadLength r)) [] s }

/-- The resources that a program needs are there (R78, R127, R361). -/
def dataFits (s : State) (p : Program) : Bool :=
  let slots := (s.img.descs.filter (fun e => e.2.retentive)).length
  let groups := (s.mem.groups.filter (fun g => match g.2 with
    | .slots _ => true
    | .data _ _ => false)).length
  decide (slots + p.retentiveWords ≤ 2097152) && decide (groups + (retentiveKeys p).length ≤ 32768)

/-- Steps 1 to 5 of R127: the program, or the final status and the need of code frames. -/
def checkLoad (s : State) (r : Request) : Sum Program (Nat × Nat) :=
  let b := r.object.take (loadLength r)
  if !headerOk b then .inr (stBadParam, 0)
  else if !signedOk s (loadSlot r) (le b 56 4) b then .inr (stIntegrity, 0)
  else match parseProgram s s.img.descs (newGeneration s) (loadSlot r) b with
    | none => .inr (stBadParam, 0)
    | some p =>
      if !refsOk s.img.descs p then .inr (stBadParam, 0)
      else if 2048 < need (defaultPlan p) || !dataFits s p then .inr (stNoResource, need (defaultPlan p))
      else .inl p

/-- The legacy area is filled with 0 at each program installation (R152). -/
def clearLegacy (s : State) : State :=
  onMem (fun m => { m with legacy := [], legacyBad := [] })
    (s.mem.legacy.foldl (fun t e => mirror (.legacy e.1 [0#16]) t) s)

/-- Step 6 of R127: the image becomes the archive's current entry, and the current entry the previous one. -/
def archiveProgramNow (p : Program) : State → State :=
  onChg (fun c => { c with archivePrev := c.archive, archive := some (p.gen, p.keySlot, p.image) })

/-- Step 7 of R127: the program is installed (R128). -/
def installProgram (p : Program) (s : State) : State :=
  let old := s.chg.running
  let s1 := dropRetained s
  let s2 := (match old with
    | some q => dropGeneration q.gen s1
    | none => s1)
  let s3 := onMem (fun m => { m with loading := [] })
    (onChg (fun c => { c with running := some p, highest := p.gen, switchRec := none, tracing := false, traced := [] }) s2)
  let s4 := setRefs (installTasks p (installData old p (clearLegacy s3)))
  let s5 := loadResident p (residentPages (defaultPlan p)) s4
  let s6 := logFw 0x1001 (leBytes 4 p.gen ++ p.buildId) (mirrorGenerations s5)
  if s6.dev.st = .configure then enter .stop s6 else s6

/-- A load that has something to do: it neither waits for its admission without being asked to end nor is suspended (R68, R127). -/
def loadReady (s : State) (o : LongOp) : Bool :=
  !o.done && o.opcode == 0x1001 && !o.suspended &&
    (!o.waiting || stopAsked s o || s.dev.st == .fault || s.dev.role == .syncing)

/-- Loads are taken up one after the other, in the order in which they were accepted. -/
def loadIndex (s : State) : Option Nat :=
  let l := s.host.ops.filter (fun e => loadReady s e.2)
  ((l.foldl (fun m e => insertAt m e.2.order e.1) []).map (·.2)).head?

/-- The first load that has something to do goes on. -/
def goOnLoad (f : Nat → LongOp → State → State) (s : State) : State :=
  match loadIndex s with
  | some i => goOn i (f i) s
  | none => s

/-- The program of a load under the generation that step 6 gave its archive entry, if that has been written. -/
def loadedAs (o : LongOp) (p : Program) : Program :=
  match o.aux with
  | g :: _ => { p with gen := g }
  | [] => p

/-- PROGRAM_LOAD goes on: the reading and the checks, the wait for admission, the archive and the installation (R127, R195). -/
def execProgramInstall (time : Nat) (s : State) : Out :=
  finish s
    (if !firmwareServes s then advance time s
    else goOnLoad (fun i o t =>
      if t.dev.st = .fault ∨ t.dev.role = .syncing then endOp i stAborted [] t
      else match checkLoad t o.req with
        | .inr (st, n) => endOp i st (leBytes 4 0 ++ leBytes 2 n) t
        | .inl p =>
          if !o.admitted then onOp i (fun o => { o with work := o.total / 2 }) (waitHere i t)
          else
            let q := loadedAs o p
            endOp i stOk (leBytes 4 q.gen ++ leBytes 2 (need (defaultPlan q)))
              (onOp i (fun o => { o with work := o.total })
                (installProgram q (if o.aux.isEmpty then archiveProgramNow q t else t)))) (advance time s))

/-- FINAL_COMPLETION of an admitted load that has not begun step 6: the archive is written, and what remains is the installation,
under the generation that the archive holds (R127). -/
def finishArchive (i : Nat) (o : LongOp) (s : State) : State :=
  if !o.admitted || !o.aux.isEmpty then s
  else match checkLoad s o.req with
    | .inr _ => s
    | .inl p => onOp i (fun o => { o with aux := [p.gen] }) (archiveProgramNow p s)

/-! ### PROGRAM_START and STOP_PROGRAM (R129, R130) -/

def startMode (r : Request) : Nat := pByte r 16

/-- A PROGRAM_LOAD is past its last cancel point. -/
def loadPast (s : State) : Bool := s.host.ops.any (fun e => !e.2.done && e.2.opcode == 0x1001 && e.2.past)

/-- Lead loads for releases due within L of a PROGRAM_START begin at its effect instant (R207). -/
def startLeads (s : State) : State :=
  (List.range 64).foldl (fun t n =>
    let c := (getTask t n).sched
    let k := t.dev.tick + 2
    let first := k + (c.offset + c.period - k % max 1 c.period) % max 1 c.period
    if leadClass c && c.kind == 1 && decide (first ≤ t.dev.tick + leadTicks t n) then beginLead n t else t) s

/-- Every enabled task in its initial state, counters kept (R123). -/
def restartTasks (s : State) : State :=
  (List.range 64).foldl (fun t n =>
    if (getTask t n).sched.kind = 0 then t
    else onTask n (fun x =>
      { x with st := initialState x.sched, latch := none, coalesced := 0, timer := none, suspendPending := false,
               haltReason := 0 }) t) s

/-- PROGRAM_START from STOP or HALTED, with the plan made anew (R129, R193). -/
def startProgram (mode : Nat) (s : State) : State :=
  let s1 := if s.dev.st = .halted then liftHalt s
    else restartTasks (match mode with
      | 1 => resetData ((s.chg.running.map (·.retentiveWords)).getD 0) s
      | 2 => resetData 0 s
      | _ => s)
  let s2 := onDev (fun d => { d with releasing := some (d.tick + 2) }) (clearDiscrepancies s1)
  startLeads (enter .run (replan s2))

def cmdProgramStart : Cmd :=
  { op := 0x1002, used := fun _ => 17
    also := fun _ s => !s.dev.haltReqLow && !s.net.haltConfigure
    range := fun r s => badIf (decide (2 < startMode r) || (s.dev.st == .halted && startMode r != 0))
    busy := fun _ s => busyIf (loadPast s)
    lack := fun _ s =>
      match noEngine s ((List.range 64).map (fun n => (getTask s n).sched)) with
      | some n => some { status := stNoResource, result := [0, 0, 0, 0, b8 n] }
      | none =>
        let k := need (planOf s)
        if 2048 < k then some { status := stNoResource, result := leBytes 4 0 ++ leBytes 2 k } else none
    effect := fun r s =>
      ({ status := stOk, result := leBytes 4 (s.dev.tick + 2) }, startProgram (startMode r) s) }

/-- STOP_PROGRAM in HALTED, or with that return state, is legal only while HALT_REQ_N is high (R63). -/
def cmdStopProgram : Cmd :=
  { op := 0x1003, used := fun _ => 16
    also := fun _ s => !(effState s == .halted && s.dev.haltReqLow)
    effect := fun _ s => (okAnswer, stopProgram s) }

/-! ### TASK_CONFIG and TASK_STATUS (R131, R132) -/

/-- The record that the command carries, 32 bytes. -/
def reqSched (r : Request) : Bytes := sliceZ (pSlice r 16 48) 0 32

/-- The plan of the running generation with one record replaced. -/
def planWith (s : State) (n : Nat) (c : SchedRec) : Residency := modifyNth (planOf s) n (fun e => (c, e.2))

def cmdTaskConfig : Cmd :=
  { op := 0x1004, used := fun _ => 48
    shape := fun r => decide (pByte r 18 < 16) && decide (pByte r 19 < 8) && pByte r 33 == 0 && pZero r 38 40
    range := fun r s =>
      let c := parseSched (reqSched r)
      let n := pByte r 16
      badIf (!schedOk s s.img.descs (reqSched r) ||
        (c.kind != 0 && ((taskDef s n).map (fun d => d.sched.kind == 0)).getD true))
    lack := fun r s =>
      let k := need (planWith s (pByte r 16) (parseSched (reqSched r)))
      if 2048 < k then some { status := stNoResource, result := leBytes 4 0 ++ leBytes 2 k } else none
    effect := fun r s =>
      let c := parseSched (reqSched r)
      let n := pByte r 16
      let s1 := onTask n (fun t =>
        { t with
          sched := c
          st := if c.kind = 0 then .disabled else if t.st = .disabled then initialState c else t.st
          latch := none, coalesced := 0, timer := none }) s
      (okAnswer, mirror (.schedRec n c) s1) }

/-- The record of TASK_STATUS (R132). -/
def taskRecord (t : Task) : Bytes :=
  fields [(8, t.releases), (4, t.skips), (4, t.controlledSkips), (4, t.expiries), (4, t.heldReleases),
    (4, t.coalescedTotal), (4, t.lastRelease.getD 0), (4, t.eLast), (4, t.eMax), (4, t.engMax), (1, t.st.code),
    (1, flag t.latch.isSome 0 + flag t.suspendPending 1 + flag t.timer.isSome 2), (1, t.engine.getD 0xFF),
    (1, t.haltReason)] ++ List.replicate 16 0

/-- The counters of a task start again (R132). -/
def clearTaskCounters (t : Task) : Task :=
  { t with releases := 0, skips := 0, controlledSkips := 0, expiries := 0, heldReleases := 0, coalescedTotal := 0,
           eMax := 0, engMax := 0 }

def cmdTaskStatus : Cmd :=
  { op := 0x1005, used := fun _ => 18
    shape := fun r => decide (pByte r 17 < 2)
    pay := fun r => .may (payExact r 64)
    range := fun r _ => badIf (decide (63 < pByte r 16))
    effect := fun r s =>
      let n := pByte r 16
      let t := getTask s n
      let s1 := if byPointer r then putPayload r (taskRecord t) s else s
      ({ status := stOk, result := [b8 t.st.code, 0, 0, 0] ++ fields [(4, t.skips), (4, t.releases), (4, t.eMax)] },
        if bitOf (pByte r 17) 0 then onTask n clearTaskCounters s1 else s1) }

/-! ### TASK_SUSPEND, TASK_RESUME and EVENT_TRIGGER (R133, R134) -/

/-- TASK_SUSPEND of one task; none when it does not apply. -/
def suspendTask (t : Task) : Option Task :=
  if t.st = .idle then some { t with st := .suspended, latch := none, coalesced := 0, timer := none }
  else if t.st.active && !t.suspendPending then some { t with suspendPending := true }
  else none

/-- A HALTED dual task may be resumed: an eligible pair is joined and has passed its verification (R133). -/
def resumePair (s : State) (c : SchedRec) : Bool :=
  (List.range 8).any (fun k =>
    c.engines.getLsbD (2 * k) && c.engines.getLsbD (2 * k + 1) && getPair s k == .joined && s.scan.verified.getLsbD k)

/-- TASK_RESUME of one task; none when it does not apply. -/
def resumeTask (s : State) (t : Task) : Option Task :=
  if t.st = .suspended then
    let rearm := t.sched.kind == 2 && t.sched.trigger == 4 && bitOf t.sched.mode 0
    some { t with st := .idle, timer := if rearm && releases s then some (s.dev.now + 6000 * t.sched.delay) else t.timer }
  else if t.st = .halted then
    if !t.sched.dual || resumePair s t.sched then some { t with st := .idle, haltReason := 0 } else none
  else if t.st.active && t.suspendPending then some { t with suspendPending := false }
  else none

/-- A change of every task that a mask names: the mask of tasks changed, and the state. -/
def eachTask (mask : Nat) (f : State → Task → Option Task) (s : State) : Nat × State :=
  (List.range 64).foldl (fun a n =>
    if bitOf mask n then
      match f a.2 (getTask a.2 n) with
      | some t => (a.1 + 2 ^ n, timerLead n (onTask n (fun _ => t) a.2))
      | none => a
    else a) (0, s)

def cmdTaskSuspend : Cmd :=
  { op := 0x1006, used := fun _ => 24
    effect := fun r s =>
      let x := eachTask (pField r 16 8) (fun _ t => suspendTask t) s
      ({ status := stOk, result := leBytes 8 x.1 }, x.2) }

def cmdTaskResume : Cmd :=
  { op := 0x1007, used := fun _ => 24
    effect := fun r s =>
      let x := eachTask (pField r 16 8) resumeTask s
      ({ status := stOk, result := leBytes 8 x.1 }, x.2) }

def cmdEventTrigger : Cmd :=
  { op := 0x1008, used := fun _ => 24
    shape := fun r => pZero r 17 20
    range := fun r s => badIf (decide (63 < pByte r 16) || (getTask s (pByte r 16)).sched.kind != 2)
    effect := fun r s =>
      let x := fireTrigger (pByte r 16) 5 s.dev.now (.mk0 Ty.word (BitVec.ofNat 32 (pField r 20 4))) s
      ({ status := stOk, result := [b8 x.1] }, settle x.2) }

def execProgramLoad (r : Request) (s : State) : Out := finish s (serve cmdProgramLoad r s)
def execProgramStart (r : Request) (s : State) : Out := finish s (serve cmdProgramStart r s)
def execStopProgram (r : Request) (s : State) : Out := finish s (serve cmdStopProgram r s)
def execTaskConfig (r : Request) (s : State) : Out := finish s (serve cmdTaskConfig r s)
def execTaskStatus (r : Request) (s : State) : Out := finish s (serve cmdTaskStatus r s)
def execTaskSuspend (r : Request) (s : State) : Out := finish s (serve cmdTaskSuspend r s)
def execTaskResume (r : Request) (s : State) : Out := finish s (serve cmdTaskResume r s)
def execEventTrigger (r : Request) (s : State) : Out := finish s (serve cmdEventTrigger r s)

end Sys2Proof.Machine
end

