-- ==== Sys2Proof/Machine/Integrity.lean ====
section
/-! DEFINITION. Memory integrity (R413 to R427): correctable and uncorrectable errors, the leaky bucket, the scrubber, MEM_FILL,
MEM_TEST and the error registers. -/

namespace Sys2Proof.Machine

/-! ### Correctable errors (R415, R416) -/

/-- The bucket rule applies to what is found now (R416). -/
def bucketStates (s : State) : Bool := s.dev.st == .boot || s.dev.st == .selftest || s.dev.st == .recovery

/-- An error that the bucket counts (R416). -/
def bucketError (mem addr : Nat) (s : State) : State :=
  if s.integ.level < 16 then onInteg (fun i => { i with level := i.level + 1 }) s
  else
    let first := !s.integ.bucketOver
    let s1 := onInteg (fun i => { i with overflows := satTo 0xFFFF (i.overflows + 1), bucketOver := true }) s
    setCause 0 (if first then logHw 0xB003 (fields [(1, mem), (1, 0), (4, addr)]) s1 else s1)

/-- n errors that the bucket counts. -/
def bucketErrors (mem addr : Nat) : Nat → State → State
  | 0, s => s
  | n + 1, s => bucketErrors mem addr n (bucketError mem addr s)

/-- The counter of corrected errors that a memory belongs to; the code store and MRAM have none (R427). -/
def countCe (mem n : Nat) : State → State :=
  onInteg (fun i =>
    if mem = 8 then { i with ddrCe := satTo 0xFFFF (i.ddrCe + n) }
    else if mem = 7 ∨ mem = 9 then i
    else { i with sramCe := satTo 0xFFFF (i.sramCe + n) })

/-- A correctable error found in a unit (R415, R416). -/
def correctable (mem addr : Nat) (s : State) : State :=
  let s1 := countCe mem 1 s
  if bucketStates s then bucketError mem addr s1 else logHw 0xB001 (keyed [b8 mem] (leBytes 4 addr)) s1

/-! ### Uncorrectable errors (R417) -/

/-- A word of type POISON; its payload is a free value (R71, log entry 3). -/
def drawPoison (s : State) : TWord × State :=
  let (p, t) := draw 32 s
  (TWord.poison p, t)

/-- A block of a word is dirty. -/
def wordDirty (s : State) (g i : Nat) : Bool :=
  s.mem.dirty.any (fun d => d.1 == 5 * g + i / 16 || d.1 == 5 * g + 4)

/-- What an uncorrectable word of a group, or of none, becomes: the MRAM copy of a clean retentive word, POISON otherwise
(R417); whether it was restored. -/
def lostWord (g : Option Nat) (i : Nat) (s : State) : TWord × Bool × State :=
  match g with
  | some g =>
    if wordDirty s g i then let r := drawPoison s; (r.1, false, r.2)
    else match mramWord s.mem g i with
      | some w => (w, true, onInteg (fun x => { x with restored := satTo 0xFF (x.restored + 1) }) s)
      | none => let r := drawPoison s; (r.1, false, r.2)
  | none => let r := drawPoison s; (r.1, false, r.2)

/-- A word of data memory is retentive under the running generation (R361). -/
def retentiveWord (s : State) (a : Nat) : Bool :=
  (s.chg.running.map (fun p => (virtsOf p a).any (fun v => decide (v < p.retentiveWords)))).getD false

/-- A word of data memory below data_words, which the delta does not carry (R417, R418). -/
def loseData (a : Nat) (s : State) : State :=
  let g := if retentiveWord s a then groupOf s (.data (a / 1024) (a % 1024 / 64)) else none
  let old := readPhys s a
  let (w, restored, s1) := lostWord g (a % 64) s
  let s2 := match g, restored with
    | some g, false => (touchWord false g (a % 64) old w s1).2
    | _, _ => s1
  onMem (fun m => { m with data := writeAt TWord.empty m.data a w }) s2

/-- The live word of a slot (R417, R418). -/
def loseLive (slot : Nat) (s : State) : State :=
  let d := descOf s slot
  let put := fun (w : TWord) => onImg (fun i => { i with live := writeAt TWord.empty i.live slot w, shown := erase i.shown slot })
  match d.dir with
  | 0 => s
  | 1 => put (subWord d Q.bad true) s
  | _ =>
    let g := if d.retentive then groupOf s (.slots (slot / 64)) else none
    let old := liveWord s slot
    let (w, restored, s1) := lostWord g (slot % 64) s
    put w (match g, restored with
      | some g, false => (touchWord false g (slot % 64) old w s1).2
      | _, _ => s1)

/-- The tasks whose saved context a word of data memory belongs to (R117, R159). -/
def contextTasks (s : State) (a : Nat) : List Nat :=
  match s.chg.running with
  | none => []
  | some p =>
    (List.range 64).filter (fun n =>
      match p.tasks[n]?, virtOf p a, ((getTask s n).act.bind (·.ctx)) with
      | some d, some v, some _ => decide (d.context ≤ v) && decide (v < d.context + 64 + d.window)
      | _, _, _ => false)

/-- A word of data memory: a context area, or a data word (R417). -/
def loseMemory (a : Nat) (s : State) : State :=
  match contextTasks s a with
  | [] => loseData a s
  | l =>
    let r := drawPoison s
    l.foldl (fun t n => onAct n (fun x => { x with ctx := x.ctx.map (fun c => { c with bad := true }) }) t)
      (onMem (fun m => { m with data := writeAt TWord.empty m.data a r.1 }) r.2)

/-- A copy of an MRAM block fails its check: it is rewritten from the other when the block is clean, and is no valid copy
otherwise (R417). Blocks of copy area A lie before those of area B. -/
def loseBlock (addr : Nat) (s : State) : State :=
  let b := addr % 163840
  let clean := !(s.mem.dirty.any (fun d => d.1 == b))
  let mend := fun (bad good : List (Nat × Nat × Bytes)) =>
    match clean, look good b with
    | true, some c => insertAt bad b c
    | _, _ => erase bad b
  onMem (fun m =>
    if addr < 163840 then { m with copyA := mend m.copyA m.copyB } else { m with copyB := mend m.copyB m.copyA }) s

/-- Every code page of the generations that stand, as the DDR holds them. -/
def codePages (s : State) : List (Nat × Nat) :=
  let of := fun (p : Program) => (List.range (p.codeLength / 4096)).map (fun n => (p.gen, n))
  ((s.chg.running.map of).getD []) ++ ((s.chg.staged.map (fun b => of b.prog)).getD []) ++
    ((s.chg.retained.map (fun b => of b.prog)).getD [])

/-- A DDR word is uncorrectable (R417): an operation that stages ends with INTEGRITY; otherwise the page whose code lies there is
bad, or the entry of a line in one copy of a line CRC table is lost, and the page is bad when the other copy's is too (R202). Which
of them lies at an address the spec does not lay down: a free value (log entry 3). -/
def loseDdr (s : State) : State :=
  match s.host.ops.find? (fun e => !e.2.done && !e.2.past && (e.2.opcode == 0x1001 || e.2.opcode == 0x3001)) with
  | some e => endOp e.1 stIntegrity [] s
  | none =>
    let (v, s1) := draw 32 s
    let l := codePages s
    let k := v.toNat % (3 * l.length + 1)
    match l[k / 3]? with
    | some f =>
      if s.mem.badPages.contains f || s.mem.lostPages.contains f then s1
      else if k % 3 = 0 then markBad f.1 f.2 s1
      else
        let (x, s2) := draw 6 s1
        let s3 := loseEntry (k % 3 == 2) f.1 f.2 x.toNat s2
        if (lineEntry s3 f.1 f.2 x.toNat).isNone then markBad f.1 f.2 s3 else s3
    | none => s1

/-- What is left of an entry of BAR2 that fails: POISON until its view is updated (R417). The views lie one after the other:
image, stations, tasks (R540). -/
def loseView (addr : Nat) (s : State) : State :=
  let r := drawPoison s
  if addr < 262144 then onImg (fun i => { i with view := insertAt i.view addr (r.1, none) }) r.2
  else
    let k := addr - 262144
    let poison := entry r.1 0xFFFFFF
    if k < 8192 then
      onNet (fun n => { n with stationView := insertAt n.stationView (k / 8) (putAt (readAt [] n.stationView (k / 8)) (8 * (k % 8)) poison) }) r.2
    else
      let j := (k - 8192) / 8
      onScan (fun x => { x with taskView := insertAt x.taskView j (putAt (readAt [] x.taskView j) (8 * ((k - 8192) % 8)) poison) }) r.2
where
  putAt (b : Bytes) (i : Nat) (w : Bytes) : Bytes := sliceZ b 0 i ++ w ++ b.drop (i + w.length)

/-- An entry of a commit buffer fails: it compares unequal to its partner's (R417). -/
def loseCommit (addr : Nat) (s : State) : State :=
  let r := drawPoison s
  onEng (addr / 16384 % 16) (fun g =>
    { g with buf := modifyNth g.buf (addr % 8192) (fun x => (x.1, r.1)) }) r.2

/-- The service core restarts (R380): it serves nothing until SERVICE_CORE_RESTART. -/
def stopCore : State → State := pauseCore

/-- The outcome of an uncorrectable error by memory code (R417, R427). -/
def uncorrectable (mem addr : Nat) (s : State) : State :=
  let s1 := countUe mem addr s
  match mem with
  | 1 => loseMemory addr s1
  | 2 => withTriggers [addr] (loseLive addr) s1
  | 3 => onImg (fun i => { i with snap := insertAt i.snap addr (subWord (descOf s addr) Q.bad true, (snapWord s addr).2) }) s1
  | 4 => let r := drawPoison s1
         onEng (addr / 16384 % 16) (fun g => { g with loc := insertAt g.loc (addr % 16384) r.1 }) r.2
  | 5 => onMem (fun m => { m with legacyBad := insertNat m.legacyBad addr }) s1
  | 6 => enterFault addr s1
  | 7 => lineRefetch (addr / 64) (addr % 64) false s
  | 8 => loseDdr s1
  | 9 => loseBlock addr s1
  | 10 => stopCore s1
  | 11 => loseView addr s1
  | 12 => loseCommit addr s1
  | _ => s1

/-- The scrubber reads and checks one unit (R421). A failing code line is a fetch failure (R200). -/
def execScrubRead (mem addr : Nat) (f : Finding) (s : State) : Out :=
  finish s
    (if !hostAccess s then s
    else match f with
      | .clean => s
      | .correctable => correctable mem addr s
      | .uncorrectable => settle (uncorrectable mem addr s))

/-- A leak of the bucket (R416). -/
def execBucketLeak (s : State) : Out := finish s (onInteg (fun i => { i with level := i.level - 1 }) s)

/-! ### MEM_FILL (R420) -/

def fillTarget (r : Request) : Nat := pByte r 16
def fillFirst (r : Request) : Nat := pField r 20 4
def fillCount (r : Request) : Nat := pField r 24 4
def fillWord (r : Request) : TWord := entryWord (pSlice r 28 36)

/-- The end of the range that a fill may reach. -/
def fillLimit (r : Request) (s : State) : Nat :=
  match fillTarget r with
  | 0 => if s.dev.st = .stop then (s.chg.running.map (·.dataWords)).getD 0 else 4194304
  | 1 => 65536
  | _ => 16384

def fillBad (r : Request) (s : State) : Bool :=
  let w := fillWord r
  decide (2 < fillTarget r) || w.forced || w.sub || !hostWord w || decide (fillLimit r s < fillFirst r + fillCount r) ||
    (fillTarget r == 1 && !(w.ty == Ty.bool || w.ty == Ty.int || w.ty == Ty.word))

/-- The engines that a fill of local stores names. -/
def fillEngines (r : Request) : List Nat := (List.range 16).filter (fun e => bitOf (pField r 18 2) e)

/-- Words that a fill writes, in every engine of the mask. -/
def fillWords (r : Request) : Nat :=
  if fillTarget r = 2 then (fillEngines r).length * fillCount r else fillCount r

def cmdMemFill : Cmd :=
  { op := 0xB001, used := fun _ => 36, long := true
    shape := fun r => pByte r 17 == 0 && (fillTarget r == 2 || pZero r 18 20) && pZero r 33 36
    range := fun r s =>
      if s.dev.role = .standby && fillTarget r ≠ 2 then some { status := stRole, result := stateRole s } else badIf (fillBad r s)
    effect := fun r s => accept 0xB001 r (fillWords r) [] s }

/-- One data word of a fill: by address of the running generation in STOP, by physical address in CONFIGURE (R420). -/
def fillData (a : Nat) (w : TWord) (s : State) : State :=
  if s.chg.running.isSome then (writeData true a w s).2 else (writePhys true a w s).2

/-- The first n words of a fill are written, engine by engine for target 2 (R420). -/
def doFill (r : Request) (n : Nat) (s : State) : State :=
  let l := fun (k : Nat) => (List.range (min k (fillCount r))).map (fillFirst r + ·)
  let w := fillWord r
  match fillTarget r with
  | 0 => (l n).foldl (fun t a => fillData a w t) s
  | 1 => (l n).foldl (fun t a => setLegacy a (w.payload.setWidth 16) t) s
  | _ => (fillEngines r).zipIdx.foldl (fun t e =>
      onEng e.1 (fun g => { g with loc := (l (n - e.2 * fillCount r)).foldl (fun m a => insertAt m a w) g.loc }) t) s

/-- The end of MEM_FILL. -/
def finishFill (i : Nat) (o : LongOp) (s : State) : State :=
  endOp i stOk (leBytes 4 (fillWords o.req)) (doFill o.req (fillWords o.req) s)

/-- The end of a MEM_FILL that is asked to end: it stands between two blocks of 4,096 words, and which blocks it has written by then
the spec does not say: a free value (R420, log entry 3). -/
def cutFill (i : Nat) (o : LongOp) (s : State) : State :=
  let (v, s1) := draw 32 s
  let n := 4096 * (v.toNat % ((fillWords o.req + 4095) / 4096))
  endOp i stAborted (leBytes 4 n) (doFill o.req n s1)

/-! ### SCRUB_CONFIG (R421, R422) -/

/-- A period of a group is kept, or lies in its range. -/
def periodOk (g n : Nat) : Bool :=
  n == 0 || (if g < 2 then decide (n ≤ 3600) else decide (60 ≤ n ∧ n ≤ 604800))

def reqPeriod (r : Request) (g : Nat) : Nat := pField r (16 + 4 * g) 4
def reqBurst (r : Request) : Bool := bitOf (pByte r 32) 0

def cmdScrubConfig : Cmd :=
  { op := 0xB002, used := fun _ => 33
    shape := fun r => decide (pByte r 32 < 2)
    range := fun r _ => badIf ((List.range 4).any (fun g => !periodOk g (reqPeriod r g)))
    busy := fun r s => busyIf (reqBurst r && burstActive s)
    lack := fun r s => lackIf (reqBurst r && !handleFree s)
    effect := fun r s =>
      let s1 := onInteg (fun i =>
        { i with periods := (List.range 4).map (fun g => if reqPeriod r g = 0 then nth 0 i.periods g else reqPeriod r g) }) s
      if reqBurst r then
        let (n, s2) := draw 32 (onInteg (fun i => { i with burstUe := false }) s1)
        let h := headIndex s2
        let a := accept 0xB002 r n.toNat [] s2
        ({ a.1 with result := leBytes 4 s.integ.passes }, waitHere h a.2)
      else ({ status := stOk, result := leBytes 4 s.integ.passes }, s1) }

/-- The end of a scrub burst (R422). -/
def finishBurst (i : Nat) (o : LongOp) (s : State) : State :=
  if o.admitted then endOp i (if s.integ.burstUe then stIntegrity else stOk) [] s else s

/-! ### MEM_TEST (R423 to R426) -/

def testTarget (r : Request) : Nat := pByte r 16
def testDestroys (r : Request) : Bool := pByte r 17 == 1
def testFirst (r : Request) : Nat := pField r 20 4

/-- Number of units of a target (R424). The DDR fitted is the board's (log entry 5). -/
def testUnits (target : Nat) : Nat :=
  match target with
  | 0 => 65536 | 1 => 4096 | 2 => 1024 | 3 => 4096 | 4 => 2048
  | 5 => 262144 * (Config.ddrGib.val + 1)
  | 6 => 524288
  | _ => 4

def testCount (r : Request) : Nat :=
  if pField r 24 4 = 0 then testUnits (testTarget r) - testFirst r else pField r 24 4

def cmdMemTest : Cmd :=
  { op := 0xB003, used := fun _ => 28, long := true
    shape := fun r => pZero r 18 20
    also := fun r s => !testDestroys r || s.dev.st == .configure
    range := fun r _ =>
      badIf (decide (7 < testTarget r) || decide (1 < pByte r 17) || decide (testUnits (testTarget r) ≤ testFirst r) ||
        decide (testUnits (testTarget r) < testFirst r + testCount r))
    busy := fun _ s => busyIf (opActive s [0xB003])
    effect := fun r s =>
      let h := headIndex s
      let a := accept 0xB003 r (testCount r) [0, 0, 0, 0] (onInteg (fun i => { i with level := 0 }) s)
      (a.1, waitHere h a.2) }

/-- The memory code of a target under ERR_LAST, and the address of one of its units (R427). -/
def testMem (target : Nat) : Nat :=
  match target with
  | 0 => 1 | 1 => 2 | 2 => 5 | 3 => 4 | 4 => 7 | 5 => 8 | 6 => 9 | _ => 0

def testAddr (target u : Nat) : Nat :=
  match target with
  | 0 | 1 | 2 | 3 | 4 | 5 => 64 * u
  | 6 => u
  | _ => 0

/-- What destructive mode leaves in a unit (R424): EMPTY, 0 in the legacy area; descriptors at their reset values. -/
def wipeUnit (target u : Nat) (s : State) : State :=
  let l := (List.range 64).map (64 * u + ·)
  match target with
  | 0 => l.foldl (fun t a => (writePhys true a TWord.empty t).2) s
  | 1 => onImg (fun i => { i with descs := dropWindow i.descs (64 * u) 64, snap := dropWindow i.snap (64 * u) 64 })
      (l.foldl (fun t a => setLive a TWord.empty t) s)
  | 2 => l.foldl (fun t a => setLegacy a 0#16 t) s
  | 3 => onEng (u / 256) (fun g => { g with loc := l.foldl (fun m a => insertAt m (a % 16384) TWord.empty) g.loc }) s
  | _ => s

/-- The result of a MEM_TEST (R424). -/
def testResult (o : LongOp) : Bytes := fields (o.aux.map (fun x => (4, x)))

/-- One unit has been held, tested and restored (R425, R426). -/
def testUnit (i ce : Nat) (fails : Bool) (o : LongOp) (s : State) : State :=
  let target := testTarget o.req
  let u := testFirst o.req + o.work
  let mem := testMem target
  let before := s.integ.overflows
  let s1 := bucketErrors mem (testAddr target u) ce (countCe mem ce s)
  let s2 := if fails && target == 5 then onMem (fun m => { m with spares := min 256 (m.spares + 1) }) s1 else s1
  let s3 := if testDestroys o.req then wipeUnit target u s2 else s2
  let n := nth 0 o.aux
  let first := if fails && n 2 == 0 then 2 ^ 28 * mem + testAddr target u else n 3
  let o1 := { o with work := o.work + 1, aux := [n 0 + 1, n 1 + ce, n 2 + (if fails then 1 else 0), first] }
  let s4 := onOp i (fun _ => o1) s3
  if before < s1.integ.overflows || (before == 0xFFFF && 16 < s.integ.level + ce) then endOp i stIntegrity (testResult o1) s4
  else if o1.total ≤ o1.work then endOp i (if nth 0 o1.aux 2 = 0 then stOk else stIntegrity) (testResult o1) s4
  else s4

/-- One unit of the admitted MEM_TEST: at a cancel point it ends with ABORTED where it is asked to (R425, R426). -/
def execMemTestUnit (ce : Nat) (fails : Bool) (s : State) : Out :=
  finish s (whenB (opsProceed s) (goOnOp 0xB003 (fun i o t => if o.admitted then testUnit i ce fails o t else t)) s)

/-! ### ERR_STATUS and the registers (R427) -/

def errCeCount (s : State) : Nat := 65536 * s.integ.sramCe + s.integ.ddrCe
def errUeCount (s : State) : Nat := 2 ^ 24 * s.integ.sramUe + 65536 * s.integ.ddrUe + 256 * s.integ.mramUe + s.integ.restored
def errBucket (s : State) : Nat :=
  flag (bucketStates s || opActive s [0xB003]) 31 + flag s.integ.bucketOver 30 + 65536 * s.integ.level + s.integ.overflows
def errLast (s : State) : Nat := 2 ^ 28 * s.integ.lastMem + s.integ.lastAddr

/-- bucket_over is cleared: its cause bit is a bit of its own (R427, R535). -/
def clearBucket (c : Bool) : State → State := onInteg (fun i => { i with bucketOver := i.bucketOver && !c })

def cmdErrStatus : Cmd :=
  { op := 0xB004, used := fun _ => 17
    shape := fun r => decide (pByte r 16 < 2)
    effect := fun r s =>
      ({ status := stOk, result := fields [(4, errCeCount s), (4, errUeCount s), (4, errBucket s), (4, errLast s)] },
        clearBucket (bitOf (pByte r 16) 0) s) }

def execErrBucketClear (v : Word) (s : State) : Out := hostReg (.errBucketClear v) (clearBucket (v.getLsbD 30)) s

def execMemFill (r : Request) (s : State) : Out := finish s (serve cmdMemFill r s)
def execScrubConfig (r : Request) (s : State) : Out := finish s (serve cmdScrubConfig r s)
def execMemTest (r : Request) (s : State) : Out := finish s (serve cmdMemTest r s)
def execErrStatus (r : Request) (s : State) : Out := finish s (serve cmdErrStatus r s)

end Sys2Proof.Machine
end

