-- ==== Sys2Proof/Machine/CalendarOps.lean ====
section
/-! DEFINITION. The calendar (R393 to R405): validity, counting and rollover, alarms, trim, loading and shifting. -/

namespace Sys2Proof.Machine

/-- The value of a BCD byte: 10 × tens + units (R394). -/
def bcdVal (b : Byte) : Nat := 10 * (b.toNat / 16) + b.toNat % 16

def nibblesOk (b : Byte) : Bool := decide (b.toNat / 16 ≤ 9) && decide (b.toNat % 16 ≤ 9)

/-- The year is a leap year (R397). -/
def leapYear (f : CalFields) : Bool :=
  bcdVal f.year % 4 == 0 && (bcdVal f.year != 0 || bcdVal f.century % 4 == 0)

/-- Length of the month (R397). -/
def monthLength (f : CalFields) : Nat :=
  match bcdVal f.month with
  | 2 => if leapYear f then 29 else 28
  | 4 | 6 | 9 | 11 => 30
  | _ => 31

/-- Every field is valid (R393, R394). -/
def fieldsValid (f : CalFields) : Bool :=
  nibblesOk f.seconds && decide (bcdVal f.seconds ≤ 59) && nibblesOk f.minutes && decide (bcdVal f.minutes ≤ 59) &&
  nibblesOk f.hours && decide (bcdVal f.hours ≤ 23) && decide (1 ≤ f.weekday.toNat ∧ f.weekday.toNat ≤ 7) &&
  nibblesOk f.day && decide (1 ≤ bcdVal f.day ∧ bcdVal f.day ≤ monthLength f) &&
  nibblesOk f.month && decide (1 ≤ bcdVal f.month ∧ bcdVal f.month ≤ 12) && nibblesOk f.year && nibblesOk f.century

/-- A field that receives a carry: its new value, and whether it passes a carry on (R396). -/
def carryField (limit : Nat) (least b : Byte) : Byte × Bool :=
  if limit ≤ bcdVal b then (least, true)
  else if b.toNat % 16 = 9 ∨ b.toNat % 16 = 15 then (BitVec.ofNat 8 (16 * (b.toNat / 16 + 1)), false)
  else (b + 1, false)

def carryWeekday (w : BitVec 4) : BitVec 4 := if 7 ≤ w.toNat then 1 else w + 1

/-- The fields after a rollover (R395 to R397). -/
def rollFields (f : CalFields) : CalFields :=
  let len := monthLength f
  let (sec, c1) := carryField 59 0x00 f.seconds
  let (mi, c2) := if c1 then carryField 59 0x00 f.minutes else (f.minutes, false)
  let (ho, c3) := if c2 then carryField 23 0x00 f.hours else (f.hours, false)
  let wd := if c3 then carryWeekday f.weekday else f.weekday
  let (da, c4) := if c3 then carryField len 0x01 f.day else (f.day, false)
  let (mo, c5) := if c4 then carryField 12 0x01 f.month else (f.month, false)
  let (ye, c6) := if c5 then carryField 99 0x00 f.year else (f.year, false)
  let (ce, _) := if c6 then carryField 99 0x00 f.century else (f.century, false)
  { seconds := sec, minutes := mi, hours := ho, weekday := wd, day := da, month := mo, year := ye, century := ce }

/-- The fields as TIME_GET gives them, 8 bytes. -/
def fieldBytes (f : CalFields) : Bytes :=
  [f.seconds, f.minutes, f.hours, f.weekday.setWidth 8, f.day, f.month, f.year, f.century]

def fieldsOf (b : Bytes) : CalFields :=
  let g := fun i => BitVec.ofNat 8 (byteAt b i)
  { seconds := g 0, minutes := g 1, hours := g 2, weekday := (g 3).setWidth 4, day := g 4, month := g 5, year := g 6,
    century := g 7 }

/-! ### Alarms (R404) -/

/-- The masked fields of the calendar equal the alarm's values, byte for byte. -/
def alarmMatches (a : Alarm) (f : CalFields) : Bool :=
  a.enable && ((List.zip (fieldBytes a.value) (fieldBytes f)).zipIdx.all (fun e =>
    !a.mask.getLsbD e.2 || e.1.1 == e.1.2))

def onAlarm (i : Nat) (f : Alarm → Alarm) : State → State :=
  onCal (fun c => if i = 0 then { c with alarm0 := f c.alarm0 } else { c with alarm1 := f c.alarm1 })

def alarmOf (s : State) (i : Nat) : Alarm := if i = 0 then s.cal.alarm0 else s.cal.alarm1

/-- An alarm matches: its flag, its enable bit, and the event while the main rails are good (R404). -/
def fireAlarm (i : Nat) (s : State) : State :=
  let good := s.dev.railsGood
  let s1 := onAlarm i (fun a =>
    { a with flag := true, enable := a.enable && !a.oneShot, inRetain := a.inRetain || !good }) s
  if good then setCause 2 (logHw 0x6004 (fields [(1, i), (1, 0)]) s1) else s1

def checkAlarm (i : Nat) (s : State) : State := if alarmMatches (alarmOf s i) s.cal.fields then fireAlarm i s else s

/-! ### Counting -/

/-- A rollover in one AON tick: fields, trim window, alarms (R395, R399, R404). -/
def rollover (s : State) : State :=
  checkAlarm 1 (checkAlarm 0
    (onCal (fun c =>
      { c with
        fields := rollFields c.fields
        winCount := (c.winCount + 1) % 32
        n := if c.winCount + 1 = 32 then c.nNext else c.n
        corrections := if c.winCount + 1 = 32 then 0 else c.corrections }) s))

/-- subsec advances by k, with at most one rollover. -/
def advanceSubsec (k : Nat) (s : State) : State :=
  let v := s.cal.subsec + k
  let s1 := onCal (fun c => { c with subsec := v % 32768, removed := false }) s
  if 32768 ≤ v then rollover s1 else s1

/-- The tick is an eligible instant at which a correction is still due (R399). -/
def trimDue (c : Calendar) : Bool :=
  c.subsec % 4096 == 4095 && !c.removed && decide (c.corrections < c.n.natAbs)

/-- What one AON tick adds to subsec: 1, 2 with an addition, 0 with a removal (R399). -/
def tickStep (c : Calendar) : Nat := if trimDue c then (if c.n < 0 then 0 else 2) else 1

/-- One tick of the always-on clock (R395, R399, R403), with extra further steps of subsec. -/
def aonTick (extra : Nat) (s : State) : State :=
  if !s.dev.vaon then s
  else if 0 < s.cal.hold then onCal (fun c => { c with hold := c.hold - 1 }) s
  else
    let k := tickStep s.cal
    let s1 := if trimDue s.cal then onCal (fun c => { c with corrections := c.corrections + 1 }) s else s
    if k + extra = 0 then onCal (fun c => { c with removed := true }) s1 else advanceSubsec (k + extra) s1

/-! ### Loading (R394, R401, R402) -/

/-- A change of DATE_SUSPECT writes a record (R394). -/
def setSuspect (v : Bool) (s : State) : State :=
  let s1 := onCal (fun c => { c with suspect := v }) s
  if s.cal.suspect = v then s1 else logFw 0x6003 (fields [(1, flag v 0)]) s1

/-- Load the fields and subsec; a hold ends, a pending set is gone, TIME_VALID is set (R401, R403). -/
def loadCalendar (f : CalFields) (sub : Nat) (s : State) : State :=
  let before := fieldBytes s.cal.fields ++ leBytes 2 s.cal.subsec
  let s1 := onCal (fun c =>
    { c with fields := f, subsec := sub % 32768, valid := true, hold := 0, pendingSet := none, removed := false }) s
  logFw 0x6001 (before ++ fieldBytes f ++ leBytes 2 sub) (setSuspect (!fieldsValid f) s1)

/-! ### Trim (R398) -/

/-- x / d, ties rounded away from zero. -/
def roundDiv (x : Int) (d : Nat) : Int :=
  let m := (2 * x.natAbs + d) / (2 * d)
  if x < 0 then -(m : Int) else (m : Int)

/-- N of a curve at a temperature in units of 0.25 °C: f_err is (200,000 a0 + 5 a2 d²) / 2 × 10^7 ppm, with d = T − T0 in units
of 0.05 °C (R398, R411). -/
def trimN (a0 a2 t0 temp : Int) : Int :=
  let d := 5 * temp - 2 * t0
  let x := roundDiv (-(200000 * a0 + 5 * a2 * d * d) * 1048576) (2 * 10 ^ 13)
  max (-255) (min 255 x)

/-- The factory curve of the fuses: word 104 and the low half of word 105 (R456). -/
def factoryCurve (s : State) : Int × Int × Int :=
  let w := (fuseWord s 104).toNat
  (toSigned 2 (bits w 15 0), toSigned 2 (bits w 31 16), toSigned 2 (bits (fuseWord s 105).toNat 15 0))

/-- Put a curve in force; true for a host curve (R400). -/
def setCurve (host : Bool) (k : Int × Int × Int) : State → State :=
  onCal (fun c => { c with a0 := k.1, a2 := k.2.1, t0 := k.2.2, hostCurve := host })

/-- The latch of RETAIN_LOST in the calendar (R373, R393, R404, R405). -/
def calendarLost (s : State) : State :=
  onCal (fun c =>
    { Calendar.reset with mramCurve := c.mramCurve, nNext := 0 }) s

end Sys2Proof.Machine
end

