-- ==== Sys2Proof/Machine/Change.lean ====
section
/-! DEFINITION. Online change (R212 to R235): the carry map and its checks, staging and installation, attempts and boundaries, the
switch and its window, abort, revert and release. -/

namespace Sys2Proof.Machine

/-! ### The carry map (R214 to R217) -/

/-- The header of a carry map of n bytes between two layouts (R214). -/
def mapHeaderOk (b : Bytes) (fromHash toHash : Bytes) : Bool :=
  let sig := le b 40 4
  decide (256 ≤ b.length) && slice b 0 4 == [0x53, 0x4E, 0x43, 0x43] && le b 4 2 == 1 && le b 6 2 == 160 &&
    decide (le b 12 4 ≤ 1048576) && decide (le b 20 4 ≤ 1048576) && decide (le b 28 4 ≤ 4096) &&
    decide (le b 36 4 ≤ 1048576) && sig % 8 == 0 && sig + 96 == b.length && placed sig (le b 8 4) (16 * le b 12 4) &&
    placed sig (le b 16 4) (16 * le b 20 4) && placed sig (le b 24 4) (16 * le b 28 4) &&
    placed sig (le b 32 4) (8 * le b 36 4) && zeroFrom b 44 64 && slice b 64 48 == fromHash && slice b 112 48 == toHash

/-- n entries of k bytes from an offset. -/
def entries (b : Bytes) (off n k : Nat) : List Bytes := (List.range n).map (fun i => slice b (off + k * i) k)

def parseCarry (e : Bytes) : CarryEntry := { src := le e 0 4, dst := le e 4 4, count := le e 8 4, conv := byteAt e 12 }

/-- One data entry between two generations, of which data_words and retentive_words are given (R215, R216, R213). -/
def carryOk (src dst : Nat × Nat) (b : Bytes) : Bool :=
  let e := parseCarry b
  decide (1 ≤ e.count) && decide (e.src + e.count ≤ src.1) && decide (e.dst + e.count ≤ dst.1) &&
    zeroFrom b 13 16 &&
    (decide (e.conv ≤ 8) || e.conv == 0x10 ||
      (e.conv == 0x80 && e.src % 1024 == 0 && e.dst % 1024 == 0 && e.count % 1024 == 0 &&
        (List.range (e.count / 1024)).all (fun i =>
          let lo := e.src + 1024 * i
          let ld := e.dst + 1024 * i
          (decide (lo + 1024 ≤ src.2) && decide (ld + 1024 ≤ dst.2)) ||
            (decide (src.2 ≤ lo) && decide (dst.2 ≤ ld)))))

/-- Ascending destinations that do not overlap (R215). -/
def carryApart : List CarryEntry → Bool
  | a :: b :: r => decide (a.dst + a.count ≤ b.dst) && carryApart (b :: r)
  | _ => true

/-- Code pairs: even offsets, ascending old offsets (R216). -/
def pairsOk (l : List (Nat × Nat)) : Bool :=
  l.all (fun e => e.1 % 2 == 0 && e.2 % 2 == 0) && rising (l.map (·.1))

/-- A slot action of 16 bytes (R217). -/
def parseAction (e : Bytes) : Option SlotAction :=
  let k := byteAt e 1
  match byteAt e 0 with
  | 1 => if k ≤ 15 && zeroFrom e 2 4 && zeroFrom e 12 16 then some (.move k (le e 4 4) (le e 8 4)) else none
  | 2 => if k ≤ 18 && zeroFrom e 2 4 && zeroFrom e 8 16 then some (.free k (le e 4 4)) else none
  | 3 =>
    if k == 0 && zeroFrom e 2 4 && byteAt e 8 < 16 && byteAt e 9 < 16 && zeroFrom e 10 12 then
      some (.retype (le e 4 4) (BitVec.ofNat 4 (byteAt e 8)) (BitVec.ofNat 4 (byteAt e 9)) (BitVec.ofNat 32 (le e 12 4)))
    else none
  | _ => none

/-- The descriptor that a RETYPE gives. -/
def retyped (d : SlotDesc) (ty subTy : BitVec 4) (sub : Word) : SlotDesc := { d with ty := ty, subTy := subTy, subPayload := sub }

/-- One action fits the slots as they are (R217, R76). -/
def actionOk (s : State) : SlotAction → Bool
  | .move k src dst => look s.img.runs src == some k && dst % 2 ^ k == 0 && decide (dst + 2 ^ k ≤ slotCount)
  | .free k base => look s.img.runs base == some k
  | .retype a ty subTy sub => decide (a < slotCount) && !isFree s a && descOk s (retyped (descOf s a) ty subTy sub)

/-- The ranges of slots of an action: base and number. -/
def actionRanges : SlotAction → List (Nat × Nat)
  | .move k src dst => [(src, 2 ^ k), (dst, 2 ^ k)]
  | .free k base => [(base, 2 ^ k)]
  | .retype a _ _ _ => [(a, 1)]

/-- No two ranges share a slot. -/
def rangesApart : List (Nat × Nat) → Bool
  | [] => true
  | a :: r => r.all (fun b => decide (a.1 + a.2 ≤ b.1) || decide (b.1 + b.2 ≤ a.1)) && rangesApart r

/-- Number of slots that a change moves, and that it retypes. -/
def movedSlots (m : CarryMap) : Nat :=
  (m.actions.map (fun a => match a with
    | .move k _ _ => 2 ^ k
    | _ => 0)).sum

def retypedSlots (m : CarryMap) : Nat :=
  (m.actions.filter (fun a => match a with
    | .retype _ _ _ _ => true
    | _ => false)).length

/-- A page that a forward entry shares holds a CODEREF word of the running generation (R216). -/
def sharesCode (s : State) (fwd : List CarryEntry) : Bool :=
  match s.chg.running with
  | none => false
  | some p => s.mem.data.any (fun e => e.2.ty == Ty.coderef &&
      (virtsOf p e.1).any (fun a => fwd.any (fun c => c.conv == 0x80 && covers c a)))

/-- The carry map between the running generation and a new one; none for a structural error (R214 to R217). -/
def parseMap (s : State) (run new : Nat × Nat) (b : Bytes) : Option CarryMap :=
  let fwd := entries b (le b 8 4) (le b 12 4) 16
  let rev := entries b (le b 16 4) (le b 20 4) 16
  let acts := (entries b (le b 24 4) (le b 28 4) 16).map parseAction
  let code := (entries b (le b 32 4) (le b 36 4) 8).map (fun e => (le e 0 4, le e 4 4))
  let m : CarryMap :=
    { fwd := fwd.map parseCarry, rev := rev.map parseCarry, actions := acts.filterMap id, codePairs := code,
      fromHash := slice b 64 48, toHash := slice b 112 48, raw := b }
  if fwd.all (carryOk run new) && rev.all (carryOk new run) && carryApart m.fwd && carryApart m.rev && pairsOk code &&
      acts.all Option.isSome && m.actions.all (actionOk s) && rangesApart (m.actions.flatMap actionRanges) &&
      movedSlots m ≤ 32768 && !sharesCode s m.fwd then some m else none

/-! ### Descriptors and pages of a staged generation -/

/-- The descriptor that is left at a source of a MOVE, or claimed at its destination (R220, R226). -/
def unowned (d : SlotDesc) : SlotDesc := { d with ownerKind := 0 }

/-- One action on a list of descriptors. -/
def actOnDescs (l : List (Nat × SlotDesc)) : SlotAction → List (Nat × SlotDesc)
  | .move k src dst =>
    (List.range (2 ^ k)).foldl (fun m i =>
      let d := readAt freeDesc m (src + i)
      insertAt (insertAt m (dst + i) d) (src + i) (unowned d)) l
  | .free k base => dropWindow l base (2 ^ k)
  | .retype a ty subTy sub => insertAt l a (retyped (readAt freeDesc l a) ty subTy sub)

/-- The descriptors as they will stand after the slot actions (R218 step 4). -/
def descsAfter (s : State) (m : CarryMap) : List (Nat × SlotDesc) := m.actions.foldl actOnDescs s.img.descs

/-- Every MOVE destination is free. -/
def destsFree (s : State) (m : CarryMap) : Bool :=
  m.actions.all (fun a => match a with
    | .move k _ dst => (holdingRun dst k s.img.free).isSome
    | _ => true)

/-- The physical page with which a staged address page is shared (R213). -/
def sharedPage (run : Program) (m : CarryMap) (v : Nat) : Option Nat :=
  (m.fwd.find? (fun e => e.conv == 0x80 && decide (e.dst ≤ 1024 * v) && decide (1024 * v < e.dst + e.count))).map (fun e =>
    nth 4096 run.pageMap ((e.src + (1024 * v - e.dst)) / 1024))

/-- The staged page map: shared pages, and the lowest free physical pages for the others (R213, log entry 9). -/
def buildMap (run : Program) (m : CarryMap) : Nat → Nat → List Nat → List Nat
  | 0, _, _ => []
  | k + 1, v, avail =>
    match sharedPage run m v with
    | some p => p :: buildMap run m k (v + 1) avail
    | none => (avail.head?).getD 4096 :: buildMap run m k (v + 1) (avail.drop 1)

/-- Physical pages that a generation does not use. -/
def unusedPages (p : Program) : List Nat := (List.range 4096).filter (fun x => !p.pageMap.contains x)

/-- Number of private pages of a staged generation. -/
def privateCount (run new : Program) (m : CarryMap) : Nat :=
  ((List.range new.pageMap.length).filter (fun v => (sharedPage run m v).isNone)).length

/-- Retentive words of a staged generation that lie in private pages. -/
def privateRetentive (run new : Program) (m : CarryMap) : Nat :=
  ((List.range new.pageMap.length).map (fun v =>
    if (sharedPage run m v).isNone then min 1024 (new.retentiveWords - 1024 * v) else 0)).sum

/-- The data resources of R213 and R361. -/
def stageFits (s : State) (run new : Program) (m : CarryMap) : Bool :=
  decide (privateCount run new m ≤ (unusedPages run).length) &&
    decide (run.retentiveWords + privateRetentive run new m ≤ 2097152) &&
    decide (s.mem.groups.length + (privateRetentive run new m + 63) / 64 ≤ 32768)

/-! ### CHANGE_STAGE (R218 to R220) -/

def stageImage (r : Request) : Nat := pField r 16 4
def stageMap (r : Request) : Nat := pField r 20 4

/-- An object length of R218. -/
def lengthOk (n lo hi : Nat) : Bool := n % 64 == 0 && decide (lo ≤ n ∧ n ≤ hi)

def cmdChangeStage : Cmd :=
  { op := 0x3001, used := fun _ => 26, long := true
    shape := fun r => decide (pByte r 25 < 2)
    pay := fun _ => .must true
    also := fun _ s => s.chg.retained.isNone
    range := fun r _ =>
      badIf (!lengthOk (stageImage r) 4096 67108864 || !lengthOk (stageMap r) 256 33554432 || decide (3 < pByte r 24) ||
        !scatterOk (stageImage r + stageMap r) (scatterEntries r))
    busy := fun _ s => busyIf (opActive s [0x3001])
    effect := fun r s =>
      let a := accept 0x3001 r (2 * kib (stageImage r + stageMap r) + kib (stageImage r)) [] s
      (a.1, onChg (fun c => { c with busySlots := [] }) a.2) }

/-- Slots of an action on which a force conflicts (R219). -/
def conflictRange : SlotAction → Nat × Nat
  | .move k src _ => (src, 2 ^ k)
  | .free k base => (base, 2 ^ k)
  | .retype a _ _ _ => (a, 1)

def inRange (r : Nat × Nat) (a : Nat) : Bool := decide (r.1 ≤ a) && decide (a < r.1 + r.2)

/-- The forced slots in a list of ranges, rising. -/
def forcedIn (s : State) (l : List (Nat × Nat)) : List Nat :=
  (s.img.forces.map (·.slot)).filter (fun a => l.any (fun r => inRange r a))

/-- Steps 1 to 5 of R218: the staged generation with its page map and its carry map, or the status and the needs. -/
def checkStage (s : State) (r : Request) : Sum Beside (Nat × Nat × Nat) :=
  let image := r.object.take (stageImage r)
  let map := (r.object.drop (stageImage r)).take (stageMap r)
  match s.chg.running with
  | none => .inr (stBadParam, 0, 0)
  | some run =>
    if !headerOk image || !mapHeaderOk map run.layoutHash (slice image 64 48) then .inr (stBadParam, 0, 0)
    else if !signedOk s (pByte r 24) (le image 56 4) image || !signedOk s (pByte r 24) (le map 40 4) map then
      .inr (stIntegrity, 0, 0)
    else
      match parseMap s (run.dataWords, run.retentiveWords) (le image 20 4, le image 24 4) map with
      | none => .inr (stBadParam, 0, 0)
      | some m =>
        match parseProgram s (descsAfter s m) (newGeneration s) (pByte r 24) image with
        | none => .inr (stBadParam, 0, 0)
        | some p =>
          if !destsFree s m || !refsOk (descsAfter s m) p then .inr (stBadParam, 0, 0)
          else
            let new : Program := { p with pageMap := buildMap run m p.pageMap.length 0 (unusedPages run) }
            if 2048 < needBoth s run new || !stageFits s run new m ||
                (noEngine s (new.tasks.map (·.sched))).isSome then
              .inr (stNoResource, needBoth s run new, privateCount run new m)
            else .inl { prog := new, map := m, saved := [] }

/-- The MOVE destinations are claimed: each run leaves the allocator and takes the source descriptors with owner_kind 0;
values do not change (R220). -/
def claimRuns (m : CarryMap) (s : State) : State :=
  m.actions.foldl (fun t a => match a with
    | .move k src dst =>
      match allocRun (some dst) k t.img.free with
      | some (_, l) =>
        let t1 := mirror (.allocRun dst k) (onImg (fun i => { i with free := l, runs := insertAt i.runs dst k }) t)
        (List.range (2 ^ k)).foldl (fun u i =>
          let d := unowned (descOf t (src + i))
          let u1 := mirror (.slotDesc (dst + i) d) (onImg (fun x => { x with descs := insertAt x.descs (dst + i) d }) u)
          if d.retentive then addGroup (.slots ((dst + i) / 64)) u1 else u1) t1
      | none => t
    | _ => t) s

/-- The private pages of a generation. -/
def ownPages (run new : Program) : List Nat := new.pageMap.filter (fun x => !run.pageMap.contains x)

/-- The words of the private pages before the carry: initial values of the image, EMPTY elsewhere (R215), with their groups. -/
def fillPrivate (run new : Program) (s : State) : State :=
  let own := ownPages run new
  let s1 := onMem (fun m => { m with data := m.data.filter (fun e => !own.contains (e.1 / 1024)) }) s
  let s2 := addGroups ((retentiveKeys new).filter (fun k => match k with
    | .data p _ => own.contains p
    | .slots _ => false)) s1
  (new.init.filter (fun e => own.contains (nth 4096 new.pageMap (e.1 / 1024)))).foldl
    (fun t e => (writePhys true (physOf new e.1) e.2 t).2) s2

/-- A covered destination word is EMPTY until a source word is carried into it (R215). -/
def clearCovered (run new : Program) (m : CarryMap) (s : State) : State :=
  (new.init.filter (fun e =>
    (ownPages run new).contains (nth 4096 new.pageMap (e.1 / 1024)) &&
      m.fwd.any (fun c => c.conv != 0x80 && decide (c.dst ≤ e.1) && decide (e.1 < c.dst + c.count)))).foldl
    (fun t e => (writePhys true (physOf new e.1) TWord.empty t).2) s

/-- The initial carry: every forward-mapped word that holds something (R215, R218 step 8). -/
def initialCarry (run new : Program) (m : CarryMap) (s : State) : State :=
  (s.mem.data.flatMap (fun e => virtsOf run e.1)).foldl (fun t a => carryWord run new m.fwd m.codePairs a t)
    (clearCovered run new m s)

/-- The slots on which FORCE_SET gives BUSY while a change is staged (R219). -/
def stageBusy (m : CarryMap) : List Nat :=
  (m.actions.flatMap (fun a => match a with
    | .move k src dst => [(src, 2 ^ k), (dst, 2 ^ k)]
    | x => [conflictRange x])).flatMap (fun r => (List.range r.2).map (r.1 + ·))

/-- Step 7 of R218: the image goes over the archive's previous entry. -/
def archiveStaged (b : Beside) : State → State :=
  onChg (fun c => { c with archivePrev := some (b.prog.gen, b.prog.keySlot, b.prog.image), highest := b.prog.gen })

/-- Installation of a staged generation (R220), the tracer and the initial carry (R221). -/
def installStaged (b : Beside) (s : State) : State :=
  match s.chg.running with
  | none => s
  | some run =>
    let s1 := onPair (fun p => { p with partnerGen := none }) (onChg (fun c =>
      { c with staged := some b, busySlots := stageBusy b.map, tracing := true, reverse := false, traced := [], convFailures := 0 })
      (archiveStaged b (claimRuns b.map s)))
    let s2 := initialCarry run b.prog b.map (fillPrivate run b.prog s1)
    mirrorGenerations (setRefs (loadResident b.prog (residentPages (defaultPlan b.prog)) s2))

/-- The partner is a standby in reach (R234). -/
def hasStandby (s : State) : Bool := s.dev.role == .primary && s.pair.partnerRole == some 2 && s.pair.linkUp

/-- The staged generation stands: CHANGING, and the operation ends (R218). Result bytes 8 to 15, which name conflicting forces, are 0
where the command cleared them (DESIGN CHOICE, log entry 61). -/
def stageDone (i : Nat) (b : Beside) (s : State) : State :=
  endOp i stOk
    (leBytes 4 b.prog.gen ++ leBytes 2 (match s.chg.running with
      | some run => needBoth s run b.prog
      | none => 0) ++ leBytes 2 (match s.chg.running with
      | some run => (ownPages run b.prog).length
      | none => 0)) (enterOrReturn .changing s)

/-- Conflicting forces are cleared when the command says so (R219). -/
def dropForces (l : List Nat) (s : State) : State :=
  settle (withTriggers l (fun t => l.foldl (fun u a => clearForce 3 a u) t) s)

/-- The staging of a PRIMARY cannot end with both modules: neither keeps the generation (R234). -/
def stageFails (i : Nat) (s : State) : State := endOp i stPartnerError [] (discardStaged 4 s)

/-- Steps 7 and 8 of R218. A state in which no staging is legal, entered since the admission, leaves the archive's previous entry
alone as what was done: no generation is staged, and the operation ends with ABORTED (R68; log entry 36). On a PRIMARY the
operation ends when the partner has installed the generation too, and fails where no standby can be reached (R234). -/
def stageInstall (i : Nat) (o : LongOp) (b : Beside) (s : State) : State :=
  if o.doomed || effState s != .run then endOp i stAborted [] (archiveStaged b s)
  else
    let t := onOp i (fun o => { o with work := o.total }) (installStaged b s)
    if t.dev.role != .primary then stageDone i b t
    else if hasStandby t then sendSel (.bulk (.changeStage b.prog.keySlot b.prog.gen b.prog.image b.map.raw)) t
    else stageFails i t

/-- CHANGE_STAGE goes on: the checks, the wait for admission, the force table, the archive, the installation (R218). -/
def execChangeStageInstall (time : Nat) (s : State) : Out :=
  finish s
    (if !firmwareServes s || s.chg.window.isSome then advance time s
    else goOnOp 0x3001 (fun i o t =>
      if t.chg.staged.isSome then t
      else match checkStage t o.req with
        | .inr (st, n, p) => endOp i st (leBytes 4 0 ++ leBytes 2 n ++ leBytes 2 p) t
        | .inl b =>
          let forced := forcedIn t (b.map.actions.map conflictRange)
          if !forced.isEmpty && !bitOf (pByte o.req 25) 0 then
            endOp i stForceConflict
              (List.replicate 8 0 ++ leBytes 4 forced.length ++ leBytes 4 ((forced.head?).getD 0)) t
          else
            let t1 := onChg (fun c => { c with busySlots := stageBusy b.map }) (dropForces forced t)
            if !o.admitted then onOp i (fun o => { o with work := kib (stageImage o.req + stageMap o.req) }) (waitHere i t1)
            else stageInstall i o b t1) (advance time s))

/-- Firmware copies one traced word and clears its mark first (R221, R222). -/
def execTracerCopy (addr : Nat) (s : State) : Out :=
  finish s
    (if s.chg.traced.contains addr && firmwareServes s && s.chg.window.isNone then
      carryTraced addr (onChg (fun c => { c with traced := c.traced.filter (· != addr) }) s)
    else s)

/-! ### CHANGE_COMMIT, CHANGE_ABORT, CHANGE_REVERT, CHANGE_RELEASE (R224, R230 to R232) -/

/-- The parameters of an attempt are out of range (R224). -/
def attemptBad (r : Request) : Bool :=
  decide (16 < pByte r 16) || pByte r 17 == 0 || decide (pField r 20 4 < 1 ∨ 65536 < pField r 20 4) ||
    decide (pField r 24 4 < 1 ∨ 40000 < pField r 24 4)

/-- The slots on which FORCE_SET gives BUSY while a revert is PENDING: those of its inverse MOVE and RETYPE actions (R219, R231). -/
def revertBusy (m : CarryMap) : List Nat :=
  stageBusy { m with actions := m.actions.filter (fun a => match a with
    | .free _ _ => false
    | _ => true) }

/-- A commit or revert begins: the first attempt at the next boundary. -/
def beginAttempt (revert : Bool) (op : Nat) (r : Request) (s : State) : Answer × State :=
  let i := headIndex s
  let a := accept op r (pByte r 17) [] s
  (a.1, onChg (fun c =>
    { c with busySlots := if revert then (c.retained.map (fun b => revertBusy b.map)).getD [] else c.busySlots
             attempt := some { revert := revert, holdFrom := pByte r 16, attempts := pByte r 17, maxWords := pField r 20 4,
                               gap := pField r 24 4, made := 0, first := s.dev.tick + 1, skips := 0, handle := i } }) a.2)

def cmdChangeCommit : Cmd :=
  { op := 0x3002, used := fun _ => 28, long := true
    shape := fun r => pZero r 18 20
    range := fun r _ => badIf (attemptBad r)
    busy := fun _ s => busyIf s.chg.attempt.isSome
    effect := beginAttempt false 0x3002 }

def cmdChangeAbort : Cmd :=
  { op := 0x3003, used := fun _ => 16
    effect := fun _ s => (okAnswer, mirrorGenerations (enterOrReturn .run (discardStaged 0 s))) }

/-- The slots whose forces conflict with a revert: MOVE destinations and retyped slots (R231). -/
def revertRange : SlotAction → List (Nat × Nat)
  | .move k _ dst => [(dst, 2 ^ k)]
  | .free _ _ => []
  | .retype a _ _ _ => [(a, 1)]

def revertForces (s : State) : List Nat :=
  match s.chg.retained with
  | some b => forcedIn s (b.map.actions.flatMap revertRange)
  | none => []

def cmdChangeRevert : Cmd :=
  { op := 0x3004, used := fun _ => 29, long := true
    shape := fun r => pZero r 18 20 && decide (pByte r 28 < 2)
    also := fun _ s => s.chg.retained.isSome
    range := fun r _ => badIf (attemptBad r)
    busy := fun _ s => busyIf s.chg.attempt.isSome
    lack := fun r s =>
      let l := revertForces s
      if l.isEmpty || bitOf (pByte r 28) 0 then none
      else some { status := stForceConflict,
                  result := List.replicate 8 0 ++ leBytes 4 l.length ++ leBytes 4 ((l.head?).getD 0) }
    effect := fun r s => beginAttempt true 0x3004 r (dropForces (revertForces s) s) }

/-- Slots in a list of runs. -/
def runSlots (l : List (Nat × Nat)) : Nat := (l.map (fun e => 2 ^ e.2)).sum

/-- CHANGE_RELEASE (R232): the retained generation goes, and the FREE and MOVE source runs are freed. A PENDING revert to it ends
with ABORTED (log entry 36). -/
def releaseRetained (s : State) : State :=
  match s.chg.retained with
  | none => s
  | some b =>
    mirrorGenerations (mirror (.mark .changeRelease)
      ((releasedRuns b).foldl (fun t e => giveRun e.1 e.2 t) (dropRetained (abortAttempt s))))

def cmdChangeRelease : Cmd :=
  { op := 0x3005, used := fun _ => 16
    also := fun _ s => s.chg.retained.isSome
    busy := fun _ s =>
      let runs := match s.chg.retained with
        | some b => releasedRuns b
        | none => []
      busyIf (!(forcedIn s (runs.map (fun e => (e.1, 2 ^ e.2)))).isEmpty)
    effect := fun _ s =>
      let (n, p) := match s.chg.retained with
        | some b => (runSlots (releasedRuns b), (privatePages s b.prog).length)
        | none => (0, 0)
      ({ status := stOk, result := leBytes 4 n ++ leBytes 2 p }, releaseRetained s) }

def execChangeStage (r : Request) (s : State) : Out := finish s (serve cmdChangeStage r s)
def execChangeCommit (r : Request) (s : State) : Out := finish s (serve cmdChangeCommit r s)
def execChangeAbort (r : Request) (s : State) : Out := finish s (serve cmdChangeAbort r s)
def execChangeRevert (r : Request) (s : State) : Out := finish s (serve cmdChangeRevert r s)
def execChangeRelease (r : Request) (s : State) : Out := finish s (serve cmdChangeRelease r s)

/-! ### Boundaries (R224, R225) -/

/-- The generation that an attempt would switch to, and its carry map. -/
def attemptTarget (s : State) (revert : Bool) : Option Beside := if revert then s.chg.retained else s.chg.staged

/-- W of R225. -/
def switchLoad (s : State) (revert : Bool) : Nat :=
  s.chg.traced.length +
    match attemptTarget s revert with
    | some b => 2 * movedSlots b.map + retypedSlots b.map
    | none => 0

/-- Traced words that would make retentive words of the other generation dirty, two blocks each (R225, R362). -/
def tracedDirty (s : State) : Nat :=
  let l := traceEntries s
  let words := match (if s.chg.reverse then s.chg.retained else s.chg.staged) with
    | some b => b.prog.retentiveWords
    | none => 0
  128 * (s.chg.traced.filter (fun a => l.any (fun e => covers e a && decide (e.dst + (a - e.src) < words)))).length

/-- No task is active. -/
def noneActive (s : State) : Bool := s.scan.tasks.all (fun t => !t.st.active)

/-- The boundary of the tick in progress is quiescent for an attempt (R225). -/
def quiescent (a : Attempt) (s : State) : Bool :=
  match attemptTarget s a.revert with
  | none => false
  | some b =>
    noneActive s && (residentPages (defaultPlan b.prog)).all (fun p => stored s b.prog.gen p) &&
      decide (switchLoad s a.revert ≤ a.maxWords) && decide (dirtyBytes s + tracedDirty s ≤ enforcedLimit s) &&
      s.dev.st == (if a.revert then .run else .changing) &&
      (s.dev.role != .primary ||
        (decide (switchLoad s a.revert ≤ 16384) && s.pair.partnerRole == some 2 &&
          (a.revert || s.pair.partnerGen == some b.prog.gen)))

/-- Event tasks that an attempt holds back. -/
def holdTasks (s : State) (holdFrom : Nat) : List Nat :=
  (List.range 64).filter (fun n =>
    (getTask s n).sched.kind == 2 && decide (holdFrom ≤ (getTask s n).sched.priority))

/-- Cyclic tasks due at the boundary of the tick in progress (R108). -/
def dueTasks (s : State) : List Nat :=
  (List.range 64).filter (fun n =>
    let c := (getTask s n).sched
    c.kind == 1 && c.period != 0 && s.dev.tick % c.period == c.offset)

/-- A controlled skip of task n (R120, R224). -/
def skipControlled (n : Nat) (s : State) : State :=
  logHw 0x3002 (keyed ([b8 n, 0, 0, 0] ++ leBytes 4 (runningGen s)) [])
    (onTask n (fun t => { t with controlledSkips := inc32 t.controlledSkips }) s)

/-- The switch begins at the boundary of the tick in progress: the window opens (R226). -/
def openWindow (a : Attempt) (s : State) : State :=
  let w := switchLoad s a.revert
  onChg (fun c =>
    { c with attempt := none, heldTasks := []
             window := some { boundary := s.dev.tick, w := w, d := 200 + 8 * w,
                              endAt := s.dev.tickAt + 10 * (200 + 8 * w), due := [], failures := 0, skips := a.skips,
                              halt := false, revert := a.revert, handle := a.handle } })
    (onOp a.handle (fun o => { o with past := true }) s)

/-- The attempts are exhausted: TIMEOUT with W at the last boundary examined (R224). Bytes 0 to 3 and 8 to 11 are 0, and bytes 12 to 15
count the controlled skips made (DESIGN CHOICE, log entry 61). -/
def attemptsEnd (a : Attempt) (s : State) : State :=
  endOp a.handle stTimeout (leBytes 4 0 ++ leBytes 4 (switchLoad s a.revert) ++ leBytes 4 0 ++ leBytes 4 a.skips)
    (onChg (fun c => { c with attempt := none, heldTasks := [] }) s)

/-- The fifth boundary of an attempt: it fails (R224). -/
def attemptFails (a : Attempt) (s : State) : State :=
  let s1 := logHw 0x3003 (fields [(1, a.made + 1), (4, switchLoad s a.revert)]) s
  let s2 := onOp a.handle (fun o => { o with work := a.made + 1 }) s1
  if a.attempts ≤ a.made + 1 then attemptsEnd a s2
  else onChg (fun c =>
    { c with attempt := some { a with made := a.made + 1, first := s.dev.tick + a.gap }, heldTasks := [] }) s2

/-- An examined boundary: the switch, a held boundary, or the end of the attempt. Where the device no longer releases, no release falls
due and none is skipped (R130). -/
def examine (a : Attempt) (s : State) : State :=
  if quiescent a s then openWindow a s
  else if s.dev.tick < a.first + 4 then
    let skips := if !releases s then [] else (dueTasks s).filter (fun n =>
      decide (a.holdFrom ≤ (getTask s n).sched.priority) && ((getTask s n).st.active || (getTask s n).st == .idle))
    let s1 := onOp a.handle (fun o => { o with past := o.past || decide (a.attempts ≤ a.made + 1) }) s
    onChg (fun c =>
      { c with heldTasks := holdTasks s a.holdFrom, attempt := some { a with skips := a.skips + skips.length } })
      (skips.foldl (fun t n => skipControlled n t) s1)
  else attemptFails a s

/-- The attempt of CHANGE_COMMIT or CHANGE_REVERT at the boundary of the tick in progress. In HOLDUP attempts are suspended
(R229): what was begun is begun again after it. -/
def attemptBoundary (s : State) : State :=
  match s.chg.attempt with
  | none => s
  | some a =>
    match getOp s a.handle with
    | none => onChg (fun c => { c with attempt := none, heldTasks := [] }) s
    | some o =>
      if o.suspended || s.dev.st = .holdup then
        onChg (fun c => { c with attempt := some { a with first := max a.first (s.dev.tick + 1) }, heldTasks := [] }) s
      else if s.dev.tick < a.first then s
      else if s.dev.tick = a.first && !o.past && stopAsked s o then abortAttempt s
      else examine a s

/-! ### The switch (R226 to R231) -/

/-- One MOVE, from one run to another: descriptor, owner and live word (R226). -/
def moveRun (k src dst : Nat) (s : State) : State :=
  (List.range (2 ^ k)).foldl (fun t i =>
    let d := descOf t (src + i)
    let w := liveWord t (src + i)
    let t1 := mirror (.slotDesc (src + i) (unowned d)) (mirror (.slotDesc (dst + i) d)
      (onImg (fun x => { x with descs := insertAt (insertAt x.descs (dst + i) d) (src + i) (unowned d) }) t))
    setLive (dst + i) w t1) s

/-- A slot takes a type and a substitute value, and the live word that R82 gives it (R226). -/
def retypeSlot (a : Nat) (d : SlotDesc) (s : State) : State :=
  setLive a (firstContents d)
    (mirror (.slotDesc a d) (onImg (fun x => { x with descs := insertAt x.descs a d }) s))

/-- The slot actions of a commit, with the descriptors that RETYPE replaces. -/
def forwardActions (m : CarryMap) (s : State) : State :=
  m.actions.foldl (fun t a => match a with
    | .move k src dst => moveRun k src dst t
    | .free _ _ => t
    | .retype x ty subTy sub => retypeSlot x (retyped (descOf t x) ty subTy sub) t) s

/-- The inverse actions of a revert (R231). -/
def backwardActions (b : Beside) (s : State) : State :=
  b.map.actions.foldl (fun t a => match a with
    | .move k src dst => moveRun k dst src t
    | .free _ _ => t
    | .retype x _ _ _ =>
      match look b.saved x with
      | some d => retypeSlot x (retyped (descOf t x) d.ty d.subTy d.subPayload) t
      | none => t) s

/-- A task passes to the new generation (R228). -/
def passTask (s : State) (c : SchedRec) (t : Task) : Task :=
  let rearm := c.kind == 2 && c.trigger == 4 && bitOf c.mode 0
  if c.kind = 0 then { t with sched := c, st := .disabled, latch := none, coalesced := 0, timer := none }
  else match t.st with
    | .disabled => freshTask c
    | .suspended | .halted => { t with sched := c }
    | _ =>
      { t with
        sched := c
        latch := if c.kind = 2 then t.latch else none
        coalesced := if c.kind = 2 then t.coalesced else 0
        timer := if c.kind = 2 ∧ c.trigger = 4 then
            (match t.timer with
              | some x => some x
              | none => if rearm && releases s then some (s.dev.now + 6000 * c.delay) else none)
          else none }

def passTasks (p : Program) (s : State) : State :=
  (List.range 64).foldl (fun t n =>
    let c := ((p.tasks[n]?).map (·.sched)).getD schedDisabled
    let u := mirror (.schedRec n c) (onTask n (passTask t c) t)
    if (getTask t n).timer.isNone && (getTask u n).timer.isSome then timerLead n u else u) s

/-- The generation that becomes the running one, with its page map, task table and plan (R226 step 4 and 5). -/
def becomeRunning (p : Program) (s : State) : State :=
  replan (passTasks p (onMem (fun m => { m with loading := [] }) (onChg (fun c =>
    { c with running := some p, switchRec := some (p.gen, p.pageMap),
             archive := if (c.archivePrev.map (·.1)) = some p.gen then c.archivePrev else c.archive,
             archivePrev := if (c.archivePrev.map (·.1)) = some p.gen then c.archive else c.archivePrev }) s)))

/-- The slots whose live word or type an action changes, forward and back. -/
def forwardSlots (m : CarryMap) : List Nat :=
  m.actions.flatMap (fun a => match a with
    | .move k _ dst => (List.range (2 ^ k)).map (dst + ·)
    | .free _ _ => []
    | .retype x _ _ _ => [x])
def backwardSlots (m : CarryMap) : List Nat :=
  m.actions.flatMap (fun a => match a with
    | .move k src _ => (List.range (2 ^ k)).map (src + ·)
    | .free _ _ => []
    | .retype x _ _ _ => [x])

/-- The steps of a commit's window (R226). A change of a slot sets the pending latches of the tasks that watch it (R227). -/
def switchForward (b : Beside) (run : Program) (s : State) : State :=
  let s1 := s.chg.traced.foldl (fun t a => carryTraced a t) s
  let saved := b.map.actions.filterMap (fun a => match a with
    | .retype x _ _ _ => some (x, descOf s1 x)
    | _ => none)
  let s2 := withTriggers (forwardSlots b.map) (forwardActions b.map) s1
  becomeRunning b.prog (onChg (fun c =>
    { c with staged := none, retained := some { prog := run, map := b.map, saved := saved }, busySlots := [],
             tracing := true, reverse := true, traced := [] }) s2)

/-- The steps of a revert's window: the newer generation is discarded with its MOVE destinations (R231). -/
def switchBack (b : Beside) (run : Program) (s : State) : State :=
  let s1 := s.chg.traced.foldl (fun t a => carryTraced a t) s
  let s2 := becomeRunning b.prog (onChg (fun c =>
    { c with retained := none, tracing := false, reverse := false, traced := [] }) (withTriggers (backwardSlots b.map) (backwardActions b) s1))
  let s3 := b.map.actions.foldl (fun t a => match a with
    | .move k _ dst => giveRun dst k t
    | _ => t) s2
  dropPages (privatePages s3 run) (dropGeneration run.gen s3)

/-- The releases that fell due in the window are made at its end, under the new generation (R227). -/
def windowReleases (w : Window) (s : State) : State :=
  let due := (List.range 64).filter (fun n => (look w.due n).isSome || (getTask s n).latch.isSome)
  due.foldl (fun t n =>
    let x := getTask t n
    match look w.due n with
    | some k =>
      if x.sched.kind = 1 ∧ x.st = .idle then
        releaseIn k n 0 (t.dev.tickAt - 1500000 * (t.dev.tick - k)) w.endAt TWord.empty t
      else t
    | none => releaseLatched n w.endAt t) s

/-- The end of an open switch window (R226 to R229). -/
def endWindow (s : State) : State :=
  match s.chg.window, s.chg.running with
  | some w, some run =>
    match attemptTarget s w.revert with
    | none => onChg (fun c => { c with window := none }) s
    | some b =>
      let s1 := (if w.revert then switchBack b run else switchForward b run) (advance w.endAt s)
      let s2 := setRefs (onChg (fun c => { c with window := none }) s1)
      let s3 := mirrorGenerations (enterOrReturn .run s2)
      let s4 := logHw 0x3001
        (fields [(4, b.prog.gen), (4, run.gen), (4, w.w), (4, w.d), (4, s3.chg.convFailures), (4, w.skips)]) s3
      let s5 := onChg (fun c => { c with convFailures := 0 }) <| endOp w.handle stOk (fields [(4, w.boundary), (4, w.w), (4, w.d), (4, w.skips)]) s4
      if w.halt then goHalted s5 else settle (windowReleases w s5)
  | _, _ => s

end Sys2Proof.Machine
end

