-- ==== Sys2Proof/Machine/EventRec.lean ====
section
/-! DEFINITION. The event record (R441 to R454): records, the writer, repeats, reading, export, marks and clearing. -/

namespace Sys2Proof.Machine

/-! ### Records (R442, R443) -/

/-- The codes marked R in R455. -/
def repeatCodes : List Nat :=
  [0x1002, 0x1004, 0x1005, 0x1008, 0x1010, 0x3002, 0x4010, 0x5008, 0x9009, 0xA001, 0xB001, 0xC002, 0xD003]

/-- The 64 bytes of a record (R442). -/
def recordBytes (x : LogRec) : Bytes :=
  let body := leBytes 6 x.seq ++ leBytes 6 x.time ++ leBytes 4 x.pcc ++ leBytes 2 x.code ++ [x.flags, 0] ++ sliceZ x.cal 0 8 ++
    leBytes 2 x.reps ++ leBytes 6 x.last ++ sliceZ x.data 0 24
  leBytes 4 (crc32c body).toNat ++ body

/-- The newest sequence number, 0 when there is no record. -/
def newestSeq (s : State) : Nat := ((s.log.recs.head?).map (·.seq)).getD 0

/-- The readable records, newest first: none older than the newest CLEARED record (R441, R453). -/
def readable (s : State) : List LogRec := s.log.recs.filter (fun x => decide (s.log.cleared ≤ x.seq))

/-- Issue a sequence number; the high-water value is raised first where it must be (R444). -/
def issueSeq (s : State) : Nat × State :=
  let q := s.log.next
  (q, onLog (fun l => { l with next := q + 1, highWater := if q = l.highWater then l.highWater + 4096 else l.highWater }) s)

/-- The record of an event (R442). -/
def recordOf (s : State) (q : Nat) (e : Event) (code : Nat) (data : Bytes) (continued : Bool) : LogRec :=
  let sus := match e.cal with
    | some (_, v) => v
    | none => false
  { seq := q, time := e.time, pcc := s.dev.powerCycles, code := code,
    flags := b8 (flag e.cal.isSome 0 + flag sus 1 + flag (decide (0xFFFFFFFF ≤ s.dev.powerCycles)) 2 + flag e.fw 3 +
      flag continued 4),
    cal := match e.cal with
      | some (f, _) => [f.seconds, f.minutes, f.hours, f.weekday.setWidth 8, f.day, f.month, f.year, f.century]
      | none => []
    reps := 0, last := e.time, data := sliceZ data 0 24 }

/-! ### The writer (R446 to R448) -/

/-- The newest version reaches MRAM: the shadow and the own slot alternate (R448). -/
def writeRepeat (s : State) : State :=
  if s.log.pendingRepeat then
    onLog (fun l =>
      { l with
        pendingRepeat := false
        shadow := if l.toShadow then l.recs.head? else l.shadow
        own := if l.toShadow then l.own else l.recs.head?
        toShadow := !l.toShadow }) s
  else s

/-- Before a new record: the pending update, then the newest version into its own slot (R448). -/
def settleNewest (s : State) : State := onLog (fun l => { l with own := l.recs.head?, shadow := none }) (writeRepeat s)

/-- A new record becomes the newest; readable are the 65,535 sequence numbers up to it (R441). -/
def pushRecord (x : LogRec) (s : State) : State :=
  onLog (fun l =>
    { l with recs := (x :: l.recs).filter (fun y => decide (x.seq < y.seq + 65535)), own := some x, shadow := none, toShadow := true, pendingRepeat := false })
    (settleNewest s)

/-- The event repeats the newest record (R447). -/
def isRepeat (s : State) (e : Event) : Bool :=
  match s.log.recs.head? with
  | some x =>
    x.code == e.code && repeatCodes.contains e.code && !x.flags.getLsbD 4 && decide (e.data.length ≤ 24) &&
      decide (x.data.take 8 = sliceZ e.data 0 8)
  | none => false

/-- Fold a repeat into the newest record (R447). -/
def foldRepeat (e : Event) (s : State) : State :=
  onLog (fun l =>
    { l with
      recs := match l.recs with
        | x :: r =>
          { x with reps := satTo 0xFFFF (x.reps + 1), last := e.time, data := x.data.take 8 ++ sliceZ e.data 8 16 } :: r
        | [] => []
      pendingRepeat := true }) s

/-- Write the record of an event, with its CONTINUATION where its data are longer than 24 bytes (R443); the sequence number of
the first, and the state. -/
def writeEvent (e : Event) (s : State) : Nat × State :=
  let long := decide (24 < e.data.length)
  let a := issueSeq s
  let s1 := pushRecord (recordOf s a.1 e e.code e.data long) a.2
  if long then
    let b := issueSeq s1
    (a.1, pushRecord (recordOf s b.1 e 0x0004 (e.data.drop 24) false) b.2)
  else (a.1, s1)

/-- The writer takes the next event (R446). With room again, what was lost is named in one QUEUE_LOST event. -/
def takeEvent (s : State) : State :=
  match s.log.queue with
  | [] => s
  | e :: r =>
    let s1 := onLog (fun l => { l with queue := r }) s
    let s2 := if isRepeat s1 e then foldRepeat e s1 else (writeEvent e s1).2
    if 0 < s2.log.lostNew then
      logHw 0x0005 (leBytes 4 s2.log.lostNew) (onLog (fun l => { l with lostNew := 0 }) s2)
    else s2

/-- The writer takes n events. -/
def takeEvents : Nat → State → State
  | 0, s => s
  | n + 1, s => takeEvents n (takeEvent s)

/-- The writer runs: power, and not after the end of stage 2 (R446). -/
def writerOn (s : State) : Bool := !(s.dev.st == .off || s.dev.st == .retain) && !s.log.stopped

def execEventRecordWrite (s : State) : Out := finish s (if writerOn s then takeEvent s else s)

/-- A pending repeat update reaches MRAM (R448). -/
def execRepeatUpdate (s : State) : Out := finish s (if writerOn s then writeRepeat s else s)

/-- The slots of the records that LOG_CLEAR discarded have been overwritten (R453). -/
def execClearedOverwrite (s : State) : Out :=
  finish s
    (if writerOn s then
      onLog (fun l => { l with recs := l.recs.filter (fun x => !l.toErase.contains x.seq), toErase := [] }) s
    else s)

/-- Operating time is written to the configuration region (R445). -/
def execOptimeSave (time : Nat) (s : State) : Out :=
  let s1 := advance time s
  finish s (if s.dev.railsGood then onDev (fun d => { d with optimeSaved := optimeMs s1 }) s1 else s)

/-- At a start: the better copy of the newest record, the next sequence number, and the operating time (R444, R445, R449). -/
def startLog (s : State) : State :=
  let newest := match s.log.own, s.log.shadow with
    | some a, some b => some (if a.reps < b.reps then b else a)
    | some a, none => some a
    | none, x => x
  let recs := match s.log.recs, newest with
    | _ :: r, some x => x :: r
    | l, _ => l
  let top := ((recs.head?).map (·.seq)).getD 0
  let last := ((recs.head?).map (fun x => x.last + 1)).getD 0
  let time := match s.mem.sealRec with
    | .sealed _ _ _ t => max t (max s.dev.optimeSaved (last - 1))
    | _ => max (s.dev.optimeSaved + 1000) last
  onDev (fun d => { d with optime := time, optimeAt := d.now })
    (onLog (fun l =>
      { l with recs := recs, own := newest, shadow := none, toShadow := true, pendingRepeat := false, queue := [], lost := 0,
               lostNew := 0, stopped := false, next := max (top + 1) l.highWater, skip := l.highWater - (top + 1),
               toErase := [] }) s)

/-! ### LOG_READ and LOG_EXPORT (R450, R451) -/

/-- The readable records from one sequence number to another, rising. -/
def recordsFrom (s : State) (lo hi : Nat) : List LogRec :=
  ((readable s).filter (fun x => decide (lo ≤ x.seq) && decide (x.seq ≤ hi))).reverse

def oldestSeq (s : State) : Nat := (((readable s).getLast?).map (·.seq)).getD 0

def cmdLogRead : Cmd :=
  { op := 0x7001, used := fun _ => 22
    pay := fun _ => .must true
    effect := fun r s =>
      let a := pField r 16 6
      let l := (recordsFrom s a (newestSeq s)).take r.len
      ({ status := stOk,
         result := fields [(6, ((l.head?).map (·.seq)).getD 0), (2, l.length), (6, newestSeq s),
           (1, flag (a != 0 && decide (a < oldestSeq s)) 0 + flag l.isEmpty 1)] },
        putPayload r (l.flatMap recordBytes) s) }

/-- The header of an export (R451). -/
def exportHeader (s : State) (first last n : Nat) : Bytes :=
  sliceZ ([0x5A, 0x45, 0x56, 0x58] ++ fields [(2, 1), (2, 0), (6, first), (6, last), (4, n)] ++
    leBytes 4 (fuseWord s 4).toNat) 0 64

def cmdLogExport : Cmd :=
  { op := 0x7002, used := fun _ => 28, long := true
    pay := fun _ => .must true
    effect := fun r s =>
      let hi := if pField r 22 6 = 0 then newestSeq s else pField r 22 6
      let l := recordsFrom s (pField r 16 6) hi
      accept 0x7002 { r with object := l.flatMap recordBytes } l.length (l.map (·.seq)) s }

/-- The end of LOG_EXPORT: the records of the fixed range that have not been overwritten; byte 3 flags a skipped one. -/
def finishExport (i : Nat) (o : LongOp) (s : State) : State :=
  let n := o.aux.length
  if o.req.len < n + 1 then endOp i stBadParam [] s
  else
    let kept := (List.zip o.aux (pieces 64 n o.req.object)).filter (fun e => s.log.recs.any (fun x => x.seq == e.1))
    let first := (kept.head?.map (·.1)).getD 0
    let last := (kept.getLast?.map (·.1)).getD 0
    let res := fields [(6, first), (6, last), (4, kept.length)]
    let res' := if kept.length < n then modifyNth res 3 (fun b => b ||| 1) else res
    endOp i stOk res' (putPayload o.req (exportHeader s first last kept.length ++ kept.flatMap (·.2)) s)

/-! ### LOG_MARK and LOG_CLEAR (R452, R453) -/

/-- The place of the last HOST_MARK in the queue. -/
def lastMarkAt (q : List Event) : Option Nat :=
  (q.zipIdx.reverse.find? (fun e => e.1.code == 0x7002)).map (·.2)

def cmdLogMark : Cmd :=
  { op := 0x7004, used := fun _ => 40
    effect := fun r s =>
      let full := decide (256 ≤ s.log.queue.length)
      let s1 := logFw 0x7002 (sliceZ (pSlice r 16 40) 0 24) s
      if full then (okAnswer, s1)
      else match lastMarkAt s1.log.queue with
        | some k =>
          let s2 := takeEvents (k + 1) s1
          ({ status := stOk, result := leBytes 6 (newestSeq s2) }, s2)
        | none => (okAnswer, s1) }

def cmdLogClear : Cmd :=
  { op := 0x7003, used := fun _ => 22
    auth := fun _ _ => true
    busy := fun r s => busyIf (newestSeq s != pField r 16 6)
    effect := fun r s =>
      let old := (readable s).map (·.seq)
      let slot := if hasAuth r then byteAt r.auth 0 else 0xFF
      let e := eventOf 0x7001 ([b8 slot, 0, 0, 0] ++ fields [(4, old.length), (6, oldestSeq s)]) true s
      let x := writeEvent e (writeRepeat s)
      ({ status := stOk, result := fields [(6, x.1), (2, 0), (4, old.length)] },
        onLog (fun l => { l with cleared := x.1, toErase := l.toErase ++ old }) x.2) }

def execLogRead (r : Request) (s : State) : Out := finish s (serve cmdLogRead r s)
def execLogExport (r : Request) (s : State) : Out := finish s (serve cmdLogExport r s)
def execLogMark (r : Request) (s : State) : Out := finish s (serve cmdLogMark r s)
def execLogClear (r : Request) (s : State) : Out := finish s (serve cmdLogClear r s)

/-- STAT_LOG as a read of STAT_LOG_SEQ latches it (R454). -/
def statLog (s : State) : Nat :=
  2 ^ 31 * flag (decide (0xFFFFFFFF ≤ s.dev.powerCycles)) 0 + 65536 * s.log.lost + newestSeq s / 2 ^ 32 % 65536

def latchLogSeq (s : State) : State :=
  onRegs (fun r => { r with statLog := BitVec.ofNat 32 (statLog s), readData := BitVec.ofNat 32 (newestSeq s) }) s

def execStatLogSeqRead (s : State) : Out := hostReg .statLogSeqRead latchLogSeq s

end Sys2Proof.Machine
end

