-- ==== Sys2Proof/Machine/Security.lean ====
section
/-! DEFINITION. Fuses, keys, nonces and grants: the commands of class 0xA and the events of the security block (R456 to R477). The
debug port stands in Debug.lean. -/

namespace Sys2Proof.Machine

/-! ### A change of lifecycle (R459) -/

/-- The TAP is put in Test-Logic-Reset: EXTEST ends (R466). -/
def tapToReset (s : State) : State := leaveExtest s.dev.st (onSec (fun c => { c with tlr := true, ir := 0x01 }) s)

/-- The grant ends, and with it the access that honours EXTEST at level AUTH (R466, R469, R470). -/
def closeGrant (s : State) : State := if debugLevel s = 1 then leaveExtest s.dev.st (endGrant s) else endGrant s

/-- What a change of lifecycle ends: the nonce, the grant, the TAP's state (R459). -/
def lifecycleChanged (s : State) : State := tapToReset (endGrant (useNonce s))

/-- Blow one fuse bit; the shadows follow (R456, R457). -/
def blowBit (i : Nat) (s : State) : State :=
  let t := onSec (fun c => { c with fuses := modifyNth c.fuses (i / 32) (fun w => w ||| (1#32 <<< (i % 32))) }) s
  if lifecycle t = lifecycle s then t else lifecycleChanged t

/-! ### AUTH_NONCE and DEBUG_UNLOCK (R472, R473) -/

def cmdAuthNonce (random : BitVec 128) : Cmd :=
  { op := 0xA001, used := fun _ => 16
    effect := fun _ s => ({ status := stOk, result := nonceBytes random }, issueNonce random s) }

def unlockGrant (r : Request) : Nat := pByte r 16
def unlockTime (r : Request) : Nat := pField r 20 4

/-- A new grant, with its record (R469). The record's detail has no content in the spec: a free value (log entry 3). -/
def newGrant (observe control : Bool) (seconds : Nat) (s : State) : State :=
  let (d, s1) := draw 32 s
  logFw 0xA002 (fields [(1, debugLevel s), (4, d.toNat)])
    (onSec (fun c => { c with grant := some (observe, control, optimeMs s + 1000 * seconds) }) s1)

def unlockAnswer (outcome : Nat) (s : State) : Answer :=
  { status := stOk, result := [b8 (debugLevel s), b8 outcome, 0, 0] ++ leBytes 4 (grantLeft s) }

def cmdDebugUnlock : Cmd :=
  { op := 0xA003, used := fun _ => 24
    shape := fun r => decide (unlockGrant r < 4) && pZero r 17 20
    range := fun r s =>
      badIf (unlockGrant r != 0 &&
        (decide (unlockTime r < 1 ∨ 28800 < unlockTime r) || decide (2 ≤ debugLevel s)))
    auth := fun r _ => unlockGrant r != 0
    effect := fun r s =>
      let g := unlockGrant r
      if g = 0 then let t := closeGrant s; (unlockAnswer 2 t, t)
      else if debugLevel s = 0 then (unlockAnswer 1 s, s)
      else let t := newGrant (bitOf g 0) (bitOf g 1) (unlockTime r) s; (unlockAnswer 0 t, t) }

/-! ### FUSE_READ (R474) -/

def slotStates (s : State) (kind : Nat) : Nat :=
  slotState s kind 0 + 4 * slotState s kind 1 + 16 * slotState s kind 2 + 64 * slotState s kind 3

def fuseSummary (s : State) : Bytes :=
  [b8 (lifecycle s), b8 (debugLevel s), b8 (rollbackLevel s), b8 (slotStates s 0), b8 (slotStates s 1),
    b8 (bits (fuseWord s 1).toNat 18 16), b8 (flag s.sec.grant.isSome 0 + flag (nonceCurrent s).isSome 1), 0] ++
    leBytes 4 (grantLeft s)

def cmdFuseRead : Cmd :=
  { op := 0xA004, used := fun _ => 19
    shape := fun r => pByte r 16 != 1 || pZero r 17 19
    pay := fun r => if pByte r 16 = 0 then .may (decide (pByte r 18 ≤ 4) || payHolds r (4 * pByte r 18)) else .never
    range := fun r _ =>
      let n := pByte r 18
      badIf (match pByte r 16 with
        | 0 => n == 0 || decide (128 < n) || decide (128 < pByte r 17 + n) || (decide (4 < n) && !byPointer r)
        | 1 => false
        | _ => true)
    effect := fun r s =>
      if pByte r 16 = 1 then ({ status := stOk, result := fuseSummary s }, s)
      else
        let b := (List.range (pByte r 18)).flatMap (fun i => leBytes 4 (fuseWord s (pByte r 17 + i)).toNat)
        if pByte r 18 ≤ 4 then ({ status := stOk, result := b }, s) else (okAnswer, putPayload r b s) }

/-! ### FUSE_PROGRAM (R475) -/

def fuseField (r : Request) : Nat := pByte r 16
def fuseSlot (r : Request) : Nat := pByte r 17
def fuseValue (r : Request) : Nat := pByte r 18
def fuseLevel (r : Request) : Nat := pByte r 19

/-- Fields whose command carries a key. -/
def keyField (f : Nat) : Bool := f == 1 || f == 2 || f == 6

/-- The kind of key slot that a field is about: 0 root, 1 authorization. -/
def fuseKind (r : Request) : Nat := if fuseField r = 6 then fuseValue r else fuseField r - 1

/-- The 97 bytes of the key that the payload gives. -/
def givenKey (r : Request) : Bytes := slice r.payload 0 97

/-- Bits of a number that are 1, as positions of the fuse array from a word on. -/
def bitsFrom (word : Nat) (ws : List Nat) : List Nat :=
  (ws.zipIdx).flatMap (fun e => ((List.range 32).filter (bitOf e.1)).map (32 * (word + e.2) + ·))

/-- The bits of a key slot under a key: the hash, then the check word (R456, R457). -/
def keyBits (kind n : Nat) (key : Bytes) : List Nat :=
  let h := sha384 key
  bitsFrom ((if kind = 0 then 8 else 56) + 12 * n) ((List.range 12).map (fun i => le h (4 * i) 4)) ++
    bitsFrom ((if kind = 0 then 112 else 116) + n) [(crc32c h).toNat]

/-- The blown bits of a key slot's hash and check word. -/
def slotBits (s : State) (kind n : Nat) : List Nat :=
  bitsFrom ((if kind = 0 then 8 else 56) + 12 * n)
    ((List.range 12).map (fun i => (fuseWord s ((if kind = 0 then 8 else 56) + 12 * n + i)).toNat)) ++
    bitsFrom ((if kind = 0 then 112 else 116) + n) [(slotCheck s kind n).toNat]

/-- A fuse bit is blown. -/
def fuseBlown (s : State) (i : Nat) : Bool := (fuseWord s (i / 32)).getLsbD (i % 32)

/-- The bits that a FUSE_PROGRAM is to blow, in order, without those already blown (R457, R475). The rollback level takes the
lowest bits that are not blown (log entry 15). -/
def bitsToBlow (r : Request) (s : State) : List Nat :=
  match fuseField r with
  | 1 | 2 => (keyBits (fuseKind r) (fuseSlot r) (givenKey r)).filter (fun i => !fuseBlown s i)
  | 3 => ((List.range 3).filter (fun i => bitOf (fuseValue r) i && !fuseBlown s (48 + i))).map (48 + ·)
  | 4 => (((List.range 64).map (64 + ·)).filter (fun i => !fuseBlown s i)).take (fuseLevel r - rollbackLevel s)
  | 5 => ((List.range 8).map (fun i => 8 * (fuseValue r - 1) + i)).filter (fun i => !fuseBlown s i)
  | _ => []

/-- A rule of R475 or R459 fails. -/
def fuseBad (r : Request) (s : State) : Bool :=
  let lc := lifecycle s
  let keyOk := (pubPoint (givenKey r)).isSome && zeroFrom r.payload 97 128
  decide (lc = 3) ||
  match fuseField r with
  | 1 | 2 =>
    let st := slotState s (fuseKind r) (fuseSlot r)
    decide (3 < fuseSlot r) || !(st == 0 || st == 3) || !keyOk
  | 3 => decide (7 < fuseValue r)
  | 4 => decide (fuseLevel r ≤ rollbackLevel s ∨ 64 < fuseLevel r)
  | 5 =>
    let v := fuseValue r
    !((v == lc + 1 && decide (v ≤ 3)) ||
        (v == lc && decide (1 ≤ lc) && decide (ones (fuseWord s 0) (8 * lc - 1) (8 * lc - 8) < 8))) ||
      (lc == 0 &&
        !((List.range 4).any (slotValid s 0) && (List.range 4).any (slotValid s 1)))
  | 6 => decide (3 < fuseSlot r) || decide (1 < fuseValue r) || !keyOk || !slotValid s (fuseKind r) (fuseSlot r) ||
      !decide (sha384 (givenKey r) = slotHash s (fuseKind r) (fuseSlot r))
  | _ => true

/-- A damaged slot whose blown bits the key does not contain (R457). -/
def fuseClash (r : Request) (s : State) : Bool :=
  (fuseField r == 1 || fuseField r == 2) && slotState s (fuseKind r) (fuseSlot r) == 3 &&
    (let k := keyBits (fuseKind r) (fuseSlot r) (givenKey r)
     !(slotBits s (fuseKind r) (fuseSlot r)).all (fun i => k.contains i))

def cmdFuseProgram : Cmd :=
  { op := 0xA005, used := fun _ => 20, long := true
    pay := fun r => if keyField (fuseField r) then .must (payExact r 128) else .never
    range := fun r s => badIf (fuseBad r s)
    auth := fun r s => fuseField r != 6 && (lifecycle s == 1 || lifecycle s == 2)
    busy := fun r s => busyIf (fuseClash r s || opActive s [0xA005])
    effect := fun r s =>
      let l := bitsToBlow r s
      let i := headIndex s
      let a := accept 0xA005 r l.length (0 :: l) s
      (a.1, onOp i (fun o => { o with past := true }) a.2) }

/-- The key store takes the key of a slot (R460). -/
def storeKeyOf (r : Request) : State → State :=
  onSec (fun c => { c with keys := modifyNth c.keys (4 * fuseKind r + fuseSlot r) (fun _ => some (givenKey r)) })

/-- The result of FUSE_PROGRAM. -/
def fuseResult (o : LongOp) (s : State) : Bytes :=
  leBytes 2 (nth 0 o.aux 0) ++
    [b8 (if keyField (fuseField o.req) then slotState s (fuseKind o.req) (fuseSlot o.req) else lifecycle s)]

/-- Every bit is blown: the key store, the record, the end (R455, R460, R475). -/
def finishFuse (i : Nat) (o : LongOp) (s : State) : State :=
  let s1 := if keyField (fuseField o.req) then storeKeyOf o.req s else s
  let (d, s2) := draw 32 s1
  let s3 := if fuseField o.req = 6 then s2
    else logFw 0xA003 (fields [(1, if keyField (fuseField o.req) then fuseSlot o.req else lifecycle s), (4, d.toNat)]) s2
  endOp i stOk (fuseResult o s3) s3

/-- The next bit of FUSE_PROGRAM: it reads back blown, or fails after 3 attempts (R475). -/
def execFuseBit (takes : Bool) (s : State) : Out :=
  finish s
    (goOnOp 0xA005 (fun i o t =>
      match o.aux with
      | n :: b :: r =>
        if !takes then endOp i stIntegrity (fuseResult o t) t
        else
          let o1 := { o with aux := (n + 1) :: r, work := o.work + 1 }
          let t1 := onOp i (fun _ => o1) (blowBit b t)
          if r.isEmpty then finishFuse i o1 t1 else t1
      | _ => t) s)

/-! ### KEY_REVOKE (R476) -/

/-- The slot signs the active firmware bank or the running generation (R461). -/
def slotInUse (s : State) (n : Nat) : Bool :=
  (match s.fw.running with
    | 0 => s.fw.bankA.control && byteAt s.fw.bankA.header 11 == n
    | 1 => s.fw.bankB.control && byteAt s.fw.bankB.header 11 == n
    | _ => false) ||
  (match s.chg.running with
    | some p => p.keySlot == n
    | none => false)

/-- The slot is the only valid one of its kind. -/
def onlyValid (s : State) (kind n : Nat) : Bool :=
  slotState s kind n == 1 && (List.range 4).all (fun m => m == n || slotState s kind m != 1)

def cmdKeyRevoke : Cmd :=
  { op := 0xA006, used := fun _ => 18
    range := fun r s =>
      badIf (decide (1 < pByte r 16) || decide (3 < pByte r 17) || slotState s (pByte r 16) (pByte r 17) == 0 ||
        onlyValid s (pByte r 16) (pByte r 17))
    auth := fun _ _ => true
    busy := fun r s => busyIf (pByte r 16 == 0 && slotState s 0 (pByte r 17) == 1 && slotInUse s (pByte r 17))
    effect := fun r s =>
      let k := pByte r 16
      let n := pByte r 17
      let before := slotState s k n
      let b := 32 + 8 * k + 2 * n
      let (d, s1) := draw 32 s
      ({ status := stOk, result := [b8 before] },
        if before = 1 then logFw 0xA004 (fields [(1, n), (4, d.toNat)]) (blowBit (b + 1) (blowBit b s1)) else s) }

/-! ### Expiries (R464, R469) -/

/-- 600 s of operating time have passed since the nonce was issued (R464). -/
def execNonceExpiry (time : Nat) (s : State) : Out :=
  let s1 := advance time s
  finish s (if (nonceCurrent s1).isNone then useNonce s1 else s1)

/-- The duration of the grant has passed (R469). -/
def execGrantExpiry (time : Nat) (s : State) : Out :=
  let s1 := advance time s
  finish s (if grantLeft s1 = 0 then closeGrant s1 else s1)

/-- STAT_SEC (R477). -/
def statSec (s : State) : Nat :=
  let g := fun (f : Bool × Bool × Nat → Bool) => (s.sec.grant.map f).getD false
  2 ^ 30 * lifecycle s + 2 ^ 28 * debugLevel s + flag s.sec.grant.isSome 27 + flag (g (·.1)) 26 + flag (g (·.2.1)) 25 +
    flag (nonceCurrent s).isSome 24 + 65536 * rollbackLevel s + 256 * slotStates s 0 + slotStates s 1

def execAuthNonce (r : Request) (random : BitVec 128) (s : State) : Out := finish s (serve (cmdAuthNonce random) r s)
def execDebugUnlock (r : Request) (s : State) : Out := finish s (serve cmdDebugUnlock r s)
def execFuseRead (r : Request) (s : State) : Out := finish s (serve cmdFuseRead r s)
def execFuseProgram (r : Request) (s : State) : Out := finish s (serve cmdFuseProgram r s)
def execKeyRevoke (r : Request) (s : State) : Out := finish s (serve cmdKeyRevoke r s)

end Sys2Proof.Machine
end

