-- ==== Sys2Proof/Machine/Firmware.lean ====
section
/-! DEFINITION. Firmware update (R478 to R490), the choice of bank, the reload of the service core (R380, R483), the firmware
watchdog (R430, R431), and the UART's rate (R492). -/

namespace Sys2Proof.Machine

/-! ### Banks and images (R479 to R482) -/

def getBank (s : State) (b : Nat) : Bank := if b = 0 then s.fw.bankA else s.fw.bankB
def onBank (b : Nat) (f : Bank → Bank) : State → State :=
  onFw (fun w => if b = 0 then { w with bankA := f w.bankA } else { w with bankB := f w.bankB })

/-- Fields of a firmware header (R481). -/
def fwN (h : Bytes) : Nat := le h 20 4 / 65536
def fwLoad (h : Bytes) : Nat := le h 24 4
def fwRollback (h : Bytes) : Nat := byteAt h 12
def fwVersion (h : Bytes) : Nat := le h 16 4
def fwKey (h : Bytes) : Bytes := slice h 80 97

/-- magic, format, header_len, reserved fields, part, steppings, payload_len and load_len (R481). -/
def fwHeaderOk (h : Bytes) : Bool :=
  h.length == 512 && slice h 0 4 == [0x5A, 0x46, 0x57, 0x49] && le h 4 2 == 1 && le h 6 2 == 512 && le h 8 2 == 0x6440 &&
    bitOf (byteAt h 10) 1 && byteAt h 15 == 0 && le h 20 4 % 65536 == 0 && decide (1 ≤ fwN h ∧ fwN h ≤ 510) &&
    fwLoad h % 4096 == 0 && decide (4096 ≤ fwLoad h ∧ fwLoad h ≤ 2097152) && zeroFrom h 30 32 && zeroFrom h 177 256 &&
    zeroFrom h 352 512

/-- The key hashes to a valid root slot; not checked in BLANK (R459, R483). -/
def fwKeyOk (s : State) (h : Bytes) : Bool :=
  !enforced s || (decide (byteAt h 11 < 4) && slotValid s 0 (byteAt h 11) && decide (sha384 (fwKey h) = slotHash s 0 (byteAt h 11)))

/-- The signature of the header verifies; not checked in BLANK (R481, R483). -/
def fwSigned (s : State) (h : Bytes) : Bool :=
  !enforced s || (fwKeyOk s h && ecdsaVerify (fwKey h) (sha384 (h.take 256)) (slice h 256 48) (slice h 304 48))

/-- The valid seal of a bank with the highest seq (R482). -/
def bankSeal (b : Bank) : Option FwSeal :=
  (b.seals.filter (·.valid)).foldl (fun m x => match m with
    | some y => if y.seq < x.seq then some x else m
    | none => some x) none

/-- A bank is a candidate: a control header and a seal (R483). -/
def candidateSeq (b : Bank) : Option Nat := if b.control then (bankSeal b).map (·.seq) else none

/-- The candidates in descending order of seq (R483). -/
def candidates (s : State) : List Nat :=
  match candidateSeq s.fw.bankA, candidateSeq s.fw.bankB with
  | none, none => []
  | some _, none => [0]
  | none, some _ => [1]
  | some a, some b => if a < b then [1, 0] else [0, 1]

/-- Block k of a bank is valid in NOR and matches its list entry (R480, R481). -/
def blockOk (b : Bank) (k : Nat) : Bool :=
  !b.opened.contains (k + 2) &&
    match look b.blocks k, b.list[k]? with
    | some x, some d => decide (sha384 x = d)
    | _, _ => false

/-- The bank passes (R483 step 3). -/
def bankPasses (s : State) (n : Nat) : Bool :=
  let b := getBank s n
  let h := b.header
  (match bankSeal b with
    | some x => decide (sha384 h = x.digest)
    | none => false) &&
    fwHeaderOk h && decide (rollbackLevel s ≤ fwRollback h ∧ fwRollback h ≤ 64) && fwKeyOk s h && fwSigned s h &&
    decide (sha384 b.list.flatten = slice h 32 48) && !b.opened.contains 1 &&
    (List.range ((fwLoad h + 65535) / 65536)).all (blockOk b)

/-- The firmware of a bank runs from now on. -/
def runBank (n : Nat) (s : State) : State :=
  let h := (getBank s n).header
  onFw (fun f =>
    { f with running := n, version := BitVec.ofNat 32 (fwVersion h), linkMajor := byteAt h 13, linkMinor := byteAt h 14,
             cfgFormat := le h 28 2, coreUp := true, reloadFails := 0 }) s

/-- The record of a bank: bank, version, last verified block (R455, R490). -/
def recordBank (code n : Nat) (s : State) : State :=
  logFw code (fields [(1, n), (4, fwVersion (getBank s n).header), (4, s.fw.updNext - 1)]) s

/-! ### The update record (R483, R490) -/

/-- The update state as it is reported: STREAMING without a PENDING command of the update is UPDATE_INTERRUPTED (R490). -/
def updState (s : State) : Nat :=
  if s.fw.upd = 1 && !opActive s [0x8001, 0x8002, 0x8003] then 2 else s.fw.upd

def streaming (s : State) : Bool := s.fw.upd == 1 || s.fw.upd == 2

/-- The bank that is not running; in RECOVERY, the one without a seal, or with the lower seq (R484). -/
def targetBank (s : State) : Nat :=
  match s.fw.running with
  | 0 => 1
  | 1 => 0
  | _ =>
    match bankSeal s.fw.bankA, bankSeal s.fw.bankB with
    | none, _ => 0
    | some _, none => 1
    | some a, some b => if a.seq < b.seq then 0 else 1

/-- A second update command while one is PENDING (Update commands). -/
def updBusy (s : State) : Bool := opActive s [0x8001, 0x8002, 0x8003, 0x8004, 0x8006]

/-- An erase or program operation of NOR may be under way: an update, a store to the library, or an archive write that has been admitted
(R431). -/
def norBusy (s : State) : Bool :=
  updBusy s || opActive s [0x4006] ||
    s.host.ops.any (fun e => !e.2.done && e.2.admitted && (e.2.opcode == 0x1001 || e.2.opcode == 0x3001))

/-- Sectors that a cut-off erase left open are erased again (R480, R431). -/
def eraseOpen (b : Bank) : Bank :=
  { b with blocks := b.blocks.filter (fun e => !b.opened.contains (e.1 + 2)),
           header := if b.opened.contains 1 then [] else b.header, list := if b.opened.contains 1 then [] else b.list }

/-- The scan of a start or reload: open sectors, and the interrupted update (R480, R490). -/
def scanBanks (s : State) : State :=
  let s1 := onBank 1 eraseOpen (onBank 0 eraseOpen s)
  if s1.fw.upd = 1 && !opActive s1 [0x8001, 0x8002, 0x8003] then
    recordBank 0x8002 s1.fw.updBank (onFw (fun f => { f with upd := 2 }) s1)
  else s1

/-! ### FW_BEGIN (R484) -/

def beginHeader (r : Request) : Bytes := slice r.payload 0 512
def beginList (r : Request) : Bytes := slice r.payload 512 (48 * fwN (beginHeader r))
def beginResume (r : Request) : Bool := bitOf (pByte r 16) 0

/-- The bank that the command names, as far as R484 lets it. -/
def beginBank (r : Request) (s : State) : Option Nat :=
  if pByte r 17 = 0xFF then some (targetBank s)
  else if s.dev.st = .recovery && decide (pByte r 17 < 2) then some (pByte r 17) else none

/-- The checks of R484, in their order. -/
def beginCheck (r : Request) (s : State) : Option Answer :=
  let h := beginHeader r
  if !fwHeaderOk h || r.len != (512 + 48 * fwN h + 63) / 64 then bad
  else if !fwKeyOk s h then some { status := stAuthFailed }
  else if fwRollback h < rollbackLevel s || 64 < fwRollback h then bad
  else if sha384 (beginList r) ≠ slice h 32 48 then some { status := stIntegrity }
  else match beginBank r s with
    | none => bad
    | some b => badIf (beginResume r && !(streaming s && s.fw.updBank == b && decide (s.fw.updDigest = sha384 h)))

/-- Step 1, before the cancel point: the update record of a new image, or the one that is resumed (R484). -/
def beginUpdate (r : Request) (n : Nat) : State → State :=
  let h := beginHeader r
  onFw (fun f =>
    if beginResume r then { f with upd := 1 }
    else { f with upd := 1, updBank := n, updDigest := sha384 h, updN := fwN h, updNext := 0 })

def cmdFwBegin : Cmd :=
  { op := 0x8001, used := fun _ => 18, long := true
    shape := fun r => decide (pByte r 16 < 2)
    pay := fun _ => .must true
    range := beginCheck
    busy := fun _ s => busyIf (updBusy s)
    effect := fun r s =>
      let a := accept 0x8001 r 3 [(beginBank r s).getD 0] s
      (a.1, beginUpdate r ((beginBank r s).getD 0) a.2) }

/-- The target bank holds a control header and sector 1 of this image. -/
def prepared (b : Bank) (r : Request) : Bool := b.control && !b.opened.contains 1 && decide (b.header = beginHeader r)

/-- Steps 2 to 4 of FW_BEGIN; a NOR operation that fails leaves sector 1 open and ends it with INTEGRITY. -/
def finishBegin (i : Nat) (o : LongOp) (io : IoResult) (s : State) : State :=
  let r := o.req
  let h := beginHeader r
  let n := nth 0 o.aux 0
  let keep := beginResume r && prepared (getBank s n) r
  let s2 := if keep then s
    else onBank n (fun b =>
      { control := true, erases := b.erases + (if b.control && beginResume r then 0 else 1),
        seals := if b.control && beginResume r then b.seals else [], header := h,
        list := pieces 48 (fwN h) (beginList r), blocks := if beginResume r then b.blocks else [],
        opened := if io = .done then [] else [1] }) s
  if io = .done ∨ keep then
    endOp i stOk (fields [(2, s2.fw.updN), (2, s2.fw.updNext), (1, n)]) s2
  else endOp i stIntegrity [] s2

/-! ### FW_DATA (R485) -/

def cmdFwData : Cmd :=
  { op := 0x8002, used := fun _ => 18
    pay := fun r => .must (payExact r 65536)
    range := fun r s =>
      let k := pField r 16 2
      badIf (!streaming s || decide (s.fw.updNext < k) || decide (s.fw.updN ≤ k))
    busy := fun _ s => busyIf (updBusy s)
    lack := fun r s => lackIf (pField r 16 2 == s.fw.updNext && !handleFree s)
    effect := fun r s =>
      if pField r 16 2 < s.fw.updNext then ({ status := stOk, result := leBytes 2 s.fw.updNext }, s)
      else accept 0x8002 r 1 [] (onFw (fun f => { f with upd := 1 }) s) }

/-- The block is hashed, written and counted (R485). -/
def finishData (i : Nat) (o : LongOp) (io : IoResult) (s : State) : State :=
  let k := pField o.req 16 2
  let b := getBank s s.fw.updBank
  if b.list[k]? ≠ some (sha384 o.req.payload) then endOp i stIntegrity (leBytes 2 s.fw.updNext) s
  else if io ≠ .done then
    endOp i stIntegrity (leBytes 2 s.fw.updNext)
      (onBank s.fw.updBank (fun b => { b with opened := (k + 2) :: b.opened.filter (· != k + 2) }) s)
  else
    let s1 := onBank s.fw.updBank (fun b =>
      { b with blocks := insertAt b.blocks k o.req.payload, opened := b.opened.filter (· != k + 2) }) s
    endOp i stOk (leBytes 2 (k + 1)) (onFw (fun f => { f with updNext := k + 1 }) s1)

/-! ### FW_FINISH (R486) -/

def cmdFwFinish : Cmd :=
  { op := 0x8003, used := fun _ => 16, long := true
    range := fun _ s => badIf (s.fw.upd == 0 || s.fw.updNext != s.fw.updN)
    busy := fun _ s => busyIf (updBusy s)
    effect := fun r s =>
      let i := headIndex s
      let a := accept 0x8003 r s.fw.updN [] (onFw (fun f => { f with upd := 1 }) s)
      (a.1, waitHere i a.2) }

/-- The admitted FW_FINISH reads and verifies the target bank (R486). -/
def finishFinish (i : Nat) (o : LongOp) (io : IoResult) (s : State) : State :=
  if !o.admitted then s
  else
    let b := getBank s s.fw.updBank
    let head := fields [(4, fwVersion b.header), (1, byteAt b.header 13), (1, 0)]
    let (v, s1) := draw 16 s
    let failing := if io = .done then (List.range s.fw.updN).find? (fun k => !blockOk b k) else some (v.toNat % max 1 s.fw.updN)
    match failing with
    | some k => endOp i stIntegrity (head ++ leBytes 2 k) (onFw (fun f => { f with updNext := k }) s1)
    | none =>
      if fwSigned s b.header then endOp i stOk (head ++ leBytes 2 0xFFFF) (onFw (fun f => { f with upd := 3 }) s1)
      else endOp i stIntegrity (head ++ leBytes 2 0xFFFF) (onFw (fun f => { f with upd := 0 }) s1)

/-! ### FW_ACTIVATE and FW_REVERT (R487, R488) -/

/-- The image would break the link with the partner (R353, R487). -/
def breaksLink (s : State) (n : Nat) : Bool :=
  (s.dev.role == .primary || s.dev.role == .standby) && s.pair.linkUp && byteAt (getBank s n).header 13 != s.pair.partnerMajor

/-- The bank's 32 seal slots are used (R479, R482). -/
def sealsFull (s : State) (n : Nat) : Bool := decide (32 ≤ (getBank s n).seals.length)

def allowBreak (r : Request) : Bool := bitOf (pByte r 16) 0

/-- The activation of a bank begins; it has no cancel point. -/
def beginActivate (op : Nat) (r : Request) (n : Nat) (s : State) : Answer × State :=
  let i := headIndex s
  let a := accept op r 1 [n] s
  (a.1, onOp i (fun o => { o with past := true }) a.2)

def cmdFwActivate : Cmd :=
  { op := 0x8004, used := fun _ => 17, long := true
    shape := fun r => decide (pByte r 16 < 2)
    range := fun r s => badIf (s.fw.upd != 3 || (breaksLink s s.fw.updBank && !allowBreak r))
    busy := fun _ s => busyIf (updBusy s)
    lack := fun _ s => lackIf (sealsFull s s.fw.updBank)
    effect := fun r s => beginActivate 0x8004 r s.fw.updBank s }

def cmdFwRevert : Cmd :=
  { op := 0x8006, used := fun _ => 17, long := true
    shape := fun r => decide (pByte r 16 < 2)
    range := fun r s =>
      let n := targetBank s
      badIf ((candidateSeq (getBank s n)).isNone || decide (fwRollback (getBank s n).header < rollbackLevel s) || streaming s ||
        (breaksLink s n && !allowBreak r))
    busy := fun _ s => busyIf (updBusy s)
    lack := fun _ s => lackIf (sealsFull s (targetBank s))
    effect := fun r s => beginActivate 0x8006 r (targetBank s) s }

/-- One more than the highest seq of any valid seal (R482). -/
def nextSealSeq (s : State) : Nat :=
  let q := fun (b : Bank) => ((bankSeal b).map (·.seq)).getD 0
  max (q s.fw.bankA) (q s.fw.bankB) + 1

/-- The seal of a bank is written (R482, step 3 of R487). -/
def writeSeal (n : Nat) (s : State) : State :=
  let h := (getBank s n).header
  onBank n (fun b =>
    { b with seals := b.seals ++ [{ valid := true, rollback := fwRollback h, seq := nextSealSeq s, digest := sha384 h }] }) s

/-- Steps 1 to 3 of R487: service stops, and the seal decides which bank runs. In RECOVERY the operation ends here, and the
main die resets into BOOT. -/
def sealActivation (i : Nat) (o : LongOp) (s : State) : State :=
  let n := nth 0 o.aux 0
  if s.fw.activating.isSome then s
  else
    let s1 := writeSeal n s
    if s.dev.st = .recovery then
      let h := (getBank s n).header
      onDev (fun d => { d with resetScope := some 1, resetDue := d.now + 120000 })
        (endOp i stOk (fields [(4, fwVersion h), (1, n)]) (onFw (fun f => { f with failed := 0 }) s1))
    else pauseCore (onFw (fun f => { f with activating := some (i, n, s.fw.running) }) s1)

/-! ### FW_STATUS (R489) -/

def fwStatusResult (s : State) : Bytes :=
  let u := updState s
  let target := if u = 0 then targetBank s else s.fw.updBank
  let other := getBank s (targetBank s)
  let v := if u = 1 || u = 3 then fwVersion (getBank s s.fw.updBank).header
    else if (bankSeal other).isSome then fwVersion other.header else 0
  [b8 u, b8 s.fw.running, b8 target, b8 s.fw.failed] ++ leBytes 4 s.fw.version.toNat ++ leBytes 4 v ++
    leBytes 2 s.fw.updNext ++ leBytes 2 s.fw.updN

def cmdFwStatus : Cmd :=
  { op := 0x8005, used := fun _ => 16
    effect := fun _ s => ({ status := stOk, result := fwStatusResult s }, s) }

def execFwBegin (r : Request) (s : State) : Out := finish s (serve cmdFwBegin r s)
def execFwData (r : Request) (s : State) : Out := finish s (serve cmdFwData r s)
def execFwFinish (r : Request) (s : State) : Out := finish s (serve cmdFwFinish r s)
def execFwActivate (r : Request) (s : State) : Out := finish s (serve cmdFwActivate r s)
def execFwStatus (r : Request) (s : State) : Out := finish s (serve cmdFwStatus r s)
def execFwRevert (r : Request) (s : State) : Out := finish s (serve cmdFwRevert r s)

/-! ### The reload of the service core (R380, R487, R490) -/

/-- Update commands that a restart cuts off end with ABORTED (R490). -/
def abortUpdates (s : State) : State :=
  (s.host.ops.filter (fun e => !e.2.done && [0x8001, 0x8002, 0x8003, 0x8004, 0x8006].contains e.2.opcode &&
    !((s.fw.activating.map (fun a => a.1 == e.1)).getD false))).foldl (fun t e => endOp e.1 stAborted [] t)
    s

/-- The state of the update record after an interruption before the seal: what it was (R490). -/
def endActivation' (s : State) : State :=
  match s.fw.activating with
  | none => s
  | some (i, n, former) =>
    let code := if ((getOp s i).map (·.opcode)).getD 0x8004 = 0x8006 then 0x8003 else 0x8001
    let s1 := onFw (fun f => { f with activating := none, upd := 0 }) s
    if s.fw.running = n then
      endOp i stOk (fields [(4, s.fw.version.toNat), (1, n)]) (recordBank code n s1)
    else
      let void := fun (b : Bank) => { b with seals := modifyNth b.seals (b.seals.length - 1) (fun x => { x with valid := false }) }
      endOp i stIntegrity (fields [(4, s.fw.version.toNat), (1, former)]) (recordBank 0x8004 n (onBank n void s1))

/-- The service core has been reloaded, from the first candidate that passes (R483); the record names the outcome, 0 when one
passes and 1 otherwise (log entry 16). -/
def reloadCore (s : State) : State :=
  match (candidates s).find? (bankPasses s) with
  | some n =>
    let s1 := scanBanks (abortUpdates (runBank n s))
    let s2 := endActivation' s1
    if s.fw.activating.isSome then s2
    else logHw 0x0006 (fields [(1, 0), (1, n), (4, s.wdg.evFw.where0.toNat)]) s2
  | none =>
    let s1 := logHw 0x0006 (fields [(1, 1), (1, 0xFF), (4, s.wdg.evFw.where0.toNat)])
      (onFw (fun f => { f with reloadFails := f.reloadFails + 1 }) s)
    if 2 ≤ s1.fw.reloadFails then enterFault 0 s1 else s1

/-- The reload of a service core that is down ends (R380). In RECOVERY the boot ROM has no reload to make. -/
def execServiceCoreRestart (time : Nat) (s : State) : Out :=
  let s1 := advance time s
  finish s
    (if s1.fw.coreUp || !(s1.dev.st.configured || s1.dev.st == .selftest) then s1
    else reloadCore (onFw (fun f => { f with norReset := false }) s1))

/-! ### The firmware watchdog (R430, R431, R438) -/

/-- The START record (R455): kind 0 cold, 1 warm, 2 recovery, with the state reached. -/
def startRecord (kind : Nat) (s : State) : State :=
  logFw 0x0001 (keyed [b8 kind, b8 s.dev.startCause, b8 (flag s.dev.retainLost 0), b8 s.dev.restartMode, b8 s.dev.st.code]
    (leBytes 6 s.log.skip ++ leBytes 4 s.fw.version.toNat)) s

/-- The boot ROM serves firmware download (R59). -/
def enterRecovery (s : State) : State :=
  startRecord 2 (enter .recovery (onDev (fun d => { d with recoveryNext := false })
    (onFw (fun f => { f with running := 0xFF, coreUp := false }) s)))

/-- A failed boot (R387, R483): its record, the count, and BOOT again, or RECOVERY at the second. -/
def bootFailed (n : Nat) (s : State) : State :=
  let s1 := recordBank 0x8004 n (onFw (fun f => { f with failed := f.failed + 1, coreUp := false }) s)
  if 2 ≤ s1.fw.failed then enterRecovery s1 else onDev (fun d => { d with startCause := 3 }) s1

/-- Milliseconds without a service at which the watchdog expires (R430). -/
def fwLimitMs (s : State) : Nat := if s.dev.st == .boot || s.dev.st == .recovery then 2000 else 100

/-- The firmware watchdog expires (R430): evidence and record first, then the restart. It stands still in stage 2, in RETAIN
and OFF, while debug holds the service core (R467), and while a restart is under way; it counts through the reload of
FW_ACTIVATE (R430, R431). -/
def execFwWatchdogExpiry (pc : Word) (time : Nat) (s : State) : Out :=
  let s1 := advance time s
  finish s
    (if s.dev.st == .off || s.dev.st == .retain || (s.dev.st == .holdup && s.dev.stage == 2) || s.sec.coreHeld ||
        (s.dev.st != .boot && s.dev.st != .recovery && !s.fw.coreUp && s.fw.activating.isNone) then s1
    else
      let s2 := captureEvidence 1 pc (BitVec.ofNat 32 s.fw.running) (optimeMs s1 - fwLimitMs s) s1
      let s3 := logHw 0xD002 (evidenceBytes s2.wdg.evFw) s2
      match s.dev.st with
      | .boot => bootFailed (if s.fw.failed = 0 then ((candidates s).head?).getD 0 else ((candidates s)[1]?).getD 0) s3
      | .recovery => s3
      | _ => pauseCore (onFw (fun f => { f with norReset := norBusy s }) s3))

/-! ### MGMT_UART (R492) -/

/-- A rate frame: the new rate, when the code names one. -/
def execUartRateFrame (code : Byte) (s : State) : Out :=
  finish s
    (if served .uart s && decide (code.toNat < 6) then onFw (fun f => { f with uartRate := code.toNat, uartAt := s.dev.now }) s else s)

/-- 10 s have passed without a valid frame (R492). -/
def execUartRateTimeout (s : State) : Out :=
  finish s (onFw (fun f => { f with uartRate := 0 }) (advance (s.fw.uartAt + 60000000000) s))

end Sys2Proof.Machine
end

