-- ==== Sys2Proof/Machine/NetPlan.lean ====
section
/-! DEFINITION. The network schedule (R236, R237, R249 to R252, R264): ports and lines, the plan of a cycle pattern, and the
frames that the master sends (R241 to R246). -/

namespace Sys2Proof.Machine

/-! ### Ports and lines -/

def portOff : PortRec := ⟨0, 0, 0, 0, 0⟩
/-- The port records in force; cycles that NET_START begins before the first schedule's k_s run on those of the schedule that waits
(R266; DEDUCED, log entry 62). -/
def schedPorts (s : State) : List PortRec :=
  match s.net.sched with
  | some x => x.ports
  | none => if s.net.running then (s.net.nextSched.map (·.2.ports)).getD [] else []
def schedStations (s : State) : List SchedStation := (s.net.sched.map (·.stations)).getD []
def portRec (s : State) (p : Nat) : PortRec := nth portOff (schedPorts s) p
def getPort (s : State) (p : Nat) : PortState := nth PortState.reset s.net.ports p
def onPort (p : Nat) (f : PortState → PortState) : State → State :=
  onNet (fun n => { n with ports := modifyNth n.ports p f })

def isLine (r : PortRec) : Bool := r.interface != 0 && r.mode == 0
def isRing (r : PortRec) : Bool := r.interface != 0 && r.mode == 1
def isTimeLink (r : PortRec) : Bool := r.interface != 0 && r.mode == 2

/-- Port p of a pair: a ring takes its partner from the other module (R237, R347). -/
def pairPort (s : State) (p : Nat) : Bool := s.pair.ports.getLsbD p

/-- The port that the station records of a line or ring name (R264): 2j for both ports of a solo ring. -/
def lineKeyIn (ports : List PortRec) (paired : Nat → Bool) (p : Nat) : Nat :=
  if isRing (nth portOff ports p) && !paired p then 2 * (p / 2) else p

def lineKey (s : State) (p : Nat) : Nat := lineKeyIn (schedPorts s) (pairPort s) p

/-- The ports that carry stations, one for each line or ring. -/
def lineKeys (s : State) : List Nat :=
  (List.range 4).filter (fun p => (isLine (portRec s p) || isRing (portRec s p)) && lineKey s p == p)

/-- The module's own ends of a line or ring. -/
def endsOf (s : State) (key : Nat) : List Nat :=
  if isRing (portRec s key) && !pairPort s key then [key, key + 1] else [key]

/-- A line or ring is down when every end of it is (R240). The other end of a pair ring stands at the partner; it counts as up while
the Selvedge link is (DESIGN CHOICE, log entry 62). -/
def lineDown (s : State) (key : Nat) : Bool :=
  (endsOf s key).all (fun p => !(getPort s p).linkUp) && !(isRing (portRec s key) && pairPort s key && s.pair.linkUp)

/-! ### Due stations (R249) -/

def periodOf (x : SchedStation) : Nat := nth 1 [1, 2, 4, 5, 8, 10, 20, 40] x.periodCode
def dueIn (x : SchedStation) (k : Nat) : Bool := k % periodOf x == x.phase

/-- Insert a station record, ascending position. -/
def insertPos (x : SchedStation) : List SchedStation → List SchedStation
  | [] => [x]
  | y :: r => if x.position < y.position then x :: y :: r else y :: insertPos x r

/-- The station records of a line or ring, ascending position. -/
def lineStations (l : List SchedStation) (key : Nat) : List SchedStation :=
  (l.filter (fun x => x.port == key)).foldl (fun m x => insertPos x m) []

def dueOn (l : List SchedStation) (key k : Nat) : List SchedStation := (lineStations l key).filter (fun x => dueIn x k)

/-- Wire time in ns of a frame with d data bytes (R241). -/
def wireNs (d : Nat) : Nat := 8 * (20 + max 64 (34 + d))
def inNs (x : SchedStation) : Nat := wireNs x.inLen

/-! ### The plan of one pattern (R251) -/

/-- A planned arrival: its start at the near end and at the far end of a ring, in ns after the boundary. -/
structure Arrival where
  stn : SchedStation
  near : Nat
  far : Nat
  deriving DecidableEq, Repr

/-- The bound on the arrival of a station's frame, without the frames before it. -/
def arrivalBound (x : SchedStation) : Nat := max (100 * x.prep + x.delay) (2 * x.delay + 4000)

/-- The arrivals of a line, one after another. -/
def placeLine : Nat → List SchedStation → List Arrival
  | _, [] => []
  | t, x :: r =>
    let a := max t (arrivalBound x)
    ⟨x, a, a⟩ :: placeLine (a + inNs x + 240) r

/-- The arrival at the far end of a frame that arrives at the near end at a. -/
def farOf (x : SchedStation) (a : Nat) : Nat := a - x.delay + Config.farDelay x.station

/-- Two arrivals lie at least 240 ns apart. -/
def apart (a w b v : Nat) : Bool := decide (a + w + 240 ≤ b) || decide (b + v + 240 ≤ a)

/-- An arrival at a keeps its distance at both ends. -/
def ringFits (placed : List Arrival) (x : SchedStation) (a : Nat) : Bool :=
  placed.all (fun r => apart a (inNs x) r.near (inNs r.stn) && apart (farOf x a) (inNs x) r.far (inNs r.stn))

/-- The smallest value at or above a bound that keeps the distances: the bound, or directly after an arrival placed. -/
def ringPlace (placed : List Arrival) (x : SchedStation) : Nat :=
  let b := max 12000 (arrivalBound x)
  let l := b :: placed.flatMap (fun r =>
    [r.near + inNs r.stn + 240, r.far + inNs r.stn + 240 + x.delay - Config.farDelay x.station])
  ((l.filter (fun a => decide (b ≤ a) && ringFits placed x a)).min?).getD b

def placeRing (l : List SchedStation) : List Arrival :=
  l.foldl (fun placed x => let a := ringPlace placed x; placed ++ [⟨x, a, farOf x a⟩]) []

def plan (ring : Bool) (l : List SchedStation) : List Arrival := if ring then placeRing l else placeLine 12000 l

/-- Start of the upstream session window: after the last planned arrival at either end (R250, R251). -/
def upStart (l : List Arrival) : Nat :=
  l.foldl (fun m a => max m (max a.near a.far + inNs a.stn + 240)) 12000

/-- The end of the last OUTPUT frame, and the latest arrival of one at its station. -/
def downWalk : Nat → List SchedStation → Nat × Nat
  | u, [] => (u, 0)
  | u, x :: r =>
    let v := u + wireNs x.outLen
    let t := downWalk v r
    (t.1, max (v + x.delay) t.2)

/-- The amount in ns by which the latest end of a pattern exceeds its limit, 0 when the pattern fits (R251). -/
def overrun (ring paired : Bool) (session : Nat) (l : List SchedStation) : Nat :=
  let limit := if paired then 243000 else 249000
  let d := downWalk 12000 l
  max (upStart (plan ring l) + 1000 * session - limit) (max (d.1 + 1000 * session - limit) (d.2 - 240000))

/-- The first port and pattern that do not fit, with the shortfall (R265). -/
def firstMisfit (ports : List PortRec) (paired : Nat → Bool) (l : List SchedStation) : Option (Nat × Nat × Nat) :=
  ((List.range 4).flatMap (fun p => (List.range 40).map (fun c => (p, c)))).findSome? (fun e =>
    let r := nth portOff ports e.1
    let n := overrun (isRing r) (isRing r && paired e.1) r.session (dueOn l e.1 e.2)
    if n = 0 then none else some (e.1, e.2, n))

/-- The schedule in force in cycle k, seen from now (R265). -/
def schedAt (s : State) (k : Nat) : Option Schedule :=
  match s.net.nextSched with
  | some (ks, n) => if ks ≤ k then some n else s.net.sched
  | none => s.net.sched

/-- The plan of cycle k on a line or ring. -/
def planAt (sch : Schedule) (key k : Nat) : List Arrival :=
  plan (isRing (nth portOff sch.ports key)) (dueOn sch.stations key k)

/-- The next due cycle of a station after k, and its transmit offset then (R244, R252). -/
def nextTurn (s : State) (a k : Nat) : Option (Nat × Nat) :=
  (List.range 80).findSome? (fun j =>
    match schedAt s (k + 1 + j) with
    | none => none
    | some sch =>
      match sch.stations.find? (fun x => x.station == a && dueIn x (k + 1 + j)) with
      | none => none
      | some x =>
        ((planAt sch x.port (k + 1 + j)).find? (fun r => r.stn.station == a)).map (fun r =>
          (k + 1 + j, r.near - x.delay)))

/-! ### Stations -/

/-- The record of a station that has never been admitted (R268, R269). -/
def freshStation : Station :=
  { st := .absent, ident := List.replicate 32 0, bootEpoch := 0, confirmed := 0, inEntries := [], outEntries := [],
    nextEntries := none, lossTime := 0, holdTime := 0, sessionId := 0, kLast := none, missed := 0, badNoted := false,
    failFlag := false, request := false, rejoin := none, outputsFrom := 0, counted := none, notified := [],
    noteAck := none, unresolved := none, verifyDue := false, verifyCycle := 0, stale := 0, rejected := 0,
    delayNoted := false, discard := false, delayGrant := 0, returning := none, newEpoch := 0, seenNow := false,
    epochSeen := none, abortSeq := none, session := none }

/-- A computed schedule takes effect (R243, R265, R268): sched_gen goes on by one, the stations that it names have a record, and no
other does. -/
def takeSchedule (sch : Schedule) (n : Net) : Net :=
  let named := fun a => sch.stations.any (fun x => x.station == a)
  { n with
    sched := some sch, nextSched := none, schedGen := (n.schedGen + 1) % 65536, haltBits := n.haltBits.filter named,
    stations := sch.stations.foldl (fun l q =>
      insertAt l q.station { ((look n.stations q.station).getD freshStation) with delayNoted := false }) [] }

def MState.code : MState → Nat
  | .absent => 0 | .admitting => 1 | .admitted => 2 | .unconfigured => 3 | .lost => 4 | .verifying => 5 | .mismatch => 6

def MState.ofCode (n : Nat) : MState :=
  match n with
  | 0 => .absent | 1 => .admitting | 2 => .admitted | 3 => .unconfigured | 4 => .lost | 5 => .verifying | _ => .mismatch

/-- Admitted, with a cyclic exchange: ADMITTED, UNCONFIGURED, LOST or VERIFYING. -/
def MState.joined : MState → Bool
  | .admitted | .unconfigured | .lost | .verifying => true
  | _ => false

/-- What a delta carries of a station record (R330). -/
def stationMirror (x : Station) : StationMirror :=
  { st := x.st.code, ident := x.ident, bootEpoch := x.bootEpoch, confirmed := x.confirmed, inEntries := x.inEntries,
    outEntries := x.outEntries, lossTime := x.lossTime, holdTime := x.holdTime, sessionId := x.sessionId, kLast := x.kLast,
    unresolved := x.unresolved }

def getStn (s : State) (a : Nat) : Option Station := look s.net.stations a

def stnState (s : State) (a : Nat) : MState := ((getStn s a).map (·.st)).getD .absent

/-- Change a station record, with what the delta carries of it (R268, R330). -/
def onStn (a : Nat) (f : Station → Station) (s : State) : State :=
  match look s.net.stations a with
  | none => s
  | some x =>
    let y := f x
    let alarm := y.st != x.st && (y.st == .lost || y.st == .verifying || y.st == .mismatch)
    let t := whenB alarm (setCause 8) (onNet (fun n => { n with stations := insertAt n.stations a y }) s)
    if stationMirror y = stationMirror x then t else mirror (.stationState a (stationMirror y)) t

/-- Admitted stations on a line or ring, and in the network. -/
def admittedOn (s : State) (key : Nat) : Nat :=
  ((schedStations s).filter (fun x => x.port == key && (stnState s x.station).joined)).length
def admittedAll (s : State) : Nat := (s.net.stations.filter (fun e => e.2.st.joined)).length

/-- The schedule's record of a station. -/
def stnSched (s : State) (a : Nat) : Option SchedStation := (schedStations s).find? (fun x => x.station == a)

/-! ### Frames of the master (R242 to R246); fields of the wire are big-endian (R4) -/

/-- The Lacework header. -/
def lwHeader (kind flags station k epoch len : Nat) : Bytes :=
  [b8 (16 + kind), b8 flags] ++ beBytes 2 station ++ beBytes 2 (k % 65536) ++ beBytes 4 epoch ++ beBytes 2 len

/-- The halt map: bit (a mod 8) of byte a div 8 for each halted station. -/
def haltMap (l : List Nat) : Bytes :=
  (List.range 128).map (fun i => b8 (((List.range 8).map (fun j => flag (l.contains (8 * i + j)) j)).sum))

/-- The CONTROL frame of the tick in progress with a grant (R243, R259). -/
def controlFrame (s : State) (grant : Option (Nat × Nat)) : Bytes :=
  let k := s.dev.tick
  lwHeader 1 (flag (s.net.haltAll || s.net.haltLatched) 0) 0x8000 k s.pair.epoch 144 ++
    beBytes 8 k ++ beBytes 2 (s.net.schedGen % 65536) ++
    (match grant with
      | some (a, kind) => beBytes 2 a ++ [b8 kind]
      | none => beBytes 2 0x8000 ++ [0]) ++
    [0, 0, 0] ++ haltMap (s.net.haltBits ++ s.net.haltBitsLatched)

/-- The first channel of each entry with its kind, true for WORD: a BIT group begins at a multiple of 8 (R246, R282). -/
def layout : Nat → List Bool → List (Nat × Bool)
  | _, [] => []
  | c, true :: r => (c, true) :: layout (c + 1) r
  | c, false :: r => let b := (c + 7) / 8 * 8; (b, false) :: layout (b + 8) r

/-- The slot that owns a channel of a station in a direction (R76). -/
def stationSlot (s : State) (dir a c : Nat) : Option Nat :=
  (s.img.descs.find? (fun e => e.2.ownerKind == 1 && e.2.dir == dir && e.2.station == a && e.2.channel == c)).map (·.1)

/-- The word latched for an output channel; without a slot, payload 0 with quality BAD (R246). -/
def outWord (s : State) (a c : Nat) : TWord :=
  match stationSlot s 2 a c with
  | some x => readAt TWord.empty s.img.latched x
  | none => ⟨false, false, Q.bad, Ty.word, 0⟩

/-- The bytes of one output entry (R246). -/
def outEntry (s : State) (a : Nat) (e : Nat × Bool) : Bytes :=
  if e.2 then
    let w := outWord s a e.1
    beBytes 4 w.payload.toNat ++ [b8 (w.q.toNat + flag w.forced 2 + flag w.sub 3)]
  else
    let ws := (List.range 8).map (fun i => (i, outWord s a (e.1 + i)))
    let mask := fun (f : TWord → Bool) => (ws.map (fun x => flag (f x.2) x.1)).sum
    [b8 (mask (fun w => w.payload.getLsbD 0))] ++ beBytes 2 ((ws.map (fun x => x.2.q.toNat * 4 ^ x.1)).sum) ++
      [b8 (mask (·.forced)), b8 (mask (·.sub))]

/-- The OUTPUT frame of a station in the tick in progress (R244). A station without a further due cycle gets a free value for
its next turn. -/
def outputFrame (s : State) (a : Nat) (x : Station) (free : BitVec 64) : Bytes :=
  let d := (layout 0 x.outEntries).flatMap (outEntry s a)
  lwHeader 2 (flag (s.net.haltBits.contains a || s.net.haltBitsLatched.contains a) 0) a s.dev.tick s.pair.epoch (8 + d.length) ++
    (match nextTurn s a s.dev.tick with
      | some (k, o) => beBytes 4 (k % 2 ^ 32) ++ beBytes 4 o
      | none => beBytes 8 free.toNat) ++ d

/-- An OUTPUT frame goes to the station in cycle k (R269, R281). -/
def getsOutput (x : Station) (k : Nat) : Bool :=
  (x.st.joined || x.st == .admitting) && decide (x.outputsFrom ≤ k)

end Sys2Proof.Machine
end

