-- ==== Sys2Proof/Machine/Net.lean ====
section
/-! DEFINITION. The network commands (R259 to R266), PTP_CONFIG and the events of the timebase and of the ports (R240, R254 to
R258). -/

namespace Sys2Proof.Machine

/-! ### NET_CONFIG (R264, R265) -/

/-- A port record of 32 bytes. -/
def parsePort (b : Bytes) : PortRec := ⟨byteAt b 0, byteAt b 1, le b 2 2, le b 4 2, beNat (sliceZ b 6 6)⟩

/-- The rules of R264 on a port record. -/
def portOk (b : Bytes) : Bool :=
  let r := parsePort b
  decide (r.interface ≤ 2) && decide (r.mode ≤ 2) && decide (1 ≤ r.vid ∧ r.vid ≤ 4094) && decide (r.session ≤ 64) &&
    bitOf (byteAt b 6) 1 && !bitOf (byteAt b 6) 0 && zeroFrom b 12 32

/-- A station record of 16 bytes. -/
def parseStation (b : Bytes) : SchedStation :=
  { station := le b 0 2, port := byteAt b 2, periodCode := byteAt b 3, phase := byteAt b 4, position := le b 6 2,
    inLen := le b 8 2, outLen := le b 10 2, prep := le b 12 2, delay := le b 14 2 }

/-- The rules of R264 on a station record by itself. -/
def stationOk (b : Bytes) : Bool :=
  let x := parseStation b
  decide (x.station ≤ 1023) && decide (x.periodCode ≤ 7) && decide (x.phase < periodOf x) && byteAt b 5 == 0 &&
    decide (1 ≤ x.position ∧ x.position ≤ 256) && decide (4 ≤ x.inLen ∧ x.inLen ≤ 1488) &&
    decide (8 ≤ x.outLen ∧ x.outLen ≤ 1488) && decide (1 ≤ x.delay)

def netCount (r : Request) : Nat := pField r 16 4
def netPorts (r : Request) : List PortRec := (pieces 32 4 (sliceZ r.payload 0 128)).map parsePort
def netStations (r : Request) : List SchedStation :=
  (List.range (netCount r)).map (fun i => parseStation (sliceZ r.payload (128 + 16 * i) 16))

/-- No two station records share an address, or a position on one line or ring. -/
def stationsApart : List SchedStation → Bool
  | [] => true
  | x :: r =>
    r.all (fun y => x.station != y.station && !(x.port == y.port && x.position == y.position)) && stationsApart r

/-- A ring port has its partner (R237): the other port of the ring with an equal record, or the other module. -/
def ringOk (s : State) (l : List PortRec) (p : Nat) : Bool :=
  !isRing (nth portOff l p) || pairPort s p ||
    (!pairPort s (if p % 2 = 0 then p + 1 else p - 1) && nth portOff l p == nth portOff l (if p % 2 = 0 then p + 1 else p - 1))

/-- The port of a station record carries a line, or is the port by which a ring is named. -/
def stationPortOk (s : State) (l : List PortRec) (x : SchedStation) : Bool :=
  decide (x.port < 4) && (isLine (nth portOff l x.port) ||
    (isRing (nth portOff l x.port) && lineKeyIn l (pairPort s) x.port == x.port))

/-- In RUN, CHANGING and HALTED the port records stay (R265). -/
def portsStay (s : State) (l : List PortRec) : Bool :=
  !(s.dev.st == .run || s.dev.st == .changing || s.dev.st == .halted) ||
    match s.net.sched with
    | some x => x.ports == l
    | none => true

def netBad (r : Request) (s : State) : Bool :=
  let ports := netPorts r
  let l := netStations r
  !((pieces 32 4 (sliceZ r.payload 0 128)).all portOk) ||
  !((List.range (netCount r)).all (fun i => stationOk (sliceZ r.payload (128 + 16 * i) 16))) ||
  !stationsApart l || !((List.range 4).all (ringOk s ports)) || !(l.all (stationPortOk s ports)) || !portsStay s ports

def cmdNetConfig : Cmd :=
  { op := 0x4001, used := fun _ => 20, long := true
    pay := fun r => .must (decide (netCount r ≤ 1024) && payExact r (128 + 16 * netCount r))
    range := fun r s => badIf (netBad r s)
    busy := fun r s =>
      busyIf (opActive s [0x4001] ||
        s.net.stations.any (fun e => e.2.st.joined && !(netStations r).any (fun x => x.station == e.1)))
    effect := fun r s =>
      let (w, s1) := draw 32 s
      accept 0x4001 r w.toNat [] s1 }

/-- The computation of NET_CONFIG ends (R265): a misfit, or the schedule with its first cycle. -/
def finishNetConfig (i : Nat) (o : LongOp) (s : State) : State :=
  let ports := netPorts o.req
  let l := netStations o.req
  match firstMisfit ports (pairPort s) l with
  | some (p, c, n) => endOp i stNoResource (leBytes 4 0 ++ [b8 p, b8 c, 0, 0] ++ leBytes 4 n) s
  | none =>
    let ks := (s.dev.tick + 119) / 40 * 40
    endOp i stOk (leBytes 4 ks)
      (onNet (fun n =>
        { n with nextSched := some (ks, { gen := (n.schedGen + 1) % 65536, ports := ports, stations := l }) }) s)

/-! ### NET_START and NET_STOP (R266) -/

def cmdNetStart : Cmd :=
  { op := 0x4002, used := fun _ => 16
    range := fun _ s => badIf (s.net.sched.isNone && s.net.nextSched.isNone)
    busy := fun _ s => busyIf (opActive s [0x4001])
    effect := fun _ s =>
      if s.net.running then ({ status := stOk, result := leBytes 4 s.net.firstCycle }, s)
      else
        ({ status := stOk, result := leBytes 4 (s.dev.tick + 1) },
          mirror (.network true (s.dev.tick + 1)) <| onNet (fun n =>
            { n with running := true, firstCycle := s.dev.tick + 1
                     ports := n.ports.map (fun p =>
                       { p with fcs := 0, foreign := 0, late := 0, overflow := 0, duplicate := 0, missing := 0 }) }) s) }

/-- The halt of R262 goes, and halt_all with it unless HALTED, FAULT or EXTEST holds it; while HALT_REQ_N is low it stands (log entry
55). -/
def endConfigureHalt (s : State) : State :=
  if s.net.haltConfigure && !s.dev.haltReqLow then
    let on := s.dev.st == .halted || s.dev.st == .fault || s.net.haltExtest
    mirror (.haltAll on) (onNet (fun n => { n with haltConfigure := false, haltAll := on }) s)
  else s

def cmdNetStop : Cmd :=
  { op := 0x4003, used := fun _ => 16
    effect := fun _ s =>
      let s1 := endConfigureHalt s
      if s.net.cycling then
        ({ status := stOk, result := leBytes 4 s.dev.tick },
          mirror (.network false s.net.firstCycle) (onNet (fun n => { n with running := false }) s1))
      else
        let (w, s2) := draw 32 s1
        ({ status := stOk, result := leBytes 4 w.toNat },
          mirror (.network false s.net.firstCycle) (onNet (fun n => { n with running := false }) s2)) }

/-! ### The halt commands (R262, R263) -/

def cmdNetHaltAllOutputs : Cmd :=
  { op := 0x400A, used := fun _ => 16, effect := fun _ s => (okAnswer, haltOutputs s) }

def haltStation (r : Request) : Nat := pField r 16 2

def cmdStationHaltOutputs : Cmd :=
  { op := 0x4009, used := fun _ => 19
    shape := fun r => decide (haltStation r < 1024)
    range := fun r s =>
      badIf (decide (1 < pByte r 18) || !(stnState s (haltStation r)).joined ||
        (pByte r 18 == 1 && urgentPath r.origin))
    effect := fun r s =>
      let a := haltStation r
      let halt := pByte r 18 == 0
      ({ status := stOk, result := [b8 (if s.net.haltBits.contains a = halt then 1 else 0)] },
        if s.net.haltBits.contains a = halt then s
        else mirror (.haltBit a halt) (onNet (fun n =>
          if halt then { n with haltBits := insertNat n.haltBits a, haltBitsLatched := insertNat n.haltBitsLatched a }
          else { n with haltBits := n.haltBits.filter (· != a) }) s)) }

/-! ### PTP_CONFIG (R258) -/

def TbState.code : TbState → Nat
  | .free => 0 | .acquiring => 1 | .locked => 2 | .holdover => 3

def ptpBad (r : Request) (s : State) : Bool :=
  let src := pByte r 16
  decide (2 < src) ||
  (src == 2 && !(decide (pByte r 17 < 4) && isTimeLink (portRec s (pByte r 17)))) ||
  decide (pField r 20 4 < 1000 ∨ 1000000000 < pField r 20 4)

/-- The bytes that must be 0 under the source: byte 17 with source 0 or 1, bytes 24 to 31 with source 0 or 2 (R258). -/
def ptpZeros (r : Request) : Bool :=
  (!(decide (pByte r 16 < 2)) || pByte r 17 == 0) && (!(pByte r 16 == 0 || pByte r 16 == 2) || pField r 24 8 == 0)

/-- PTP_CONFIG (R258). An offset measured from the former source is no longer stepped (DESIGN CHOICE, log entry 63). -/
def cmdPtpConfig : Cmd :=
  { op := 0x6006, used := fun _ => 32
    shape := fun r => pByte r 19 == 0 && ptpZeros r
    range := fun r s => badIf (ptpBad r s)
    effect := fun r s =>
      ({ status := stOk, result := [b8 s.net.tb.code, b8 s.net.source] },
        mirror (.ptp (pByte r 16) (pByte r 17) (pByte r 18) (pField r 20 4))
          (onNet (fun n =>
            { n with source := pByte r 16, tlPort := pByte r 17, domain := pByte r 18, threshold := pField r 20 4
                     ppsSeconds := pField r 24 8, goodMeasures := 0, stepOffset := 0, stepDue := false
                     freq := if pByte r 16 = 0 then 0 else n.freq
                     tb := if pByte r 16 = 0 then .free else .acquiring }) s)) }

def execNetConfig (r : Request) (s : State) : Out := finish s (serve cmdNetConfig r s)
def execNetStart (r : Request) (s : State) : Out := finish s (serve cmdNetStart r s)
def execNetStop (r : Request) (s : State) : Out := finish s (serve cmdNetStop r s)
def execNetHaltAllOutputs (r : Request) (s : State) : Out := finish s (serve cmdNetHaltAllOutputs r s)
def execStationHaltOutputs (r : Request) (s : State) : Out := finish s (serve cmdStationHaltOutputs r s)
def execPtpConfig (r : Request) (s : State) : Out := finish s (serve cmdPtpConfig r s)

/-! ### The timebase (R254 to R256) -/

/-- The main die works: its ports, timebase and links do. -/
def dieUp (s : State) : Bool := !(s.dev.st == .off || s.dev.st == .retain)

/-- The service core runs the servo (R254, R255). -/
def servoRuns (s : State) : Bool := s.dev.st.configured && firmwareServes s

/-- A measured offset from the source (R255, R256, R267): 16 good measurements in a row lock, and the source's return ends HOLDOVER.
LOCKED stays when a later measurement is 1 µs or more (DESIGN CHOICE, log entry 63). The servo's frequency correction in ppb is not the
spec's beyond its bound of 100 ppm: a free value (log entry 3). -/
def measure (ns : Int) (s : State) : State :=
  let (v, s) := draw 18 s
  onNet (fun n =>
    let good := if decide (ns.natAbs < 1000) then min 16 (n.goodMeasures + 1) else 0
    { n with
      offset := max (-32767) (min 32767 ns)
      stepOffset := ns
      freq := (v.toNat % 200001 : Int) - 100000
      goodMeasures := if n.tb = .holdover then min good 1 else good
      tb := match n.tb with
        | .holdover => .acquiring
        | .acquiring => if good = 16 then .locked else .acquiring
        | t => t }) s

/-- The whole second nearest to the timebase at the edge, which lies offsetNs after that second. -/
def edgeSecond (offsetNs : Int) (s : State) : Int := ((ptpNs s s.dev.now : Int) - offsetNs + 500000000) / 1000000000

/-- The rising edge of TIME_PPS_IN, offsetNs after the nearest whole second of the timebase (R254): the host's seconds value is the
edge's second, so the whole offset counts the seconds between them too. -/
def execPpsInEdge (offsetNs : Int) (s : State) : Out :=
  finish s
    (if servoRuns s && s.net.source == 1 then
      measure (offsetNs + (edgeSecond offsetNs s - s.net.ppsSeconds) * 1000000000)
        (onNet (fun n => { n with secondsBase := n.ppsSeconds, ppsSeconds := n.ppsSeconds + 1 }) s)
    else s)

/-- No valid Sync for 3 s, no edge for 2 s, or a paused service core (R255). The frequency correction holds its value. -/
def execTimebaseHoldover (s : State) : Out :=
  finish s
    (if dieUp s && s.net.source != 0 && s.net.tb != .free then
      onNet (fun n => { n with tb := .holdover, goodMeasures := 0 }) s else s)

/-- The base tick at which a step lands: the first boundary of the new time at or after the corrected time. -/
def stepTick (tick : Nat) (offset : Int) : Nat := max 1 (((tick : Int) * 250000 - offset + 249999) / 250000).toNat

/-- Steps are made here (R256, R329). -/
def mayStep (s : State) : Bool := (s.dev.st == .configure || s.dev.st == .stop) && s.dev.role != .standby

/-- A step of R256 falls due; it is made at the boundary that ends the tick in progress. -/
def execTimebaseStep (s : State) : Out :=
  finish s
    (if mayStep s && decide (s.net.threshold < s.net.stepOffset.natAbs) && s.net.source != 0 then
      onNet (fun n => { n with stepDue := true }) s
    else s)

/-! ### Ports (R239, R240) -/

def execPortLinkDown (port : Fin 4) (s : State) : Out :=
  finish s (if dieUp s then onPort port.val (fun p => { p with linkUp := false }) s else s)

def execPortLinkUp (port : Fin 4) (s : State) : Out :=
  finish s (if dieUp s then onPort port.val (fun p => { p with linkUp := true }) s else s)

/-- A ring whose due stations' frames have reached one end only in 3 consecutive cycles (R239). -/
def execRingBroken (port : Fin 4) (s : State) : Out :=
  let k := lineKey s port.val
  finish s
    (if isRing (portRec s k) && decide (3 ≤ (getPort s k).oneEnd) && !(getPort s k).broken then
      logHw 0x4002 [b8 k, 1] (onPort k (fun p => { p with broken := true }) s)
    else s)

end Sys2Proof.Machine
end

