-- ==== Sys2Proof/Machine/Power.lean ====
section
/-! DEFINITION. Loss and return of power (R59, R366 to R373, R518), the hold-up stages, and what a reset of the main die keeps
(R379, R381, R382, R389). -/

namespace Sys2Proof.Machine

/-! ### What a reset of the main die keeps (R379, R384, R385) -/

def resetHost (h : HostIf) : HostIf :=
  { HostIf.reset with gens := h.gens, keyErrors := h.keyErrors, payloadOut := h.payloadOut, uartOut := h.uartOut }

def resetImage (i : Image) : Image :=
  { Image.reset with descs := i.descs, free := i.free, runs := i.runs, forcesMram := i.forcesMram }

def resetChange (c : Change) : Change :=
  { Change.reset with staged := c.staged, retained := c.retained, highest := c.highest, archive := c.archive,
                      archivePrev := c.archivePrev, switchRec := c.switchRec }

def resetMemory (m : Memory) : Memory :=
  { Memory.reset with groups := m.groups, copyA := m.copyA, copyB := m.copyB, writeSeq := m.writeSeq,
                      sealRec := m.sealRec, spares := m.spares, spareMap := m.spareMap, refetches := m.refetches, rebuilds := m.rebuilds,
                      losts := m.losts }

def resetScan (x : Scan) : Scan :=
  { Scan.reset with tasks := x.tasks.map (fun t => { Task.reset with sched := t.sched }), pairs := x.pairs,
                    mismatches := x.mismatches, verifyFails := x.verifyFails }

/-- A station record keeps what MRAM holds of it (R268); what was in progress is lost, and an admission in progress with it. -/
def resetStation (x : Station) : Station :=
  { x with st := if x.st = .admitting then .absent else x.st
           session := none, missed := 0, badNoted := false, request := false, rejoin := none,
           counted := none, seenNow := false, epochSeen := none, abortSeq := none, returning := none, noteAck := none,
           verifyDue := x.verifyDue || x.st == .verifying || x.unresolved.isSome }

/-- What MRAM and NOR hold of the network. A schedule that was still waiting for its first cycle takes effect with the reset, and a
selected time source is acquired again (R258, R265, R266, R268). -/
def resetNet (n : Net) : Net :=
  let m := match n.nextSched with
    | some x => takeSchedule x.2 n
    | none => n
  { Net.reset with
    sched := m.sched, schedGen := m.schedGen, running := n.running
    ports := n.ports.map (fun p => { PortState.reset with linkUp := p.linkUp })
    stations := m.stations.map (fun e => (e.1, resetStation e.2)), haltBits := m.haltBits, source := n.source,
    tlPort := n.tlPort, domain := n.domain, threshold := n.threshold, ppsSeconds := n.ppsSeconds
    tb := if n.source = 0 then .free else .acquiring, library := n.library }

def resetPair (p : Pair) : Pair :=
  { Pair.reset with epoch := p.epoch, sideB := p.sideB, ports := p.ports, member := p.member, autoResync := p.autoResync,
                    partnerSerial := p.partnerSerial, takeovers := p.takeovers, handovers := p.handovers,
                    linkLosses := p.linkLosses, syncs := p.syncs }

def resetEnergy (e : Energy) : Energy :=
  { Energy.reset with cap := e.cap, floor := e.floor, cfg := e.cfg, cEst := e.cEst, stalls := e.stalls,
                      returns := e.returns, stage2s := e.stage2s, overIntervals := e.overIntervals,
                      lastDip := e.lastDip, drawn := e.drawn, capacity := e.capacity, lowPct := e.lowPct,
                      cellUnknown := e.cellUnknown, cellLow := e.cellLow, cellAbsent := e.cellAbsent, vbat := e.vbat }

def resetInteg (i : Integrity) : Integrity := { i with level := 0, bucketOver := false, passes := 0, passAt := 0, burstUe := false }

def resetWdg (w : Watchdogs) : Watchdogs :=
  { w with openNow := w.openMs, closeNow := w.closeMs, armed := false, lastCause := 0, queue := [] }

def resetLog (l : Log) : Log := { l with queue := [], lostNew := 0, stopped := false }

def resetFw (f : Firmware) : Firmware :=
  { Firmware.reset with bankA := f.bankA, bankB := f.bankB, upd := f.upd, updBank := f.updBank, updDigest := f.updDigest,
                        updN := f.updN, updNext := f.updNext, failed := f.failed }

def resetChannel (c : Nat) (x : Channel) : Channel := { Channel.reset c with mode := x.mode, wbe := x.wbe, filter := x.filter }

def resetFio (x : FieldIo) : FieldIo :=
  { FieldIo.reset with ch := (List.range 32).map (fun c => resetChannel c (nth (Channel.reset c) x.ch c)) }

def resetRegs (r : Regs) : Regs := { Regs.reset with messages := r.messages }

def resetSec (c : Security) : Security :=
  { c with shadows := false, nonce := none, grant := none, coreHeld := false, tapOutcome := 0, dbgStatus := 0, dbgData := 0,
           challenge := 0, tlr := true, ir := 0x01 }

/-- A reset of the main die (R379): every part of it returns to its reset value; MRAM, NOR, the fuses, the always-on domain and
the pins keep theirs. The device is in BOOT. -/
def resetDie (s : State) : State :=
  let s1 := leaveExtest .boot s
  { s1 with
    host := resetHost s1.host, img := resetImage s1.img, chg := resetChange s1.chg, mem := resetMemory s1.mem,
    scan := resetScan s1.scan, net := resetNet s1.net, pair := resetPair s1.pair, energy := resetEnergy s1.energy,
    cal := { s1.cal with pendingSet := none }, integ := resetInteg s1.integ, wdg := resetWdg s1.wdg,
    log := resetLog s1.log, sec := resetSec s1.sec, fw := resetFw s1.fw, fio := resetFio s1.fio, regs := resetRegs s1.regs,
    dev := { s1.dev with st := .boot, role := .solo, ret := none, stage := 0, resetScope := none, resetWaits := false,
                         powerBack := false, releasing := none } }

/-- BOOT begins, for a cause of R455: 0 power, 1 PWR_RST_N, 2 RESET_DEVICE, 3 failed boot. -/
def beginBoot (cause : Nat) (s : State) : State :=
  let s1 := resetDie s
  onDev (fun d => { d with startCause := cause, changeTick := d.tick % 2 ^ 32 }) s1

/-! ### Power comes and goes (R59, R518) -/

/-- The main rails are gone: RETAIN while VAON holds, OFF otherwise. The operating time stops (R445). -/
def dropPower (s : State) : State :=
  let s1 := onDev (fun d => { d with optime := optimeMs s, optimeAt := d.now }) s
  onDev (fun d => { d with st := if d.vaon then .retain else .off, railsGood := false }) (resetDie s1)

/-- Main power fails in a state without hold-up while the rails may still stand: as a loss of power, but for the rails' own state
(R59). -/
def leaveService (s : State) : State := onDev (fun d => { d with railsGood := s.dev.railsGood }) (dropPower s)

/-- The main rails are no longer good, and the operating time stands still (R445, R518). -/
def railsGone (s : State) : State := onDev (fun d => { d with optime := optimeMs s, optimeAt := d.now, railsGood := false }) s

/-- The main rails have been good for 1 ms: the operating time counts on (R445, R518). -/
def railsBack (s : State) : State := if s.dev.railsGood then s else onDev (fun d => { d with railsGood := true, optimeAt := d.now }) s

/-- BOOT begins when the main rails are good with PWR_RST_N released and POWER_FAIL_N high (R518). -/
def tryBoot (s : State) : State :=
  if (s.dev.st == .off || s.dev.st == .retain) && s.dev.railsGood && !s.dev.pwrRstLow && !s.dev.powerFailLow then
    beginBoot 0 (onDev (fun d => { d with powerUp := true }) s)
  else s

/-- The state of the always-on domain is lost (R373). -/
def loseAon (s : State) : State :=
  calendarLost
    (onWdg (fun w => { w with evTask := .reset, evFw := .reset, evHost := .reset })
      (onEnergy (fun e => { e with cellUnknown := true }) (onDev (fun d => { d with retainLost := true }) s)))

/-- VAON rises above V_RET: with the main rails absent the state is RETAIN. -/
def execVaonRise (s : State) : Out :=
  finish s
    (if s.dev.vaon then s
    else
      let s1 := onDev (fun d => { d with vaon := true }) (loseAon s)
      if s.dev.st = .off ∧ !s.dev.railsGood then onDev (fun d => { d with st := .retain }) s1 else s1)

/-- VAON has fallen below V_RET for too long, or below V_POR (R59, R373). -/
def execRetainLost (s : State) : Out :=
  let s1 := onDev (fun d => { d with vaon := false }) (loseAon s)
  finish s (if s.dev.st = .retain then onDev (fun d => { d with st := .off }) s1 else s1)

/-- The main rails have been good for 1 ms. -/
def execMainRailsGood (s : State) : Out :=
  finish s
    (if s.dev.railsGood then s else tryBoot (railsBack s))

/-! ### Hold-up (R367 to R371) -/

/-- The elastic class of stage 1: the floor, or 3 with the cap disabled (R368). -/
def holdupClass (e : Energy) : Nat := if e.cap = 0 then 3 else e.floor

/-- Every long operation is suspended, and an admitted background job waits again (R68, R367). -/
def suspendOps : State → State :=
  onHost (fun h =>
    { h with ops := h.ops.map (fun e =>
        if e.2.done then e
        else (e.1, { e.2 with suspended := true, waiting := e.2.waiting || e.2.admitted, admitted := false })) })

/-- Long operations resume (R370). -/
def resumeOps : State → State :=
  onHost (fun h => { h with ops := h.ops.map (fun e => (e.1, { e.2 with suspended := false })) })

/-- Duration of stage 1 up to now, in µs. -/
def stage1Time (s : State) : Nat := (s.dev.now - s.energy.stageAt) / 6000

/-- C_est in µF of a stage 1 that ends now (R356): 2 × E_used / (η × (V1² − V2²)); where the two voltages leave no quotient the
spec gives no value, and it is a free one (log entry 3). -/
def capacitance (s : State) : Nat × State :=
  let e := s.energy
  if e.v < e.v1 then (2000 * e.used / (max 1 e.cfg.eta * (e.v1 * e.v1 - e.v * e.v)), s)
  else
    let (c, t) := draw 20 s
    (c.toNat, t)

/-- A stage 1 of at least 2 ms yields an estimate, with a record when it is below 80 % of C_config (R356). -/
def estimate (s : State) : State :=
  if stage1Time s < 2000 then s
  else
    let (c, s1) := capacitance s
    let s2 := onEnergy (fun e => { e with cEst := some c }) s1
    if 5 * c < 4 * s.energy.cfg.cConfig then logHw 0x9003 (fields [(4, c), (4, s.energy.cfg.cConfig)]) s2 else s2

/-- The last CONTROL frame of the cycle has gone out, the field link stops, and the field outputs switch off (R369 step 2). -/
def stopFieldAndNet (s : State) : State :=
  onFio (fun f => { f with linkUp := false, ch := f.ch.map (fun c => { c with applied := false }) })
    (onNet (fun n => { n with cycling := false }) s)

/-- Stage 2 begins (R369 steps 1 to 3); it is never left (R371). -/
def beginStage2 (s : State) : State :=
  if s.dev.stage = 2 then s
  else
    let s1 := estimate (meterStage s)
    let s2 := onEnergy (fun e =>
      { e with stage2s := satTo 0xFFFFFFFF (e.stage2s + 1), dStage2 := dirtyBytes s, availStage2 := e.avail,
               stage1Us := stage1Time s }) s1
    let s3 := stopReleasing (discardAll (endWindow s2))
    let s4 := if s3.dev.role = .primary ∨ s3.dev.role = .standby then sendNotice .stage2 0 s3 else s3
    setCause 6 (onDev (fun d => { d with stage := 2 }) (writeMarker (stopFieldAndNet s4)))

/-- Entry to HOLDUP stage 1, or at once to stage 2 when holdup_short is 1 (R59, R367). -/
def enterHoldup (s : State) : State :=
  let s1 := onDev (fun d => { d with ret := some d.st, stage := 1, powerBack := false }) s
  let s2 := enter .holdup s1
  let s3 := onEnergy (fun e =>
    { e with stageAt := s.dev.now, v1 := e.v, vLow := e.v, used := 0, meterAt := s.dev.now, clsEntry := e.cls,
             cls := holdupClass e }) s2
  let s4 := tapToReset (endGrant (useNonce (setCause 6 (suspendOps s3))))
  if s4.energy.short then beginStage2 s4 else s4

/-- Main power fails (R59, R367, R371); drop is what it does in a state without hold-up. -/
def powerLoss (drop : State → State) (s : State) : State :=
  match s.dev.st with
  | .configure | .stop | .run | .changing | .halted => enterHoldup s
  | .holdup => onDev (fun d => { d with powerBack := false }) s
  | .boot | .selftest | .recovery | .fault => drop s
  | .off | .retain => s

/-- POWER_FAIL_N is filtered low. -/
def execPowerFail (time : Nat) (s : State) : Out :=
  finish s (powerLoss leaveService (onDev (fun d => { d with powerFailLow := true }) (advance time s)))

/-- The main-rail monitor trips: a failure as above; after stage 2 the rails fall to RETAIN or OFF (R369). -/
def execMainRailTrip (time : Nat) (s : State) : Out :=
  let s1 := advance time s
  finish s
    (if s1.dev.st = .holdup ∧ s1.dev.stage = 2 ∧ s1.log.stopped then dropPower s1
    else if s1.dev.st = .off ∨ s1.dev.st = .retain then railsGone s1
    else powerLoss dropPower s1)

/-- A return in stage 1: the return state, with the record of the dip (R370). -/
def returnStage1 (s : State) : State :=
  let us := stage1Time s
  let s1 := estimate (meterStage s)
  let s2 := logHw 0x9001 (fields [(4, us), (2, s1.energy.vLow)]) s1
  let s3 := resumeOps (onEnergy (fun e =>
    { e with returns := satTo 0xFFFFFFFF (e.returns + 1), lastDip := us, cls := e.clsEntry }) s2)
  let st := (s3.dev.ret).getD .configure
  setCause 6 (onDev (fun d => { d with ret := none, stage := 0 }) (enter st s3))

/-- Power has returned for 1 ms (R370, R371). -/
def execPowerReturn (time : Nat) (s : State) : Out :=
  let s1 := onDev (fun d => { d with powerFailLow := false }) (advance time s)
  finish s
    (if s1.dev.st = .holdup then
      if s1.dev.stage = 1 then returnStage1 s1
      else if s1.log.stopped then beginBoot 0 s1
      else onDev (fun d => { d with powerBack := true }) s1
    else tryBoot (railsBack s1))

/-- A 10 µs sample in stage 1 (R368): stage 2 begins at the first at which E_avail ≤ E_req(D). -/
def execHoldupSample (senseMv time : Nat) (s : State) : Out :=
  let s1 := advance time s
  finish s
    (if s1.dev.st = .holdup ∧ s1.dev.stage = 1 then
      let s2 := sampleBank senseMv s1
      let s3 := onEnergy (fun e => { e with vLow := min e.vLow e.v }) s2
      if availX s3.energy ≤ reqX s3.energy (dirtyBytes s3) then beginStage2 s3 else s3
    else s1)

/-- Stage 1 has lasted the maximum ride-through (R368). -/
def execRideThroughExpiry (time : Nat) (s : State) : Out :=
  let s1 := advance time s
  finish s
    (if s1.dev.st = .holdup ∧ s1.dev.stage = 1 ∧ s1.energy.cfg.ride ≠ 0 ∧ 1000 * s1.energy.cfg.ride ≤ stage1Time s1 then
      beginStage2 s1
    else s1)

/-- Steps 4 to 6 of R369: the flush, the seal, the closing record. The record writer empties its queue with it (R446). -/
def sealNow (s : State) : State :=
  let s1 := writeBlocks s.mem.dirty.length s
  let s2 := onMem (fun m =>
    { m with sealRec := .sealed m.writeSeq (runningGen s1) s1.dev.powerCycles (optimeMs s1) }) s1
  let s3 := logHw 0x9002 (fields [(4, s2.energy.stage1Us), (2, (s2.energy.dStage2 + 1023) / 1024),
    (4, s2.energy.availStage2 / 1000000)]) s2
  let s4 := takeEvents (s3.log.queue.length + 1) s3
  onDev (fun d => { d with optimeSaved := optimeMs s4 }) (onLog (fun l => { l with stopped := true }) s4)

/-- The seal; then a reset that waits takes effect (R382), or power that has returned starts the module anew (R370). -/
def execSeal (time : Nat) (s : State) : Out :=
  let s1 := advance time s
  finish s
    (if s1.dev.st = .holdup ∧ s1.dev.stage = 2 ∧ !s1.log.stopped then
      let s2 := sealNow s1
      if s2.dev.resetWaits then beginBoot 1 s2
      else if s2.dev.powerBack then beginBoot 0 s2
      else s2
    else s1)

/-! ### Resets (R379, R381, R382, R389) -/

/-- PWR_RST_N is filtered low (R382). -/
def execPwrRstAssert (time : Nat) (s : State) : Out :=
  let s1 := onDev (fun d => { d with pwrRstLow := true }) (advance time s)
  finish s
    (if s1.dev.st = .off ∨ s1.dev.st = .retain then s1
    else if s1.dev.st = .holdup ∧ !s1.log.stopped then
      onDev (fun d => { d with resetWaits := true }) (beginStage2 s1)
    else beginBoot 1 s1)

/-- PWR_RST_N is filtered high after being low (R382). -/
def execPwrRstRelease (s : State) : Out :=
  finish s
    (if !s.dev.pwrRstLow then s
    else
      let s1 := onDev (fun d => { d with pwrRstLow := false }) s
      if s1.dev.st = .boot then beginBoot 1 s1 else tryBoot s1)

/-- The scheduled reset takes effect, no earlier than 20 µs after its completion and after a switch window if one is open (R389): scope 2 invalidates the configuration
header, scope 3 has the next BOOT enter RECOVERY. -/
def execDeviceReset (s : State) : Out :=
  finish s
    (match s.dev.resetScope with
    | none => s
    | some k =>
      if s.chg.window.isSome then s
      else
        beginBoot 2 (onDev (fun d =>
          { d with cfgValid := d.cfgValid && k != 2, recoveryNext := d.recoveryNext || k == 3 }) (advance s.dev.resetDue s)))

/-! ### HALT_REQ_N (R18, R59, R63, R502) -/

/-- HALT_REQ_N is filtered low: the output halt, and the local outputs off at once. A STANDBY keeps the state that the delta
carries and uses the line at a takeover (R346, R341); a SYNCING module stays in STOP or CONFIGURE (R65). -/
def execHaltReqCapture (time : Nat) (s : State) : Out :=
  let s1 := onDev (fun d => { d with haltReqLow := true }) (advance time s)
  finish s
    (if dieUp s1 then
      onFio (fun f => { f with haltOff := true, testHit := true, ch := f.ch.map (fun c => { c with applied := false }) })
        (if s1.dev.st.configured && (s1.dev.role == .solo || s1.dev.role == .primary) then haltRequested s1 else s1)
    else s1)

/-- HALT_REQ_N is filtered high: PROGRAM_START and STOP_PROGRAM are legal again in HALTED. halt_all stays (R261). -/
def execHaltReqRelease (s : State) : Out := finish s (onDev (fun d => { d with haltReqLow := false }) s)

end Sys2Proof.Machine
end

