-- ==== Sys2Proof/Machine/Boot.lean ====
section
/-! DEFINITION. The course of a start (R383 to R388, R366): BOOT, SELFTEST, cold and warm starts, and the states they reach. -/

namespace Sys2Proof.Machine

/-! ### BOOT (R387, R483, R519) -/

/-- The bank that step 5 takes: the first candidate when no boot has failed, the second after one (R483). -/
def bootBank (s : State) : Option Nat :=
  match candidates s with
  | [] => none
  | [n] => some n
  | n :: m :: _ => if s.fw.failed = 0 then some n else some m

/-- Step 4: the power-cycle count, when the start follows a rise of the main rails. A BOOT that leaves for RECOVERY at step 2 has
counted it too: R59 gives it to the entry to BOOT. -/
def countPowerCycle (s : State) : State :=
  if s.dev.powerUp then
    onDev (fun d => { d with powerUp := false, powerCycles := satTo 0xFFFFFFFF (d.powerCycles + 1) }) s
  else s

/-- The step to SELFTEST. The last state that MRAM records stays that before the reset (R386). -/
def enterSelftest (s : State) : State :=
  recordState .boot (onDev (fun d => { d with st := .selftest, changeTick := d.tick % 2 ^ 32 }) s)

/-- Step 2 enters RECOVERY: the pin, RESET_DEVICE scope 3, or RETIRED (R59, R387, R389, R459). -/
def bootRecovers (env : BootEnv) (s : State) : Bool := env.recoveryLow || s.dev.recoveryNext || lifecycle s == 3

/-- Steps 4 and 5: the power cycle is counted, and the bank that step 5 takes starts or fails (R387, R483). -/
def bootFirmware (env : BootEnv) (s : State) : State :=
  let s1 := countPowerCycle (onFw (fun f => { f with norReset := false }) s)
  match bootBank s1 with
  | none => enterRecovery s1
  | some n =>
    if 2 ≤ s1.fw.failed then enterRecovery s1
    else if env.pllLocked && bankPasses s1 n then enterSelftest (scanBanks (runBank n s1)) else bootFailed n s1

/-- BOOT. It does not begin while PWR_RST_N or POWER_FAIL_N is low (R382, R391). -/
def execBoot (env : BootEnv) (s : State) : Out :=
  let s0 := advance env.time s
  finish s
    (if s0.dev.st ≠ .boot || s0.dev.pwrRstLow || s0.dev.powerFailLow then s0
    else
      let s1 := if s0.dev.startCause = 3 then s0 else startLog s0
      let s2 := onPair (fun p => { p with sideB := env.sideB }) (onSec (fun c => { c with shadows := true }) s1)
      if bootRecovers env s2 then enterRecovery (countPowerCycle s2) else bootFirmware env s2)

/-! ### Cold starts (R384) -/

/-- The record of a generation beside the running one that a restart ends (R233). -/
def recordDropped (b : Beside) : State → State := logHw 0x3004 (fields [(4, b.prog.gen), (1, 3)])

/-- What a cold start clears. Every configured value takes its default. -/
def coldStart (s : State) : State :=
  let drop := fun (o : Option Beside) (t : State) => match o with
    | some b => recordDropped b t
    | none => t
  let s0 := drop s.chg.retained <| drop s.chg.staged <| clearForces 2 (onImg (fun i => { i with forces := i.forcesMram }) s)
  let s1 := { s0 with
    img := Image.reset, chg := { Change.reset with archive := s0.chg.archive, archivePrev := s0.chg.archivePrev }
    mem := { s0.mem with groups := [], copyA := [], copyB := [], sealRec := .none, refetches := 0, rebuilds := 0, losts := 0 }
    scan := Scan.reset }
  { s1 with
    net := { Net.reset with ports := s1.net.ports, library := s1.net.library }
    pair := { s1.pair with ports := 0, member := false, autoResync := false, partnerSerial := 0, takeovers := 0,
                           handovers := 0, linkLosses := 0, syncs := 0 }
    energy := { s1.energy with cap := 0, floor := 3, cfg := .reset, cEst := none, capacity := 0, lowPct := 1 }
    integ := Integrity.reset
    cal := { s1.cal with mramCurve := none }
    wdg := { s1.wdg with enabled := false, locked := false, action := 0, openMs := 1, closeMs := 2, openNow := 1, closeNow := 2 }
    fio := FieldIo.reset
    host := { s1.host with keyErrors := 0 }
    dev := { s1.dev with restartMode := 0, tick := 0, tickAt := s1.dev.now } }

/-! ### Warm starts (R385, R366) -/

/-- An archive entry read back as a program (R128, R385). -/
def archiveProgram (s : State) (e : Option (Nat × Nat × Bytes)) : Option Program :=
  match e with
  | none => none
  | some (gen, slot, b) =>
    if headerOk b && signedOk s slot (le b 56 4) b then
      match parseProgram s s.img.descs gen slot b with
      | some p => if refsOk s.img.descs p then some p else none
      | none => none
    else none

/-- The current generation: the one, with its page map, that the last switch record names, otherwise the archive's current
entry (R233, R385). -/
def currentProgram (s : State) : Option Program :=
  match s.chg.switchRec with
  | none => archiveProgram s s.chg.archive
  | some (gen, map) =>
    match (archiveProgram s s.chg.archive).filter (fun p => p.gen == gen) with
    | some p => some { p with pageMap := map }
    | none => ((archiveProgram s s.chg.archivePrev).filter (fun p => p.gen == gen)).map (fun p => { p with pageMap := map })

/-- MRAM as the checks of the start find it (R366): of a lost block no copy passes, of a torn one only the older. -/
def checkedCopies (env : SelftestEnv) (s : State) : State :=
  let gone := fun (l : List (Nat × Nat × Bytes)) (p : Nat → Bool) => l.filter (fun e => !p e.1)
  let bad := fun (newer : Nat → Bool) (b : Nat) => env.lostBlocks.contains b || (env.tornBlocks.contains b && newer b)
  onMem (fun m =>
    { m with copyA := gone m.copyA (bad (fun b => !olderA m b)), copyB := gone m.copyB (bad (olderA m)) }) s

/-- Word i of group g as the start restores it: the newer valid copies, or POISON where a block has none (R366). -/
def restoredWord (g i : Nat) (s : State) : TWord × State :=
  match mramWord s.mem g i with
  | some w => (w, s)
  | none => drawPoison s

/-- The words of one group, put where the group's key says, as far as they are retentive. -/
def restoreGroup (p : Program) (e : Nat × GroupKey) (s : State) : State :=
  (List.range 64).foldl (fun t i =>
    match e.2 with
    | .data page run =>
      let a := 1024 * page + 64 * run + i
      if ((virtOf p a).map (fun v => decide (v < p.retentiveWords))).getD false then
        let (w, t1) := restoredWord e.1 i t
        onMem (fun m => { m with data := writeAt TWord.empty m.data a w }) t1
      else t
    | .slots run =>
      let a := 64 * run + i
      if (descOf t a).retentive && !isFree t a then
        let (w, t1) := restoredWord e.1 i t
        onImg (fun x => { x with live := writeAt TWord.empty x.live a w }) t1
      else t) s

/-- No program: no data word is retentive under it. -/
def noProgram : Program :=
  { gen := 0, keySlot := 0, image := [], codeLength := 0, dataWords := 0, retentiveWords := 0, trapPolicy := 0, layoutHash := [],
    buildId := [], tasks := [], code := [], slotRefs := [], init := [], pageMap := [] }

/-- Data and slots before the restoring: initial values and first contents (R385, R82). -/
def initialContents (p : Program) (s : State) : State :=
  onImg (fun x =>
      { x with live := s.img.descs.foldl (fun l e =>
          if e.2.dir = 0 then l else writeAt TWord.empty l e.1 (firstContents e.2)) x.live })
    (onMem (fun m =>
      { m with data := p.init.foldl (fun l e =>
          if e.1 < p.retentiveWords then l else writeAt TWord.empty l (physOf p e.1) e.2) m.data }) s)

/-- The blocks of the assigned groups of which no copy is valid, ascending by group. -/
def lostBlocks (s : State) : List Nat :=
  (s.mem.groups.flatMap (fun g => (List.range 5).map (5 * g.1 + ·))).filter (fun b => (newestCopy s.mem b).isNone)

/-- Words that lost blocks take with them: 16 for a payload block, all 64 of the group for a tag block (R366). -/
def lostWords (l : List Nat) : Nat :=
  (l.map (fun b => if b % 5 = 4 then 64 else if l.contains (5 * (b / 5) + 4) then 0 else 16)).sum

/-- The records of the restoring: seal_missing, and the words restored as POISON (R366, R455). -/
def recordRestore (s : State) : State :=
  let l := lostBlocks s
  let s1 := match s.mem.sealRec with
    | .sealed _ _ _ _ => s
    | _ =>
      logFw 0x9007 (fields [(4, 5 * s.mem.groups.length - l.length), (4, l.length)])
        (onEnergy (fun e => { e with sealMissing := true }) s)
  if l.isEmpty then s1 else logFw 0x9008 (fields [(4, lostWords l), (4, l.foldl min (nth 0 l 0))]) s1

/-- Every slot takes its first contents (R82). -/
def firstImage (s : State) : State :=
  onImg (fun x =>
    { x with live := s.img.descs.foldl (fun l e =>
        if e.2.dir = 0 then l else writeAt TWord.empty l e.1 (firstContents e.2)) x.live }) s

/-- A warm start without a program: the slots take their first contents, the retentive ones then what MRAM holds of them (R82); no
generation refers to a slot (R75). -/
def emptyImage (s : State) : State :=
  let s1 := firstImage s
  recordRestore <| setRefs ((s1.mem.groups.filter (fun g => match g.2 with
      | .slots _ => true
      | .data _ _ => false)).foldl (fun t e => restoreGroup noProgram e t) s1)

/-- A staged or retained generation does not survive a warm start: its own pages and claimed runs are freed, with a record that names
it; what it shares with the current generation stays (R233). -/
def dropBeside (s : State) : State :=
  let s1 := discardStaged 3 (onChg (fun c => { c with running := currentProgram s }) s)
  let s2 := match s1.chg.retained with
    | none => s1
    | some b => recordDropped b ((releasedRuns b).foldl (fun t e => giveRun e.1 e.2 t) (dropRetained s1))
  onChg (fun c => { c with running := none }) s2

/-- The reloaded program: data, slots, tasks under the restored records, the resident set (R385, R388 step 4). -/
def reinstall (p : Program) (s : State) : State :=
  let s1 := onChg (fun c => { c with running := some p, highest := max c.highest p.gen }) s
  let s2 := recordRestore (s1.mem.groups.foldl (fun t e => restoreGroup p e t) (initialContents p s1))
  let s3 := onScan (fun x => { x with tasks := x.tasks.map (fun t => freshTask t.sched) }) s2
  loadResident p (residentPages (planOf s3)) (setRefs s3)

/-- Compare pairs at a warm start (R317): SPLIT stays, the others pass through VERIFYING. -/
def verifyPairs (fails : BitVec 8) (s : State) : State :=
  (List.range 8).foldl (fun t k =>
    match getPair t k with
    | .split | .splitting => onScan (fun x => { x with pairs := modifyNth x.pairs k (fun _ => .split) }) t
    | _ =>
      if fails.getLsbD k then
        logHw 0x1007 [b8 k] (setDualFault k (onScan (fun x =>
          { x with pairs := modifyNth x.pairs k (fun _ => .split), verifyFails := satTo 0xFF (x.verifyFails + 1) }) t))
      else onScan (fun x =>
        { x with pairs := modifyNth x.pairs k (fun _ => .joined), verified := x.verified ||| (1#8 <<< k) }) t) s

/-- The base tick of a warm start is not the spec's: a free value (R16; log entry 3). -/
def drawTick (s : State) : State :=
  let (n, t) := draw 48 s
  onDev (fun d => { d with tick := n.toNat, tickAt := d.now }) t

def warmStart (env : SelftestEnv) (s : State) : State :=
  let s1 := checkedCopies env (dropBeside (drawTick s))
  let s2 := match currentProgram s1 with
    | some p => reinstall p s1
    | none => emptyImage s1
  verifyPairs env.pairFails (onImg (fun i => { i with forces := i.forcesMram }) s2)

/-! ### SELFTEST (R388) -/

/-- WDOG ticks: 8,000 a ms (R428). -/
def wdogNow (s : State) : Nat := max s.wdg.tick (s.dev.now / 750)

/-- RESUME reaches RUN (R386). -/
def wasRunning (s : State) : Bool :=
  let r := fun (d : DevState) => d == .run || d == .changing
  r s.dev.lastState || (s.dev.lastState == .holdup && (s.dev.lastRet.map r).getD false)

/-- The state that a warm start with a program reaches (R59, R386). -/
def startState (s : State) : DevState :=
  if s.dev.haltReqLow then .stop
  else match s.dev.restartMode with
    | 0 => .stop
    | 1 => .run
    | _ => if wasRunning s then .run else .stop

/-- Steps 5 to 7: the field die configured, the open marker, the network; the host watchdog counts from the exit (R432). -/
def finishSelftest (s : State) : State :=
  let s1 := onFio (fun f => { f with configured := true, haltOff := s.dev.haltReqLow }) s
  let s2 := onMem (fun m => { m with sealRec := .open }) s1
  let s3 := onNet (fun n => { n with firstCycle := s.dev.tick + 1, haltConfigure := s.dev.haltReqLow && s2.chg.running.isNone })
    (if s.dev.haltReqLow then setHaltAll s2 else s2)
  onWdg (fun w => { w with s := wdogNow s3 }) (onFw (fun f => { f with failed := 0 }) s3)

/-- The calendar's curve: the host's from MRAM, otherwise the factory's (R400). -/
def loadCurve (s : State) : State :=
  match s.cal.mramCurve with
  | some k => setCurve true k s
  | none => setCurve false (factoryCurve s) s

/-- The record of a match in RETAIN is written when SELFTEST ends (R404). -/
def recordRetained (i : Nat) (s : State) : State :=
  if (alarmOf s i).inRetain then logFw 0x6004 (fields [(1, i), (1, 1)]) (onAlarm i (fun a => { a with inRetain := false }) s) else s

/-- The state after SELFTEST. RUN makes its first releases after the network has reached its cycle, and a member of a pair
arbitrates first (R59, R338). -/
def leaveSelftest (kind : Nat) (st : DevState) (s : State) : State :=
  let s1 := recordRetained 1 (recordRetained 0 (startRecord kind (enter st s)))
  if st = .configure then s1
  else if s1.pair.member then onPair (fun p => { p with deciding := some s1.dev.now }) s1
  else if st = .run then onDev (fun d => { d with releasing := some (d.tick + 2) }) s1
  else s1

/-- SELFTEST. -/
def execSelftest (env : SelftestEnv) (s : State) : Out :=
  let s0 := advance env.time s
  finish s
    (if s0.dev.st ≠ .selftest || !s0.fw.coreUp then s0
    else match env.checkerFails with
      | some (checker, pattern) => enterFault checker (logHw 0xB004 (fields [(1, checker), (1, pattern), (4, 0)]) s0)
      | none =>
        if s0.dev.cfgValid && s0.dev.cfgFormat == s0.fw.cfgFormat then
          let s2 := warmStart env (loadCurve s0)
          leaveSelftest 1 (if s2.chg.running.isSome then startState s2 else .configure) (finishSelftest s2)
        else
          leaveSelftest 0 .configure
            (finishSelftest (onDev (fun d => { d with cfgValid := true, cfgFormat := s0.fw.cfgFormat }) (loadCurve (coldStart s0)))))

end Sys2Proof.Machine
end

