-- ==== Sys2Proof/Machine/Stations.lean ====
section
/-! DEFINITION. Station conversations at the master (R268 to R288, R291): sessions, grants, admission, configuration, firmware,
diagnostics, verification, and the release of a station. The commands stand in StationCmds.lean. -/

namespace Sys2Proof.Machine

/-! ### Small parts -/

/-- a is newer than b among 16-bit numbers (R6). -/
def newer16 (a b : Nat) : Bool := let d := (a + 65536 - b) % 65536; decide (1 ≤ d ∧ d ≤ 32767)

/-- a is old beside b (R6): neither equal nor newer, a distance of 32,768 included. -/
def older16 (a b : Nat) : Bool := a != b && !newer16 a b

/-- The next session id or msg_seq: it skips 0 (R271). -/
def next16 (n : Nat) : Nat := if n = 65535 then 1 else n + 1

/-- The identifier of an object: its CRC-32C, never 0 (R272). -/
def objectId (b : Bytes) : Word := if crc32c b = 0 then 0xFFFFFFFF#32 else crc32c b

/-- Vendor, product and serial of an identity block: what makes two identities the same device (R274). -/
def sameDevice (a b : Bytes) : Bool := slice a 0 8 == slice b 0 8 && slice a 16 16 == slice b 16 16

def onSession (a : Nat) (f : Session → Session) : State → State :=
  onStn a (fun x => { x with session := x.session.map f })

/-- Sessions run: the service core works, on a module in role SOLO or PRIMARY (R291, R292). -/
def sessionsRun (s : State) : Bool := servoRuns s && (s.dev.role == .solo || s.dev.role == .primary)

/-- An identity block as host memory holds it: its four numbers little-endian, the serial number as it stands (R4, R274; DEDUCED, log
entry 64). -/
def hostIdent (b : Bytes) : Bytes :=
  (slice b 0 4).reverse ++ (slice b 4 4).reverse ++ (slice b 8 4).reverse ++ (slice b 12 4).reverse ++ slice b 16 16

/-- The boot epoch that a session uses: the newer one seen while the station is to be verified (R276, R280, R288; log
entry 18). -/
def sessionEpoch (x : Station) : Nat := if x.st = .verifying then x.newEpoch else x.bootEpoch

/-- The station that a session command names. -/
def reqStation (r : Request) : Nat := pField r 16 2

def stationOps : List Nat := [0x4004, 0x4005, 0x4006, 0x4007]

/-- The PENDING session operation of a station. -/
def stationOp (s : State) (a : Nat) : Option Nat :=
  (s.host.ops.find? (fun e => !e.2.done && stationOps.contains e.2.opcode && reqStation e.2.req == a)).map (·.1)

/-- The object that an operation transfers: its payload, or the library entry (R295). -/
def sessionObject (s : State) (o : LongOp) : Bytes :=
  if o.opcode = 0x4006 ∧ (bitOf (pByte o.req 18) 1 ∨ bitOf (pByte o.req 18) 2) then
    match look s.net.library (pByte o.req 19) with
    | some e => e.2
    | none => []
  else o.req.payload.take (pField o.req 20 4)

def opObject (s : State) (h : Option Nat) : Bytes :=
  match h.bind (getOp s) with
  | some o => sessionObject s o
  | none => []

def chunkCount (b : Bytes) : Nat := (b.length + 1023) / 1024

/-! ### Configuration images (R282) -/

def cfgIns (b : Bytes) : List Bool := (slice b 32 (le b 6 2)).map (· == 1)
def cfgOuts (b : Bytes) : List Bool := (slice b (32 + le b 6 2) (le b 8 2)).map (· == 1)

/-- Length of the data that entries ask for. -/
def inLength (l : List Bool) : Nat := 4 + (l.map (fun w => if w then 5 else 3)).sum
def outLength (l : List Bool) : Nat := 8 + 5 * l.length

def configOk (x : SchedStation) (b : Bytes) : Bool :=
  let n := le b 6 2 + le b 8 2
  decide (32 ≤ b.length ∧ b.length ≤ 1048576) && slice b 0 4 == [0x4C, 0x57, 0x43, 0x46] && le b 4 2 == 1 &&
    decide (2 * periodOf x ≤ le b 10 2 ∧ le b 10 2 ≤ 4000) && decide (1 ≤ byteAt b 12) && zeroFrom b 13 16 &&
    zeroFrom b 20 32 && (slice b 32 n).length == n && (slice b 32 n).all (fun e => e == 0 || e == 1) &&
    b.length == 32 + (n + 7) / 8 * 8 + le b 16 4 &&
    inLength (cfgIns b) == x.inLen && outLength (cfgOuts b) == x.outLen

/-! ### Results (R279, R293 to R296) -/

/-- The first 14 bytes of the result of a session operation. -/
def sessionResult (s : State) (a : Nat) (o : LongOp) : Bytes :=
  let x := (getStn s a).getD freshStation
  let aux := nth 0 o.aux
  match o.opcode with
  | 0x4004 => leBytes 4 (aux 0) ++ [b8 x.st.code, 0] ++ leBytes 2 x.bootEpoch ++ leBytes 4 (aux 1) ++ [0, 0]
  | 0x4005 => leBytes 4 (objectId (sessionObject s o)).toNat ++ [b8 (aux 1), 0, 0, 0] ++ leBytes 4 (aux 0) ++ [0, 0]
  | 0x4006 =>
    leBytes 4 (objectId (sessionObject s o)).toNat ++ leBytes 4 (aux 1) ++ (slice x.ident 12 4).reverse ++ leBytes 2 x.bootEpoch
  | _ =>
    [b8 x.st.code, b8 (aux 0)] ++ leBytes 2 (aux 1) ++ leBytes 4 x.confirmed.toNat ++ leBytes 2 x.bootEpoch ++
      leBytes 4 (x.kLast.getD 0)

/-- A session operation ends, with the reason and the station's code (R279). -/
def endStationOp (a i status reason code : Nat) (s : State) : State :=
  match getOp s i with
  | some o => endOp i status (sessionResult s a o ++ (if status = stOk then [0, 0] else [b8 reason, b8 code])) s
  | none => s

/-- Auxiliary value k of an operation. -/
def setAux (i k v : Nat) : State → State :=
  onOp i (fun o => { o with aux := (o.aux ++ List.replicate (k + 1 - o.aux.length) 0).modify k (fun _ => v) })

/-! ### Opening, messages and closing (R276) -/

/-- The body of an OPEN (R272, R284). -/
def openBody (kind index : Nat) (obj : Bytes) : Bytes :=
  [b8 kind, b8 index, 0, 0] ++ beBytes 4 obj.length ++
    beBytes 4 (if kind = 1 ∨ kind = 5 ∨ kind = 6 then 0 else (objectId obj).toNat) ++ [0, 0, 0, 0]

/-- The session of a kind as its OPEN waits to be sent; the station's session id goes on by one. A commit that is open stays so over the
restart of R280. -/
def openSession (a kind : Nat) (h : Option Nat) (restarted : Bool) (s : State) : State :=
  let obj := if kind = 2 ∨ kind = 3 ∨ kind = 4 then opObject s h else []
  let index := match h.bind (getOp s) with
    | some o => if kind = 3 then pByte o.req 19 else 0
    | none => 0
  onStn a (fun x =>
    { x with
      sessionId := next16 x.sessionId
      session := some
        { kind := kind, st := .opening, handle := h, seq := 1, msgType := 1, body := openBody kind index obj,
          sent := false, grants := 0, resends := 0, rejected := false, restarted := restarted, chunk := 0,
          chunks := chunkCount obj, waitCycle := 0, waited := 0, firstIdent := (x.session.bind (·.firstIdent)),
          cycle := (x.session.map (·.cycle)).getD 0, committed := restarted && x.session.any (·.committed) } }) s

/-- The next message of a session waits to be sent. -/
def setMessage (a type : Nat) (body : Bytes) : State → State :=
  onSession a (fun e =>
    { e with st := .exchange, seq := next16 e.seq, msgType := type, body := body, sent := false, grants := 0,
             resends := 0, rejected := false, waited := 0 })

/-- The ABORT of a session: its id, and the msg_seq after the last message that was sent; none before the OPEN has been sent (R271,
R276). -/
def abortOf (x : Station) (e : Session) : Option (Nat × Nat) :=
  if e.sent || e.resends != 0 then some (x.sessionId, next16 e.seq)
  else if e.msgType = 1 then none else some (x.sessionId, e.seq)

/-- The session closes and its operation ends: the record, and an ABORT where the rules send one. -/
def closeSession (a status reason code : Nat) (abort : Bool) (s : State) : State :=
  match getStn s a with
  | none => s
  | some x =>
    match x.session with
    | none => s
    | some e =>
      let s1 := logFw 0x401A (leBytes 2 a ++ [b8 e.kind, b8 status, b8 reason]) s
      let s2 := onStn a (fun x =>
        { x with
          session := none
          abortSeq := if abort && e.st != .probing then (abortOf x e).or x.abortSeq else x.abortSeq
          st := if e.kind = 1 && status != stOk && x.st == .admitting then .absent else x.st
          verifyCycle := if e.kind = 6 then s.dev.tick else x.verifyCycle }) s1
      match e.handle with
      | some i => endStationOp a i status reason code s2
      | none => s2

/-- Outcome 2 of a commit: unknown; a station whose configuration it was becomes UNCONFIGURED (R270, R283, R284). -/
def commitUnknown (a : Nat) (h : Option Nat) (s : State) : State :=
  let s1 := match h with
    | some i => setAux i 1 2 s
    | none => s
  onStn a (fun x =>
    { x with
      unresolved := none, discard := false
      st := if x.unresolved.any (·.config) && x.st == .admitted then .unconfigured else x.st }) s1

/-- The session closes while a commit may have been made: its outcome is unknown. -/
def closeUnresolved (a status reason code : Nat) (abort : Bool) (s : State) : State :=
  match (getStn s a).bind (·.session) with
  | some e =>
    closeSession a status reason code abort
      (if e.committed && (e.kind == 2 || e.kind == 3 || (e.kind == 6 && e.handle.isSome)) then commitUnknown a e.handle s else s)
  | none => s

/-- The station has turned a message away and the session closes with an ABORT; a COMMIT that it turned away at the first is not
committed (R273, R283). -/
def closeRefused (a status reason code : Nat) (s : State) : State :=
  match (getStn s a).bind (·.session) with
  | some e =>
    if e.committed && (e.kind == 2 || e.kind == 3) && e.msgType == 4 && !e.restarted then
      closeSession a status reason code true (onStn a (fun x => { x with unresolved := none, discard := false }) s)
    else closeUnresolved a status reason code true s
  | none => s

/-- The one restart of an operation's session (R280), or its end with PARTNER_ERROR. -/
def restartSession (a : Nat) (s : State) : State :=
  match (getStn s a).bind (·.session) with
  | some e =>
    if e.restarted then closeUnresolved a stPartnerError 4 0 false s
    else openSession a e.kind e.handle true s
  | none => s

/-- What a COMMIT leaves open: of a configuration with its entries and times, or of a parameter set (R283, R284). -/
def pendingCommit (x : Station) (cfg : Bool) (obj : Bytes) : PendingCommit :=
  if cfg then
    { config := true, old := x.confirmed, new := objectId obj, ins := cfgIns obj, outs := cfgOuts obj, loss := le obj 10 2,
      hold := byteAt obj 12 }
  else { config := false, old := 0, new := objectId obj, ins := [], outs := [], loss := 0, hold := 0 }

/-- k_s of a configuration committed in the tick in progress: 0 where the entries stay (R283). -/
def commitCycle (s : State) (x : Station) (p : PendingCommit) : Nat :=
  if x.inEntries = p.ins ∧ x.outEntries = p.outs then 0 else s.dev.tick + 1

/-- COMMIT of a configuration has been made (R270, R283): the confirmed id with its times, the cycle from which new entries apply, and
CONFIRM in the session that is open. -/
def confirmCommit (a : Nat) (p : PendingCommit) (s : State) : State :=
  match getStn s a with
  | none => s
  | some x =>
    let ks := commitCycle s x p
    let s1 := onStn a (fun x =>
      { x with
        confirmed := p.new, unresolved := none, lossTime := p.loss, holdTime := p.hold
        nextEntries := if ks = 0 then x.nextEntries else some (ks, p.ins, p.outs)
        st := if x.st = .unconfigured then .admitted else x.st }) s
    onSession a (fun e => { e with kind := 2, committed := false })
      (setMessage a 5 (beBytes 4 p.new.toNat ++ beBytes 4 (ks % 2 ^ 32)) s1)

/-- COMMIT of the configuration of operation i has been made. -/
def committedConfig (a i : Nat) (s : State) : State :=
  match getStn s a, getOp s i with
  | some x, some o =>
    let p := pendingCommit x true (sessionObject s o)
    confirmCommit a p (setAux i 1 0 (setAux i 0 (commitCycle s x p) s))
  | _, _ => s

/-- CHUNK k of an object. -/
def chunkBody (obj : Bytes) (k : Nat) : Bytes := beBytes 4 k ++ slice obj (1024 * k) 1024

/-- The next chunk, or COMMIT after the last. -/
def chunkOrCommit (a k : Nat) (obj : Bytes) (s : State) : State :=
  if k < chunkCount obj then onSession a (fun e => { e with chunk := k }) (setMessage a 3 (chunkBody obj k) s)
  else setMessage a 4 (beBytes 4 (objectId obj).toNat ++ [0, 0, 0, 0]) s

/-- A station is admitted (R270, R281): the configuration decides between ADMITTED and UNCONFIGURED, and the inputs count from
the first full cycle. -/
def admitStation (a i : Nat) (s : State) : State :=
  match getStn s a, getOp s i with
  | some x, some o =>
    let active := nth 0 o.aux 0
    let ok := active != 0 && active == x.confirmed.toNat
    let s1 := onStn a (fun x =>
      { x with
        st := if ok then .admitted else .unconfigured
        ident := (x.session.bind (·.firstIdent)).getD x.ident
        kLast := none, missed := 0, badNoted := false, rejoin := none, counted := none, request := false, notified := [],
        delayGrant := s.dev.tick }) s
    closeSession a stOk 0 0 false (onOp i (fun o => { o with work := 4 }) s1)
  | _, _ => s

/-! ### Verification (R288) -/

/-- What a verification finds of a commit that is unresolved (R283, R284, R292): the new configuration, whose CONFIRM goes out in the
verification's session, the old one, or neither; a parameter set needs nothing more. -/
def resolveCommit (a : Nat) (active : Word) (s : State) : State :=
  match (getStn s a).bind (·.unresolved) with
  | some p =>
    if !p.config then onStn a (fun x => { x with unresolved := none }) s
    else if active = p.new then confirmCommit a p s
    else if active = p.old then onStn a (fun x => { x with unresolved := none, discard := false }) s
    else commitUnknown a none s
  | none => s

/-- The firmware operation that waits for the station's return ends with OK when the version has changed (R285). -/
def stationReturned (a : Nat) (changed : Bool) (s : State) : State :=
  match (getStn s a).bind (·.returning) with
  | some (i, _) =>
    if changed then endStationOp a i stOk 0 0 (onStn a (fun x => { x with returning := none }) s) else s
  | none => s

/-- The verification's session goes on with a CONFIRM: the station has an unresolved configuration in force (R283, R292). -/
def confirmsOpen (x : Station) (active : Word) : Bool := x.unresolved.any (fun p => p.config && p.new == active)

/-- The verification of a station whose identity and active configuration the answer gives (R288). -/
def verified (a : Nat) (ident : Bytes) (active : Word) (s : State) : State :=
  match getStn s a with
  | none => s
  | some x =>
    let differs := x.st == .verifying && !sameDevice ident x.ident
    let s0 := onStn a (fun x => { x with verifyDue := false, verifyCycle := s.dev.tick }) s
    let s1 := if confirmsOpen x active && !differs then s0 else closeSession a stOk 0 0 false s0
    if x.st != .verifying then resolveCommit a active s1
    else if differs then
      logFw 0x4017 (leBytes 2 a ++ hostIdent ident) (onStn a (fun x => { x with st := .mismatch }) s1)
    else
      let changed := slice ident 8 8 != slice x.ident 8 8
      let s2 := if changed then logFw 0x4018 (leBytes 2 a ++ hostIdent ident) s1 else s1
      let s3 := resolveCommit a active s2
      let s4 := onStn a (fun x =>
        { x with
          st := if active = x.confirmed then .lost else .unconfigured
          bootEpoch := x.newEpoch, ident := ident, rejoin := none, notified := [], noteAck := none }) s3
      stationReturned a (slice ident 12 4 != slice x.ident 12 4) s4

/-- The verification inside an operation that resolves a COMMIT without an answer (R283, R284). -/
def resolvedIn (a i : Nat) (active parameter : Word) (e : Session) (s : State) : State :=
  match getOp s i with
  | none => s
  | some o =>
    let new := objectId (sessionObject s o)
    let cfg := pByte o.req 18 == 0
    let st := if e.rejected then stPartnerError else stTimeout
    let why := if e.rejected then 2 else 1
    if (if cfg then active else parameter) = new then
      if cfg then committedConfig a i s
      else closeSession a stOk 0 0 false (onStn a (fun x => { x with unresolved := none }) (setAux i 1 0 s))
    else if cfg && (((getStn s a).bind (·.unresolved)).map (·.old)) != some active then
      closeSession a stTimeout 1 0 false (commitUnknown a (some i) s)
    else
      closeSession a st why 0 false (onStn a (fun x => { x with unresolved := none, discard := false }) (setAux i 1 1 s))

/-! ### Accepted answers -/

/-- DIAG is answered: the data go to the payload (R286, R296). -/
def diagAnswered (a i : Nat) (data : Bytes) (s : State) : State :=
  match getOp s i with
  | none => s
  | some o =>
    let s1 := setAux i 1 data.length (setAux i 0 0 s)
    if 64 * o.req.len < data.length then closeSession a stBadParam 0 0 false s1
    else closeSession a stOk 0 0 false (putPayload o.req data s1)

/-- The chunks that count before the transfer: those that store has written to the library (R294, R295). -/
def chunkBase (o : LongOp) : Nat := if o.opcode = 0x4006 && bitOf (pByte o.req 18) 2 then o.total / 2 else 0

/-- OK is accepted: the next message of the kind, or the end (R276, R281 to R286). -/
def answerOk (a : Nat) (e : Session) (data : Bytes) (s : State) : State :=
  let obj := opObject s e.handle
  let active := BitVec.ofNat 32 (beNat (slice data 32 4))
  match e.handle with
  | none => if e.kind = 6 then verified a (slice data 0 32) active s else closeSession a stOk 0 0 false s
  | some i =>
    match e.kind, e.msgType with
    | 1, 1 =>
      match stnSched s a with
      | none => s
      | some q =>
        setMessage a 2
          ([b8 q.periodCode, b8 q.phase] ++ beBytes 2 q.position ++ beBytes 2 q.inLen ++ beBytes 2 q.outLen ++
            beBytes 4 (((getStn s a).map (·.confirmed.toNat)).getD 0)) (setAux i 0 active.toNat s)
    | 1, _ => admitStation a i s
    | 4, 1 =>
      let r := beNat (slice data 40 4)
      if chunkCount obj < r then closeSession a stPartnerError 13 0 false s else chunkOrCommit a r obj s
    | 2, 1 | 3, 1 => chunkOrCommit a 0 obj s
    | 2, 3 | 3, 3 | 4, 3 =>
      chunkOrCommit a (e.chunk + 1) obj
        (onOp i (fun o => { o with work := chunkBase o + e.chunk + 1 }) (if e.kind = 4 then setAux i 1 (((getOp s i).map (fun o => nth 0 o.aux 1)).getD 0 + 1) s else s))
    | 2, 4 => committedConfig a i s
    | 2, _ => closeSession a stOk 0 0 false s
    | 3, _ => closeSession a stOk 0 0 false (onStn a (fun x => { x with unresolved := none }) (setAux i 1 0 s))
    | 4, 4 =>
      if ((getOp s i).map (fun o => bitOf (pByte o.req 18) 0)).getD false then
        onSession a (fun e => { e with committed := false }) (setMessage a 6 (beBytes 4 (objectId obj).toNat) s)
      else closeSession a stOk 0 0 false s
    | 4, _ =>
      let s1 := logFw 0x401A (leBytes 2 a ++ [4, b8 stOk, 0]) s
      onStn a (fun x => { x with session := none, returning := some (i, s.dev.tick) }) s1
    | 5, 1 =>
      match getOp s i with
      | some o => setMessage a 7 (beBytes 2 (pField o.req 18 2) ++ [0, 0] ++ sliceZ (pSlice o.req 20 64) 0 44) s
      | none => s
    | 5, _ => diagAnswered a i data s
    | _, _ => resolvedIn a i active (BitVec.ofNat 32 (beNat (slice data 36 4))) e s

/-- An accepted answer (R273, R276, R278). -/
def answered (a : Nat) (e : Session) (status : Nat) (data : Bytes) (s : State) : State :=
  let s1 := match e.handle with
    | some i => if e.kind = 5 ∧ e.msgType = 7 then setAux i 0 status s else s
    | none => s
  match status with
  | 0 => answerOk a e data s1
  | 1 =>
    onSession a (fun e =>
      { e with st := .waiting, grants := 0, waitCycle := s.dev.tick + 40, waited := if e.st = .waiting then e.waited else 0 }) s1
  | 2 => closeRefused a stPartnerError 3 0 s1
  | 3 => restartSession a s1
  | 4 => closeRefused a stPartnerError 5 (byteAt data 0) s1
  | 5 => closeRefused a stIntegrity 6 0 s1
  | 6 => closeRefused a stPartnerError 5 0xFF s1
  | _ => onSession a (fun e => { e with rejected := true }) (onStn a (fun x => { x with rejected := x.rejected + 1 }) s1)

/-! ### A newer boot epoch (R270, R280, R288) -/

/-- What a newer boot epoch does to an open session (R280). -/
def epochEndsSession (a : Nat) (s : State) : State :=
  match (getStn s a).bind (·.session) with
  | some e =>
    if e.kind = 4 || e.kind = 6 then restartSession a s else closeUnresolved a stAborted 9 0 false s
  | none => s

/-- A station shows a newer boot epoch: VERIFYING, with the record (R270). -/
def enterVerifying (a epoch : Nat) (s : State) : State :=
  match getStn s a with
  | none => s
  | some x =>
    if x.st = .verifying && x.newEpoch == epoch then s
    else if x.st.joined then
      epochEndsSession a
        (onStn a (fun x => { x with st := .verifying, newEpoch := epoch, verifyDue := true, counted := none, rejoin := none })
          (logHw 0x4016 (leBytes 2 a ++ leBytes 2 x.bootEpoch ++ leBytes 2 epoch) s))
    else s

/-- A station that is being admitted shows a newer boot epoch: its admission ends (R280). -/
def epochEndsAdmission (a : Nat) (s : State) : State :=
  match (getStn s a).bind (·.session) with
  | some e => if e.kind = 1 && e.st != .probing then closeSession a stAborted 9 0 false s else s
  | none => s

/-- A newer boot epoch of a station, by its state. -/
def newerEpoch (a epoch : Nat) (s : State) : State :=
  if (stnState s a).joined then enterVerifying a epoch s else epochEndsAdmission a s

/-- The newer boot epochs that were seen while no session could run are acted upon now (R291). -/
def seenEpochs (s : State) : State :=
  s.net.stations.foldl (fun t e =>
    match (getStn t e.1).bind (·.epochSeen) with
    | some n => newerEpoch e.1 n (onStn e.1 (fun x => { x with epochSeen := none }) t)
    | none => t) s

/-! ### Session frames upwards (R271) -/

/-- A SESSION_UP message. -/
structure UpMsg where
  session : Nat
  type : Nat
  ack : Nat
  epoch : Nat
  body : Bytes
  deriving DecidableEq, Repr

/-- The message of a SESSION_UP frame, if its crc passes; the bytes begin at the Lacework header. -/
def parseUp (b : Bytes) : Option UpMsg :=
  let d := b.drop 12
  let n := beNat (slice d 10 2)
  if (slice d (12 + n) 4).length = 4 ∧ beNat (slice d (12 + n) 4) = (crc32c (slice d 0 (12 + n))).toNat then
    some { session := beNat (slice d 0 2), type := byteAt d 2, ack := beNat (slice d 6 2), epoch := beNat (slice d 8 2),
           body := slice d 12 n }
  else none

/-- An answer of the station is rejected and counted (R276). -/
def rejectUp (a : Nat) (s : State) : State :=
  onSession a (fun e => { e with rejected := true }) (onStn a (fun x => { x with rejected := x.rejected + 1 }) s)

/-- ANNOUNCE answers a probe (R281): the first identity, then the confirming one, the comparison and the OPEN. -/
def announced (a : Nat) (m : UpMsg) (s : State) : State :=
  match (getStn s a).bind (·.session) with
  | some e =>
    if e.st != .probing || m.body.length < 40 then rejectUp a s
    else
      match e.handle.bind (getOp s), e.handle with
      | some o, some i =>
        let ident := slice m.body 0 32
        if e.chunk = 0 then
          onOp i (fun o => { o with work := 1 })
            (onStn a (fun x => { x with bootEpoch := m.epoch })
              (onSession a (fun e =>
                { e with chunk := 1, grants := 0, waitCycle := s.dev.tick + 40, firstIdent := some ident }) s))
        else
          let s1 := if byPointer o.req then putPayload o.req (hostIdent (e.firstIdent.getD []) ++ hostIdent ident) s else s
          if e.firstIdent != some ident then closeSession a stPartnerError 8 0 false s1
          else
            let want := pSlice o.req 20 48
            let same := fun i => le want i 4 == beNat (slice ident i 4)
            let ok := same 0 && same 4 && ((slice want 12 16).all (· == 0) || slice want 12 16 == slice ident 16 16) &&
              (!bitOf (pByte o.req 18) 1 || same 8)
            if !ok then closeSession a stPartnerError 7 0 false s1
            else
              openSession a 1 (some i) e.restarted
                (onOp i (fun o => { o with work := 3 }) (onStn a (fun x => { x with bootEpoch := m.epoch }) s1))
      | _, _ => s
  | none => rejectUp a s

/-- ANSWER of a station (R276). -/
def answerFrame (a : Nat) (m : UpMsg) (s : State) : State :=
  match getStn s a with
  | none => s
  | some x =>
    match x.session with
    | none => onStn a (fun x => { x with stale := x.stale + 1 }) s
    | some e =>
      if older16 m.session x.sessionId || (m.session == x.sessionId && older16 m.ack e.seq) then
        onStn a (fun x => { x with stale := x.stale + 1 }) s
      else if e.st != .probing && e.sent && m.session == x.sessionId && m.ack == e.seq && m.epoch == sessionEpoch x then
        answered a e (byteAt m.body 0) (m.body.drop 4) s
      else rejectUp a s

/-- NOTIFY of a station (R287). -/
def notified (a : Nat) (m : UpMsg) (s : State) : State :=
  match getStn s a with
  | none => s
  | some x =>
    let n := beNat (slice m.body 0 2)
    let s1 := if x.notified.contains n then s
      else logFw 0x4019 (leBytes 2 a ++ leBytes 2 n ++ sliceZ m.body 2 32) s
    onStn a (fun x => { x with notified := insertNat x.notified n, noteAck := some n }) s1

/-- A SESSION_UP frame of station a: crc, boot epoch, type (R276, R288). -/
def sessionUp (a : Nat) (b : Bytes) (s : State) : State :=
  match parseUp b, getStn s a with
  | some m, some x =>
    if m.type = 0x41 && x.st == .absent then announced a m s
    else if older16 m.epoch (sessionEpoch x) && x.st != .absent then rejectUp a s
    else if newer16 m.epoch (sessionEpoch x) &&
        (x.st.joined || x.session.any (fun e => e.kind == 1 && e.st != .probing)) then newerEpoch a m.epoch s
    else if m.type = 0x41 then announced a m s
    else if m.type = 0x42 then answerFrame a m s
    else if m.type = 0x43 then notified a m s
    else rejectUp a s
  | _, _ => rejectUp a s

/-! ### Frames downwards and grants (R271, R275) -/

/-- A SESSION_DOWN frame. -/
def downFrame (s : State) (a session type : Nat) (resend : Bool) (seq epoch : Nat) (body : Bytes) : Bytes :=
  let d := beBytes 2 session ++ [b8 type, b8 (flag resend 0)] ++ beBytes 2 seq ++ [0, 0] ++ beBytes 2 epoch ++
    beBytes 2 body.length ++ body
  lwHeader 4 0 a s.dev.tick s.pair.epoch (d.length + 4) ++ d ++ beBytes 4 (crc32c d).toNat

/-- The type of the last message that an operation with this session sends: no cancel point follows its first send (R276). -/
def lastMessage (s : State) (e : Session) : Nat :=
  match e.kind with
  | 1 => 2
  | 2 => 5
  | 3 => 4
  | 4 => if (e.handle.bind (getOp s)).any (fun o => bitOf (pByte o.req 18) 0) then 6 else 4
  | 5 => 7
  | _ => 0

/-- ADMIT is sent: the station is ADMITTING, and k_a is fixed (R270, R281). -/
def sendAdmit (a i : Nat) (s : State) : State :=
  match stnSched s a with
  | some q =>
    let ka := s.dev.tick + 80 + (q.phase + periodOf q - (s.dev.tick + 80) % periodOf q) % periodOf q
    setAux i 1 (ka % 2 ^ 32)
      (onSession a (fun e => { e with body := e.body ++ beBytes 4 (ka % 2 ^ 32), cycle := ka })
        (onStn a (fun x => { x with st := .admitting, outputsFrom := ka }) s))
  | none => s

/-- COMMIT is sent: its outcome is open, and a change of entries discards the inputs (R283). -/
def sendCommit (a : Nat) (e : Session) (s : State) : State :=
  let obj := opObject s e.handle
  let cfg := e.kind == 2
  onSession a (fun e => { e with committed := true })
    (onStn a (fun x =>
      { x with
        unresolved := if cfg || e.kind == 3 then some (pendingCommit x cfg obj) else x.unresolved
        discard := x.discard || (cfg && decide (¬(x.inEntries = cfgIns obj ∧ x.outEntries = cfgOuts obj))) }) s)

/-- The session message of station a is sent: what its first send begins (R276, R281, R283, R285). -/
def firstSend (a : Nat) (e : Session) (s : State) : State :=
  match e.handle with
  | none => s
  | some i =>
    let s1 := if e.msgType = lastMessage s e then onOp i (fun o => { o with past := true }) s else s
    match e.msgType with
    | 2 => sendAdmit a i s1
    | 4 => sendCommit a e s1
    | 6 => onSession a (fun e => { e with committed := true }) s1
    | _ => s1

/-- A message of the session is ready to be sent for the first time: a cancel point (R276). -/
def atCancelPoint (e : Session) : Bool := !e.sent && e.resends == 0 && !e.committed && e.st != .probing

/-- The operation of a session stands still: suspended in HOLDUP, or paused by the ledger (R68, R358). -/
def sessionHeld (s : State) (e : Session) : Bool :=
  match e.handle.bind (getOp s) with
  | some o => o.suspended || (e.kind == 4 && o.waiting && atCancelPoint e)
  | none => false

/-- The operation of a session is to end at a cancel point. -/
def sessionCancelled (s : State) (e : Session) : Bool :=
  match e.handle.bind (getOp s) with
  | some o => stopAsked s o && !o.past
  | none => false

/-- The class of R275 in which a station asks for the grant of the tick in progress, none when it does not. An ABORT is a message ready
to send; a NOTE_ACK goes out in whichever grant the station gets next (R287). -/
def grantClass (s : State) (x : Station) : Option Nat :=
  let asked := if x.request && x.st.joined then some 4 else none
  if x.abortSeq.isSome then some 2
  else match x.session with
    | some e =>
      if sessionHeld s e then asked
      else if e.st = .probing then (if decide (e.waitCycle ≤ s.dev.tick) && decide (e.grants < 4) then some 3 else asked)
      else if !e.sent then some 2
      else if e.st = .waiting && decide (s.dev.tick < e.waitCycle) then asked else some 1
    | none => asked

/-- Stations of a line or ring in the order of a round robin that goes on after address rr. -/
def robin (s : State) (key rr : Nat) : List Nat :=
  let l := ((schedStations s).filter (fun x => x.port == key)).foldl (fun m x => insertNat m x.station) []
  l.filter (fun a => decide (rr < a)) ++ l.filter (fun a => decide (a ≤ rr))

/-- The station that gets the session grant of a line or ring, with its class; each class has a round robin of its own. -/
def sessionGrant (s : State) (key : Nat) : Option (Nat × Nat) :=
  [1, 2, 3, 4].findSome? (fun c =>
    ((robin s key (nth 0 (getPort s key).rr (c - 1))).find? (fun a => ((getStn s a).bind (grantClass s)) == some c)).map
      (fun a => (a, c)))

/-- The admitted station of a line whose last Delay_Req grant lies furthest back, with the cycles since (R257). -/
def oldestDelay (s : State) (key : Nat) : Option (Nat × Nat) :=
  ((schedStations s).filter (fun x => x.port == key)).foldl (fun best q =>
    match getStn s q.station with
    | some x =>
      if !x.st.joined then best
      else
        let age := s.dev.tick - x.delayGrant
        match best with
        | some (_, n) => if n < age then some (q.station, age) else best
        | none => some (q.station, age)
    | none => best) none

/-- Hardware grants a Delay_Req alone: to the station whose turn would otherwise come too late, and in every cycle without a
session grant (R257; log entry 19). -/
def delayTurn (s : State) (key : Nat) (session : Bool) : Option Nat :=
  match oldestDelay s key with
  | some (a, n) => if !session || decide (256 ≤ n + admittedOn s key) then some a else none
  | none => none

/-- A grant of class 1 or 3 counts as an answer grant or a probe (R276, R278, R281). -/
def countGrant (a c : Nat) (s : State) : State :=
  if c = 1 then
    onSession a (fun e =>
      { e with grants := e.grants + 1, waitCycle := if e.st = .waiting then s.dev.tick + 40 else e.waitCycle }) s
  else if c = 3 then onSession a (fun e => { e with grants := e.grants + 1, waitCycle := s.dev.tick + 40 }) s
  else s

/-- The bytes of a SESSION_DOWN frame go out on a line. -/
def putDown (key a : Nat) (b : Bytes) : State → State :=
  onPort key (fun p => { p with sessionDown := (a, b) :: p.sessionDown })

/-- The session's message goes out (R276). -/
def sendMessage (key a : Nat) (s : State) : State :=
  match (getStn s a).bind (·.session) with
  | none => s
  | some e =>
    let s1 := if e.resends = 0 then firstSend a e s else s
    match getStn s1 a, (getStn s1 a).bind (·.session) with
    | some y, some f =>
      putDown key a (downFrame s1 a y.sessionId f.msgType (f.resends != 0) f.seq
          (if f.kind = 1 ∧ f.msgType = 1 then 0 else sessionEpoch y) f.body)
        (onSession a (fun e => { e with sent := true, grants := 0 }) s1)
    | _, _ => s1

/-- The SESSION_DOWN frame of a session grant of class c: an ABORT, a NOTE_ACK, or the session's message (R275, R276, R287). -/
def sendDown (key a c : Nat) (s : State) : State :=
  match getStn s a with
  | none => s
  | some x =>
    let s1 := countGrant a c s
    match x.abortSeq, x.noteAck with
    | some (id, n), _ =>
      putDown key a (downFrame s a id 8 false n (sessionEpoch x) []) (onStn a (fun x => { x with abortSeq := none }) s1)
    | none, some n =>
      putDown key a (downFrame s a 0 9 false 0 (sessionEpoch x) (beBytes 2 n)) (onStn a (fun x => { x with noteAck := none }) s1)
    | none, none => if c = 2 then sendMessage key a s1 else s1

/-- The grant of a line or ring in the tick in progress (R243, R257, R275). -/
def grantLine (key : Nat) (s : State) : State :=
  let session := if sessionsRun s && s.dev.st != .holdup then sessionGrant s key else none
  match delayTurn s key session.isSome, session with
  | some a, _ =>
    onStn a (fun x => { x with delayGrant := s.dev.tick }) (onPort key (fun p => { p with grant := some (a, 2) }) s)
  | none, some (a, c) =>
    let due := c == 3 || (getStn s a).any (fun x => x.st.joined && decide (x.delayGrant + 128 ≤ s.dev.tick))
    sendDown key a c
      (onStn a (fun x => { x with delayGrant := if due then s.dev.tick else x.delayGrant })
        (onPort key (fun p => { p with grant := some (a, if due then 3 else 1), rr := p.rr.set (c - 1) a }) s))
  | none, none => onPort key (fun p => { p with grant := none }) s

/-! ### Beginning and ending operations -/

/-- Sessions whose operation is asked to end stand at a cancel point: ABORTED, reason 11 (R276). -/
def cancelSessions (s : State) : State :=
  s.net.stations.foldl (fun t e =>
    match (getStn t e.1).bind (·.session) with
    | some x =>
      if sessionCancelled t x && (atCancelPoint x || x.st == .probing) then closeSession e.1 stAborted 11 0 true t else t
    | none => t) s

/-- The session of an admission before its OPEN: the probe (R281). -/
def probeSession (i tick : Nat) : Session :=
  { kind := 1, st := .probing, handle := some i, seq := 0, msgType := 0, body := [], sent := false, grants := 0,
    resends := 0, rejected := false, restarted := false, chunk := 0, chunks := 0, waitCycle := tick, waited := 0, firstIdent := none,
    cycle := 0, committed := false }

/-- An operation that has no session yet begins one, or ends (R281, R285, R294 to R296). -/
def beginStation (i : Nat) (o : LongOp) (s : State) : State :=
  let a := reqStation o.req
  match getStn s a with
  | none => endStationOp a i stAborted 10 0 s
  | some x =>
    if x.session.isSome || x.returning.isSome then s
    else if stopAsked s o then endStationOp a i stAborted 11 0 s
    else
      match o.opcode with
      | 0x4004 =>
        onStn a (fun x => { x with session := some (probeSession i s.dev.tick) }) s
      | 0x4005 =>
        let obj := sessionObject s o
        let ok := if pByte o.req 18 = 0 then (stnSched s a).any (fun q => configOk q obj)
          else decide (1 ≤ obj.length ∧ obj.length ≤ 65536)
        let s1 := setAux i 1 1 (onOp i (fun o => { o with total := chunkCount obj }) s)
        if !ok || obj.length != pField o.req 20 4 then endStationOp a i stBadParam 0 0 s1
        else openSession a (if pByte o.req 18 = 0 then 2 else 3) (some i) false s1
      | 0x4006 =>
        if nth 0 o.aux 0 = 0 then
          if bitOf (pByte o.req 18) 2 then s
          else if (sessionObject s o).isEmpty then endStationOp a i stBadParam 0 0 s
          else waitHere i (setAux i 0 1 (onOp i (fun o => { o with total := chunkCount (sessionObject s o) }) s))
        else if o.admitted then openSession a 4 (some i) false s
        else s
      | _ =>
        if x.st = .absent ∨ x.st = .mismatch then endStationOp a i stOk 0 0 (setAux i 0 0xFF s)
        else openSession a 5 (some i) false (setAux i 0 0xFF s)

/-- The PENDING session operations in the order of their acceptance. -/
def pendingStationOps (s : State) : List (Nat × LongOp) :=
  (s.host.ops.filter (fun e => !e.2.done && !e.2.suspended && stationOps.contains e.2.opcode)).foldl
    (fun m e => insertAt m e.2.order e) [] |>.map (·.2)

def beginStations (s : State) : State :=
  (pendingStationOps s).foldl (fun t e =>
    match getOp t e.1 with
    | some o => if o.done then t else beginStation e.1 o t
    | none => t) s

/-- The station's line carries sessions: its window holds the longest frame (R275). -/
def carriesSessions (s : State) (a : Nat) : Bool := (stnSched s a).any (fun q => decide (10 ≤ (portRec s q.port).session))

/-- Messages that the station has asked to wait for are one base tick older (R278, R291). -/
def countWaits (s : State) : State :=
  s.net.stations.foldl (fun t e =>
    match (getStn t e.1).bind (·.session) with
    | some x =>
      if x.st = .waiting ∧ !sessionHeld t x then onSession e.1 (fun f => { f with waited := f.waited + 1 }) t else t
    | none => t) s

/-- Verifications that are due open their session (R288). -/
def openVerifications (s : State) : State :=
  s.net.stations.foldl (fun t e =>
    if carriesSessions t e.1 && (getStn t e.1).any (fun x => x.verifyDue && x.session.isNone) then
      openSession e.1 6 none false (onStn e.1 (fun x => { x with verifyDue := false }) t)
    else t) s

/-- STATION_FIRMWARE with store: the library entry has been written, or a NOR write has failed (R295). -/
def finishStore (i : Nat) (o : LongOp) (io : IoResult) (s : State) : State :=
  let a := reqStation o.req
  if nth 0 o.aux 0 != 0 || !bitOf (pByte o.req 18) 2 then s
  else match io with
    | .done =>
      let obj := o.req.payload.take (pField o.req 20 4)
      waitHere i (setAux i 0 1
        (onOp i (fun o => { o with work := chunkCount obj })
          (onNet (fun n => { n with library := insertAt n.library (pByte o.req 19) (objectId obj, obj) }) s)))
    | _ => endStationOp a i stIntegrity 0 0 s

/-! ### Release (R297) -/

/-- A station becomes ABSENT: its operation ends, its halt bit goes, and its record is that of a station never admitted but for
the session id and, where it is kept, the confirmed configuration. -/
def releaseStation (a : Nat) (keepConfig : Bool) (s : State) : State :=
  let s1 := if ((getStn s a).bind (·.session)).isSome then closeUnresolved a stAborted 10 0 true s else s
  let s2 := match stationOp s1 a with
    | some i => endStationOp a i stAborted 10 0 s1
    | none => s1
  let s3 := if s2.net.haltBits.contains a then
      mirror (.haltBit a false) (onNet (fun n => { n with haltBits := n.haltBits.filter (· != a) }) s2)
    else s2
  onStn a (fun x =>
    { freshStation with
      ident := x.ident, bootEpoch := x.bootEpoch, sessionId := x.sessionId, abortSeq := x.abortSeq,
      confirmed := if keepConfig then x.confirmed else 0, inEntries := if keepConfig then x.inEntries else [],
      outEntries := if keepConfig then x.outEntries else [], lossTime := if keepConfig then x.lossTime else 0,
      holdTime := if keepConfig then x.holdTime else 0 }) s3

/-- The schedule that has fallen due takes effect (R265): stations without a record are released, new ones begin ABSENT. -/
def applySchedule (s : State) : State :=
  match s.net.nextSched with
  | some (ks, n) =>
    if s.dev.tick < ks then s
    else
      let gone := (s.net.stations.map (·.1)).filter (fun a => !n.stations.any (fun x => x.station == a))
      let s1 := gone.foldl (fun t a => releaseStation a false t) s
      mirror (.stations n.stations) (mirror (.ports n.ports) (onNet (takeSchedule n) s1))
  | none => s

/-- New channel entries apply from their cycle on (R283). -/
def applyEntries (s : State) : State :=
  s.net.stations.foldl (fun t e =>
    match (getStn t e.1).bind (·.nextEntries) with
    | some (k, ins, outs) =>
      if k ≤ t.dev.tick then
        onStn e.1 (fun x => { x with inEntries := ins, outEntries := outs, nextEntries := none, discard := false }) t
      else t
    | none => t) s

end Sys2Proof.Machine
end

