-- ==== Sys2Proof/Machine/PairOps.lean ====
section
/-! DEFINITION. What the pair's commands and events share (R321 to R346): epochs, eligibility, the delta with its closing and
its application, and the changes of role. -/

namespace Sys2Proof.Machine

/-! ### Epochs and eligibility (R335, R340) -/

/-- The smallest value above n whose bit 0 is the side's. -/
def epochAbove (sideB : Bool) (n : Nat) : Nat := if (n + 1) % 2 = (if sideB then 1 else 0) then n + 1 else n + 2

/-- The epoch that a raise gives, if one exists (R335). -/
def raisedEpoch (s : State) : Option Nat :=
  let e := epochAbove s.pair.sideB (max s.pair.epoch s.pair.seenEpoch)
  if e ≤ 0xFFFFFFFF then some e else none

def raiseEpoch (s : State) : State :=
  match raisedEpoch s with
  | some e => mirror (.roleEpoch e) (onPair (fun p => { p with epoch := e }) s)
  | none => s

/-- A STANDBY is eligible (R340). -/
def eligible (s : State) : Bool :=
  s.dev.role == .standby && s.pair.inStep && s.pair.tbOk && s.dev.st != .holdup && s.dev.st != .fault && (raisedEpoch s).isSome

/-- Bit 6 of PAIR_STATUS byte 2: the module's own eligibility, or on a primary the partner's (R351). -/
def eligibleShown (s : State) : Bool :=
  match s.dev.role with
  | .standby => eligible s
  | .primary => s.pair.linkUp && s.pair.partnerEligible
  | _ => false

/-- The module sends the master frames of a cycle: SOLO or PRIMARY, and around a handover the module that still has mastership
(R343). -/
def sendsFrames (s : State) : Bool :=
  !s.pair.yieldDue && s.pair.deciding.isNone &&
    match s.dev.role, s.pair.handoverAt with
    | .solo, _ => true
    | .primary, none => true
    | .primary, some p => decide (p ≤ s.dev.tick)
    | .standby, some p => decide (s.dev.tick < p)
    | _, _ => false

/-- The module drives its local outputs (R501, R343). -/
def drivesOutputs (s : State) : Bool := sendsFrames s

/-! ### Records (R455) -/

/-- TAKEOVER, HANDOVER and YIELD: epoch, j or h, cause, lost activations. The cause's codes are not the spec's: a free value (log
entry 3). -/
def recordRole (code jh lost : Nat) (s : State) : State :=
  let (c, t) := draw 8 s
  setCause 5 (logHw code (fields [(4, t.pair.epoch), (4, jh % 2 ^ 32), (1, c.toNat), (2, lost)]) t)

/-- LOST_STEP, PARTNER_LOST, SWITCH_ABANDONED and LOST_ACTIVATION: the tick, and a task or 0xFF. -/
def recordPair (code task : Nat) (s : State) : State :=
  let t := logHw code (fields [(4, s.dev.tick % 2 ^ 32), (1, task)]) s
  if code = 0x5004 ∨ code = 0x5005 then setCause 5 t else t

/-! ### The size and closing of a delta (R332, R333) -/

/-- Bytes of a record with encoding 0. -/
def recSize : DeltaRec → Nat
  | .data _ ws => 7 + 5 * ws.length
  | .image _ ws => 7 + 5 * ws.length
  | .legacy _ ws => 5 + 2 * ws.length
  | .task _ _ => 34
  | .forceSet _ => 12
  | .forceClear _ => 4
  | .forceClearAll => 4
  | .mark _ => 2
  | r => 4 + Config.configLength r

/-- Link bytes of a delta: bodies of 4,096 bytes with their headers and CRCs, DELTA_END, and the 64b/66b coding. -/
def deltaBytes (l : List DeltaRec) : Nat :=
  let body := (l.map recSize).sum
  (66 * (body + 20 * ((body + 4095) / 4096) + 32) + 63) / 64

/-- The allowance of a tick in bytes (R333). -/
def allowance (s : State) : Nat :=
  (if s.pair.lane0 && s.pair.lane1 then 600 else 296) * 1024 - s.pair.relayBytes

/-- The item that a record is of, so that only its last value in a tick is sent (R330). -/
def recKey : DeltaRec → List Nat
  | .data a ws => [1, a, ws.length]
  | .image a ws => [2, a, ws.length]
  | .legacy a ws => [3, a, ws.length]
  | .task n _ => [4, n]
  | .schedRec n _ => [5, n]
  | .slotDesc a _ => [6, a]
  | .haltAll _ => [7]
  | .haltBit a _ => [8, a]
  | .pairState k _ => [9, k]
  | .discrepancy a _ => [10, a]
  | .stationState a _ => [11, a]
  | .ports _ => [12]
  | .stations _ => [13]
  | .ptp _ _ _ _ => [14]
  | .pairConfig _ _ _ => [15]
  | .device _ => [16]
  | .generations _ _ _ => [17]
  | .roleEpoch _ => [18]
  | .channels _ => [19]
  | .network _ _ => [20]
  | _ => []

/-- The changes of a tick, newest first, as the delta that carries each item once, oldest first. -/
def deltaOf : List DeltaRec → List (List Nat) → List DeltaRec → List DeltaRec
  | [], _, out => out
  | r :: l, seen, out =>
    let k := recKey r
    if k.isEmpty then deltaOf l seen (r :: out)
    else if seen.contains k then deltaOf l seen out
    else deltaOf l (k :: seen) (r :: out)

/-- A STANDBY is joined, as the primary sees it. -/
def partnerStandby (s : State) : Bool := s.pair.partnerRole == some 2

/-- The delta of the tick that has ended is closed and sent, or the partner loses step (R333). The device state goes with it. -/
def closeDelta (s : State) : State :=
  if s.dev.role != .primary || !(partnerStandby s || s.pair.joinTick != 0) then s
  else
    let l := .device s.dev.st.code :: deltaOf s.pair.changed [] []
    let n := deltaBytes l
    let s1 := onPair (fun p =>
      { p with changed := [], closed := some (s.dev.tick - 1, l), deltaKib := (n + 1023) / 1024,
               deltaMax := max p.deltaMax ((n + 1023) / 1024), relayBytes := 0 }) s
    if n ≤ allowance s then sendSel (.deltaEnd l.length (l.map recSize).sum) (sendSel (.delta l) s1)
    else recordPair 0x5004 0xFF (onPair (fun p => { p with partnerEligible := false, partnerRole := some 3 }) s1)

/-! ### Applying a delta (R328, R330, R332) -/

/-- The counts of DELTA_END agree with the records received. -/
def deltaWhole (d : Nat × List DeltaRec × Option (Nat × Nat)) : Bool :=
  d.2.2 == some (d.2.1.length, (d.2.1.map recSize).sum)

/-- A frame of the delta of tick n comes later than 2 µs before the delta's apply boundary t(n + 2). -/
def deltaLate (s : State) (n : Nat) : Bool :=
  decide (s.dev.tickAt + 1500000 * (n + 2) < s.dev.now + 12000 + 1500000 * s.dev.tick)

/-- The delta of tick n, when it is complete. -/
def wholeDelta (s : State) (n : Nat) : Option (List DeltaRec) :=
  (s.pair.deltas.find? (fun d => d.1 == n && deltaWhole d)).map (·.2.1)

def rawTask (n : Nat) (f : Task → Task) : State → State :=
  onScan (fun x => { x with tasks := modifyNth x.tasks n f })

def TState.ofCode (n : Nat) : TState :=
  match n with
  | 0 => .disabled | 1 => .idle | 2 => .suspended | 3 => .held | 4 => .ready | 5 => .running | 6 => .preempted
  | _ => .halted

/-- Source and argument of a mirrored pending latch: the spec does not say that the delta carries them, so they are free values
where the module has none of its own (log entry 3). -/
def mirroredLatch (on : Bool) (t : Task) (s : State) : Option (Nat × TWord × Nat) × State :=
  if !on then (none, s)
  else match t.latch with
    | some l => (some l, s)
    | none =>
      let (a, s1) := draw 4 s
      let (w, s2) := draw 40 s1
      (some (a.toNat, TWord.ofBits w, s.dev.now), s2)

def applyTask (n : Nat) (m : TaskMirror) (s : State) : State :=
  let (l, s1) := mirroredLatch m.pendingLatch (getTask s n) s
  rawTask n (fun t =>
    { t with st := TState.ofCode m.state, suspendPending := m.suspendPending, latch := l, coalesced := m.coalesced,
             skips := m.skips, controlledSkips := m.controlledSkips, releases := m.releases,
             lastRelease := if m.releases = 0 then none else some m.lastRelease, act := none,
             timer := m.timerLeft.map (s.dev.now + ·) }) s1

/-- A mirrored word of data memory: written, persisted by this module itself, and traced (R331, R234). -/
def applyData (a : Nat) : List TWord → State → State
  | [], s => s
  | w :: r, s => applyData (a + 1) r (markPhys a (writePhys false a w s).2)

def applyImage (a : Nat) : List TWord → State → State
  | [], s => s
  | w :: r, s => applyImage (a + 1) r (setLive a w s)

def applyLegacy (a : Nat) : List (BitVec 16) → State → State
  | [], s => s
  | w :: r, s => applyLegacy (a + 1) r (onMem (fun m =>
      { m with legacy := writeAt 0 m.legacy a w, legacyBad := m.legacyBad.filter (· != a) }) s)

/-- The same switch of generation as the primary's (R235); a commit leads to RUN. -/
def applySwitch (s : State) : State :=
  match s.chg.running, s.chg.staged, s.chg.retained with
  | some run, some b, _ => enterOrReturn .run (setRefs (switchForward b run s))
  | some run, none, some b => setRefs (switchBack b run s)
  | _, _, _ => s

def applyMark (m : DeltaMark) (s : State) : State :=
  match m with
  | .switch => applySwitch s
  | .changeAbort => discardStaged 4 s
  | .changeRelease => releaseRetained s
  | .handover => s

def applySched (f : Schedule → Schedule) : State → State :=
  onNet (fun n => { n with sched := some (f ((n.sched).getD ⟨0, List.replicate 4 portOff, []⟩)) })

/-- A state that a STANDBY takes from the delta (R65). -/
def mirroredState (n : Nat) : Option DevState :=
  match n with
  | 6 => some .stop | 7 => some .run | 8 => some .changing | 10 => some .halted
  | _ => none

def applyRec (r : DeltaRec) (s : State) : State :=
  match r with
  | .data a ws => applyData a ws s
  | .image a ws => applyImage a ws s
  | .legacy a ws => applyLegacy a ws s
  | .task n m => applyTask n m s
  | .forceSet f =>
    onImg (fun i => { i with forces := insertForce f i.forces, forcesMram := insertForce f i.forcesMram }) s
  | .forceClear a =>
    onImg (fun i => { i with forces := i.forces.filter (fun x => x.slot != a)
                             forcesMram := i.forcesMram.filter (fun x => x.slot != a) }) s
  | .forceClearAll => onImg (fun i => { i with forces := [], markerPending := true }) s
  | .schedRec n c => rawTask n (fun t => { t with sched := c }) s
  | .slotDesc a d => onImg (fun i => { i with descs := writeAt freeDesc i.descs a d }) s
  | .allocRun b o =>
    match allocRun (some b) o s.img.free with
    | some (_, l) => onImg (fun i => { i with free := l, runs := insertAt i.runs b o }) s
    | none => s
  | .freeRun b o => giveRun b o s
  | .haltAll on => onNet (fun n => { n with haltAll := on }) s
  | .haltBit a on =>
    onNet (fun n => { n with haltBits := if on then insertNat n.haltBits a else n.haltBits.filter (· != a) }) s
  | .pairState k st => onScan (fun x =>
      { x with pairs := modifyNth x.pairs k (fun _ => nth .split [.split, .joining, .verifying, .joined, .splitting] st) }) s
  | .discrepancy a n => onImg (fun i => { i with disc := writeAt 0 i.disc a n }) s
  | .stationState a m =>
    let x := (getStn s a).getD freshStation
    let y := { x with st := MState.ofCode m.st, ident := m.ident, bootEpoch := m.bootEpoch, confirmed := m.confirmed,
                      inEntries := m.inEntries, outEntries := m.outEntries, lossTime := m.lossTime, holdTime := m.holdTime,
                      sessionId := m.sessionId, kLast := m.kLast, unresolved := m.unresolved }
    onNet (fun n => { n with stations := insertAt n.stations a y }) s
  | .network on k => onNet (fun n => { n with running := on, firstCycle := k }) s
  | .ports l => applySched (fun x => { x with ports := l }) s
  | .stations l => applySched (fun x => { x with stations := l }) s
  | .ptp src port dom thr => onNet (fun n => { n with source := src, tlPort := port, domain := dom, threshold := thr }) s
  | .pairConfig l m auto => onPair (fun p => { p with ports := BitVec.ofNat 4 l, member := m, autoResync := auto }) s
  | .device n =>
    match mirroredState n with
    | some st => if s.dev.role = .standby && s.dev.st != .holdup && s.dev.st != .fault then
        enter st (if st = .run && (s.dev.st == .stop || s.dev.st == .halted) then replan s else s)
      else s
    | none => s
  | .generations g _ _ => onChg (fun c => { c with running := c.running.map (fun p => { p with gen := g }) }) s
  | .roleEpoch e => onPair (fun p => { p with epoch := e, seenEpoch := max p.seenEpoch e, partnerEpoch := e }) s
  | .channels l =>
    onFio (fun f => { f with ch := (List.range 32).map (fun c =>
      let x := nth (Channel.reset c) f.ch c
      match l[c]? with
      | some (m, w, n) => { x with mode := m, wbe := w, filter := n }
      | none => x) }) s
  | .mark m => applyMark m s

def applyRecs (l : List DeltaRec) (s : State) : State := l.foldl (fun t r => applyRec r t) s

/-! ### Changes of role -/

/-- Every driver of the local outputs is off (R337, R343). -/
def deenergise : State → State := onFio (fun f => { f with ch := f.ch.map (fun c => { c with applied := false }) })

/-- The module becomes SYNCING (R59, R337): STOP, or CONFIGURE without a program, releases and activations as STOP_PROGRAM, no master
frame, local outputs off. -/
def becomeSyncing (s : State) : State :=
  match effState s with
  | .configure | .stop | .run | .changing | .halted =>
    let s1 := deenergise (stopProgram s)
    takeRole .syncing (onNet (fun n => { n with cycling := false }) (onPair (fun p =>
      { clearPairWork p with phase2 := false, syncPhase := 0 }) s1))
  | _ => s

/-- A SYNCING module without a received program holds nothing (R59, R339). -/
def discardAllPairState (s : State) : State :=
  onNet (fun n => { Net.reset with ports := n.ports, library := n.library })
    (onImg (fun _ => Image.reset)
      (onChg (fun c => { Change.reset with highest := c.highest, archive := c.archive, archivePrev := c.archivePrev })
        (onMem (fun m => { resetted m with spares := m.spares, spareMap := m.spareMap })
          (onScan (fun x => { Scan.reset with pairs := x.pairs, mismatches := x.mismatches, verifyFails := x.verifyFails }) s))))
where
  resetted (m : Memory) : Memory :=
    { Memory.reset with writeSeq := m.writeSeq, sealRec := m.sealRec, refetches := m.refetches, rebuilds := m.rebuilds,
                        losts := m.losts }

/-- SYNCING ends without a STANDBY: SOLO, in STOP with the program held when phase 2 was complete, in CONFIGURE otherwise
(R59, R339). -/
def syncingEnds (s : State) : State :=
  let s1 := if s.pair.phase2 then enterOrReturn .stop s else enterOrReturn .configure (discardAllPairState s)
  takeRole .solo (onPair (fun p => { clearPairWork p with syncPhase := 0, phase2 := false, awaiting := false }) s1)

/-- A PRIMARY yields, or a SOLO module on a pair port (R337). -/
def yieldNow (s : State) : State :=
  let lost := (s.scan.tasks.filter (fun t => t.st.active)).length
  recordRole 0x5003 s.dev.tick lost (becomeSyncing (sendNotice .yielding 0 s))

/-- The module becomes PRIMARY, with a raised epoch (R338, R341, R343). -/
def becomePrimary (s : State) : State :=
  takeRole .primary (raiseEpoch (onPair clearPairWork s))

/-- The first base tick whose boundary lies at least d units after time t. -/
def boundaryAfter (s : State) (t d : Nat) : Nat := s.dev.tick + (t + d - s.dev.tickAt + 1499999) / 1500000

/-- The standby has detected the loss of the primary: a takeover falls due, or an ineligible standby becomes SYNCING (R340,
R341). -/
def detectLoss (time : Nat) (s : State) : State :=
  if s.dev.role != .standby || s.pair.takeoverDue.isSome then s
  else if eligible s then onPair (fun p => { p with takeoverDue := some (boundaryAfter s time 30000, time) }) s
  else becomeSyncing s

/-- A standby or a syncing module that leaves, or whose partner does (R350). -/
def leaveAsPartner (s : State) : State :=
  match s.dev.role with
  | .standby =>
    takeRole .solo (onPair clearPairWork (enterOrReturn .stop (stopProgram s)))
  | .syncing => syncingEnds s
  | .primary => takeRole .solo (onPair (fun p => { clearPairWork p with master := p.master, syncPhase := 0 }) s)
  | .solo => s

end Sys2Proof.Machine
end

