-- ==== Sys2Proof/Machine/Field.lean ====
section
/-! DEFINITION. Local field I/O (R493 to R510): the field link, samples, filters, supplies, the apply of outputs, their faults,
test pulses, and the commands of class 0xC. -/

namespace Sys2Proof.Machine

def getCh (s : State) (c : Nat) : Channel := nth (Channel.reset c) s.fio.ch c
def onCh (c : Nat) (f : Channel → Channel) : State → State := onFio (fun x => { x with ch := modifyNth x.ch c f })

/-- The supply of a channel is good (R500). -/
def supplyGood (s : State) (c : Nat) : Bool := (supplyOf s c).cond == 0

/-! ### Input slots (R494, R499) -/

/-- The input slot of a channel: a flexible channel in mode 1, or the readback of a guarded one (R506). -/
def inputSlot (s : State) (c : Nat) : Option (Nat × SlotDesc) :=
  s.img.descs.find? (fun e => e.2.ownerKind == 2 && e.2.dir == 1 && e.2.channel == c)

/-- The word of an input slot from the sample that a link frame has carried (R499). -/
def inputWord (s : State) (c : Nat) (d : SlotDesc) : TWord :=
  let x := getCh s c
  if x.linkBreak || !supplyGood s c || !s.fio.linkUp then subWord d Q.bad true
  else ⟨false, false, Q.good, Ty.bool, if x.linkA then 1 else 0⟩

/-- Write the slot of a channel, with its slot-change triggers (R109). -/
def writeInputSlot (c : Nat) (s : State) : State :=
  match inputSlot s c with
  | some (a, d) => withTriggers [a] (setLive a (inputWord s c d)) s
  | none => s

/-- The event tasks that an edge of a channel triggers (R107). -/
def edgeTasks (s : State) (c : Nat) (rising : Bool) : List Nat :=
  (List.range 64).filter (fun n =>
    let x := (getTask s n).sched
    x.kind == 2 && x.trigger == 2 && x.object == c && bitOf x.mode (if rising then 0 else 1))

/-- The filtered states of a channel reach the main die: the slot, and an edge trigger where the state changed and was not
merely set (R497, R109). -/
def carryChannel (c : Nat) (s : State) : State :=
  let x := getCh s c
  let s1 := onCh c (fun y =>
    { y with linkA := y.filtA, linkB := y.filtB, linkBreak := y.broken, setNotEdge := y.first }) s
  if !inputInUse s c then s1
  else
    let s2 := writeInputSlot c s1
    if x.filtA = x.linkA || x.setNotEdge then s2
    else (edgeTasks s2 c x.filtA).foldl
      (fun t n => (fireTrigger n 2 t.dev.now (.mk0 Ty.int (BitVec.ofNat 32 c)) t).2) s2

/-- The channel under test, whose samples do not reach its readback slot (R510). -/
def underTest (s : State) : Option Nat := (s.fio.test.bind (·.2.2)).map (·.1)

/-- A link frame that carries a sample arrives (R494). -/
def execFieldLinkFrame (time : Nat) (s : State) : Out :=
  let s1 := advance time s
  finish s
    (if !dieUp s1 || !s1.fio.linkUp || !s1.fio.sampleWaiting then s1
    else
      settle (onFio (fun f => { f with sampleWaiting := false })
        (((List.range 32).filter (fun c => underTest s1 != some c)).foldl (fun t c => carryChannel c t) s1)))

/-- Every input and readback slot after a change that is no sample. -/
def writeInputSlots (s : State) : State := (List.range 32).foldl (fun t c => if inputInUse t c then writeInputSlot c t else t) s

/-- Four missing frames: the link is lost, the drivers go off, the slots are BAD (R493, R499). -/
def execFieldLinkLost (time : Nat) (s : State) : Out :=
  let s1 := advance time s
  finish s
    (if !dieUp s1 || !s1.fio.linkUp then s1
    else
      let s2 := onFio (fun f =>
        { f with linkUp := false, testHit := true, sampleWaiting := false, ch := f.ch.map (fun c => { c with applied := false }) }) s1
      settle (setCause 7 (logHw 0xC004 [0xFF] (writeInputSlots s2))))

/-- 400 good frames: the link is up and the configuration is sent again (R493, R497). -/
def execFieldLinkUp (s : State) : Out :=
  finish s
    (if !dieUp s || s.fio.linkUp then s
    else onFio (fun f =>
      { f with linkUp := true, ch := f.ch.map (fun c => { c with first := true, setNotEdge := true, diffA := 0, diffB := 0 }) }) s)

/-! ### Samples (R494 to R500, R505) -/

/-- N of R497: the samples a filter takes. -/
def filterN (x : Channel) : Nat := 2 * x.filter

/-- The channel takes part in sampling as an input: mode 1, or a guarded channel's readback. -/
def isInput (c : Nat) (x : Channel) : Bool := x.mode == 1 || decide (24 ≤ c)

/-- Break detection counts samples in a row against the break's state: below 0.35 mA, or at or above it (R498). -/
def countBreak (x : Channel) (current : Nat) : Nat :=
  if x.wbe && x.mode == 1 && (decide (current < 35) != x.broken) then x.breakCount + 1 else 0

/-- The readback is compared from 250 µs after the apply that last changed the state (R505). -/
def compares (c : Nat) (x : Channel) (time : Nat) : Bool := decide (24 ≤ c) && x.mode == 2 && decide (x.changedAt + 1500000 ≤ time)

/-- One sample of a channel. -/
def sampleChannel (c : Nat) (a b : Bool) (current time : Nat) (x : Channel) : Channel :=
  let y := { x with rawA := a, rawB := b, current := current, breakCount := countBreak x current }
  let z := if !isInput c x then y
    else if x.first then { y with filtA := a, filtB := b, first := false, diffA := 0, diffB := 0 }
    else { y with diffA := if a = x.filtA then 0 else x.diffA + 1, diffB := if b = x.filtB then 0 else x.diffB + 1 }
  if !compares c x time then { z with readbackCount := 0 }
  else
    let fails := a != x.applied || b != x.applied
    let n := if fails != x.readbackFault then x.readbackCount + 1 else 0
    if x.readbackFault && n = 4 then { z with readbackFault := false, readbackCount := 0 } else { z with readbackCount := n }

/-- One measurement of a supply: samples in a row in each band (R500). -/
def sampleSupply (mv : Nat) (x : Supply) : Supply :=
  let run := fun (c : Bool) (n : Nat) => if c then n + 1 else 0
  { x with mv := mv, below9 := run (decide (mv < 9000)) x.below9, below19 := run (decide (mv < 19200)) x.below19,
           above9 := run (decide (9500 ≤ mv)) x.above9, above19 := run (decide (19700 ≤ mv)) x.above19 }

/-- The halts and causes of R502 and R503 that hold a channel's driver off. A halt other than HALT_REQ_N's does so from the
apply timestamp of the cycle that carries it. -/
def heldOff (s : State) (c : Nat) : Bool :=
  s.fio.haltOff || s.fio.halted || s.sec.extest || !s.fio.linkUp || !s.fio.configured || !drivesOutputs s ||
    s.dev.stage == 2 || (supplyOf s c).cond == 2 || (getCh s c).outputFault

/-- Counters of a test: passed, failed, not tested, disturbed. -/
def testMark (i k c : Nat) : State → State :=
  onOp i (fun o => { o with work := o.work + 1, aux := modifyNth o.aux k (· + 2 ^ c) })

/-- The test goes on at a sample: channels that are off are passed over, and the first that is on has its driver off (R510).
The cancel points lie between channels. -/
def nextPulse (i time : Nat) : List Nat → State → State
  | [], s =>
    match getOp s i with
    | some o => endOp i stOk (fields (o.aux.map (fun x => (4, x)))) (onFio (fun f => { f with test := none }) s)
    | none => onFio (fun f => { f with test := none }) s
  | c :: r, s =>
    if !(getCh s c).applied || heldOff s c then nextPulse i time r (testMark i 2 c s)
    else onCh c (fun x => { x with applied := false }) (onFio (fun f => { f with test := some (i, r, some (c, time)), testHit := false }) s)

/-- The pulse test at a sample instant. -/
def pulseAtSample (time : Nat) (s : State) : State :=
  match s.fio.test with
  | some (i, l, none) =>
    match getOp s i with
    | none => onFio (fun f => { f with test := none }) s
    | some o =>
      if o.done then onFio (fun f => { f with test := none }) s
      else if o.suspended || decide (time < o.req.time + 600000) then s
      else if stopAsked s o then endOp i stAborted [] (onFio (fun f => { f with test := none }) s)
      else nextPulse i time l s
  | _ => s

/-- A sample of the field die (R494). The samples of a test show the terminal and enter nothing else (R510). -/
def execFieldSample (x : FieldSample) (s : State) : Out :=
  let s1 := advance x.time s
  finish s
    (if !dieUp s1 || !s1.fio.linkUp then s1
    else
      let skip := underTest s1
      pulseAtSample x.time (onFio (fun f =>
        { f with
          ch := (List.range 32).map (fun c =>
            let y := nth (Channel.reset c) f.ch c
            if skip = some c then
              { y with rawA := x.rawA.getLsbD c, rawB := x.rawB.getLsbD c, current := nth 0 x.currents c, readbackCount := 0 }
            else sampleChannel c (x.rawA.getLsbD c) (x.rawB.getLsbD c) (nth 0 x.currents c) x.time y)
          supplyA := sampleSupply x.supplyA f.supplyA
          supplyB := sampleSupply x.supplyB f.supplyB
          sampleAt := x.time, sampleWaiting := true }) s1))

/-- A comparator has differed from its filtered state in N samples (R497). -/
def execFilterChange (ch : Fin 32) (compB : Bool) (s : State) : Out :=
  let x := getCh s ch.val
  finish s
    (if !dieUp s || !isInput ch.val x then s
    else if compB && decide (filterN x ≤ x.diffB) then onCh ch.val (fun y => { y with filtB := y.rawB, diffB := 0 }) s
    else if !compB && decide (filterN x ≤ x.diffA) then onCh ch.val (fun y => { y with filtA := y.rawA, diffA := 0 }) s
    else s)

/-- A break is set or cleared after N samples (R498); each setting writes a record. -/
def execWireBreak (ch : Fin 32) (broken : Bool) (s : State) : Out :=
  let x := getCh s ch.val
  finish s
    (if !dieUp s || !x.wbe || x.mode ≠ 1 || x.broken = broken || decide (x.breakCount < filterN x) then s
    else
      let s1 := onCh ch.val (fun y => { y with broken := broken, breakCount := 0 }) s
      if broken then logHw 0xC002 [b8 ch.val] s1 else s1)

/-- The condition that a supply's counts give (R500): 0 good, 1 low, 2 missing. The low band that a missing supply may recover
to lies below 19.7 V (DEDUCED: the threshold from low; log entry 50). -/
def supplyNext (x : Supply) : Nat :=
  if 4 ≤ x.below9 then 2
  else if x.cond = 0 then (if 4 ≤ x.below19 then 1 else 0)
  else if x.cond = 1 then (if 200 ≤ x.above19 then 0 else 1)
  else if 200 ≤ x.above19 then 0
  else if 200 ≤ x.above9 then (if x.mv < 19700 then 1 else 0)
  else 2

/-- A supply changes its condition, with its record; a missing supply switches its drivers off (R500, R503). -/
def execFieldSupply (group : Fin 2) (cond : Fin 3) (s : State) : Out :=
  let x := if group.val = 0 then s.fio.supplyA else s.fio.supplyB
  finish s
    (if !dieUp s || x.cond = cond.val || supplyNext x ≠ cond.val then s
    else
      let s1 := onFio (fun f =>
        { f with
          testHit := f.testHit || group.val == 1
          supplyA := if group.val = 0 then { f.supplyA with cond := cond.val } else f.supplyA
          supplyB := if group.val = 0 then f.supplyB else { f.supplyB with cond := cond.val } }) s
      let own := (List.range 32).filter (fun c => c / 16 == group.val)
      let s2 := if cond.val = 2 then own.foldl (fun t c => onCh c (fun y => { y with applied := false }) t) s1 else s1
      settle (setCause 7 (logHw 0xC001 [b8 group.val, b8 cond.val] (writeInputSlots s2))))

/-! ### Outputs (R501 to R505) -/

/-- A driver switches itself off (R504). -/
def execOutputShutdown (ch : Fin 32) (s : State) : Out :=
  finish s
    (if !dieUp s || (getCh s ch.val).mode ≠ 2 || (getCh s ch.val).outputFault then s
    else setCause 7 (logHw 0xC003 [b8 ch.val] (onCh ch.val (fun x => { x with outputFault := true, applied := false }) s)))

/-- The readback has disagreed in 4 samples (R505). -/
def execReadbackFail (ch : Fin 32) (s : State) : Out :=
  let x := getCh s ch.val
  finish s
    (if !dieUp s || x.readbackFault || decide (x.readbackCount < 4) then s
    else setCause 7 (logHw 0xC003 [b8 ch.val] (onCh ch.val (fun y => { y with readbackFault := true, readbackCount := 0 }) s)))

/-- The output slot of a channel. -/
def outputSlot (s : State) (c : Nat) : Option Nat :=
  (s.img.descs.find? (fun e => e.2.ownerKind == 2 && e.2.dir == 2 && e.2.channel == c)).map (·.1)

/-- The halt that governs the next apply: halt_all as the CONTROL frame of the cycle carries it (R259, R502). -/
def latchHalt (s : State) : State := onFio (fun f => { f with nextHalt := s.net.haltAll || s.net.haltLatched }) s

/-- The output latch of the local channels (R501): the latched words of the tick, and the halt that governs them. -/
def latchLocal (s : State) : State :=
  let on := fun c => match outputSlot s c with
    | some a => (readAt TWord.empty s.img.latched a).payload.getLsbD 0
    | none => false
  onFio (fun f => { f with nextApply := BitVec.ofNat 32 (((List.range 32).map (fun c => flag (on c) c)).sum) }) (latchHalt s)

/-- One channel at an apply timestamp (R501 to R504). -/
def applyChannel (c : Nat) (s : State) : State :=
  let want := s.fio.nextApply.getLsbD c
  let s1 := if want then s else onCh c (fun x => { x with outputFault := false }) s
  let on := want && (getCh s1 c).mode == 2 && !heldOff s1 c && underTest s != some c
  let s1 := if underTest s == some c && (!want || heldOff s1 c) then onFio (fun f => { f with testHit := true }) s1 else s1
  onCh c (fun x => { x with applied := on, changedAt := if x.applied = on then x.changedAt else s.dev.tickAt }) s1

/-- The apply of what the last latch took, at the boundary of the tick in progress. The hold of HALT_REQ_N lasts as long as
halt_all (R96, R502). -/
def applyLocal (s : State) : State :=
  (List.range 32).foldl (fun t c => applyChannel c t)
    (onFio (fun f => { f with halted := f.nextHalt, command := f.nextApply, haltOff := f.haltOff && s.net.haltAll }) s)

/-! ### Commands (R507 to R510) -/

/-- Channel record c of FIO_CONFIG. -/
def reqChannel (r : Request) (c : Nat) : Bytes := sliceZ r.payload (8 * c) 8

def channelBad (r : Request) (c : Nat) : Bool :=
  let b := reqChannel r c
  let m := byteAt b 0
  decide (2 < m) || (decide (24 ≤ c) && m == 1) || decide (1 < byteAt b 1) || (bitOf (byteAt b 1) 0 && m != 1) ||
    decide (le b 2 2 < 1 ∨ 200 < le b 2 2) || !zeroFrom b 4 8

/-- The record changes the channel. -/
def channelChanges (r : Request) (s : State) (c : Nat) : Bool :=
  let b := reqChannel r c
  let x := getCh s c
  byteAt b 0 != x.mode || bitOf (byteAt b 1) 0 != x.wbe || le b 2 2 != x.filter

/-- An allocated slot owns the channel. -/
def channelOwned (s : State) (c : Nat) : Bool :=
  s.img.descs.any (fun e => e.2.dir != 0 && e.2.ownerKind == 2 && e.2.channel == c)

/-- The new configuration of a channel (R507): one that becomes an input is set from its first sample, one that leaves mode 2 is
off at once. -/
def configureChannel (r : Request) (c : Nat) (s : State) : State :=
  let b := reqChannel r c
  if !channelChanges r s c then s
  else onCh c (fun x =>
    let wbe := bitOf (byteAt b 1) 0
    let made := byteAt b 0 == 1 && x.mode != 1
    { x with mode := byteAt b 0, wbe := wbe, filter := le b 2 2, applied := x.applied && byteAt b 0 == 2,
             outputFault := x.outputFault && byteAt b 0 == 2, broken := x.broken && wbe,
             first := x.first || made, setNotEdge := x.setNotEdge || made }) s

def channelObject (s : State) : DeltaRec := .channels (s.fio.ch.map (fun x => (x.mode, x.wbe, x.filter)))

def cmdFioConfig : Cmd :=
  { op := 0xC001, used := fun _ => 16
    pay := fun r => .must (payExact r 256)
    range := fun r _ => badIf ((List.range 32).any (channelBad r))
    busy := fun r s =>
      busyIf ((List.range 32).any (fun c => byteAt (reqChannel r c) 0 != (getCh s c).mode && channelOwned s c))
    effect := fun r s =>
      let t := (List.range 32).foldl (fun t c => configureChannel r c t) s
      ({ status := stOk, result := leBytes 4 (((List.range 32).map (fun c => flag (channelChanges r s c) c)).sum) },
        mirror (channelObject t) t) }

/-- STAT_FIO_IN (R511). -/
def statFioIn (s : State) : Nat :=
  ((List.range 32).map (fun c =>
    let x := getCh s c
    flag (if x.mode = 1 ∨ 24 ≤ c then x.filtA else x.mode == 2 && x.applied) c)).sum

/-- STAT_FIO (R511): the drivers are held off under R501 to R503 as a whole. -/
def statFio (s : State) : Nat :=
  2 ^ 30 * s.fio.supplyA.cond + 2 ^ 28 * s.fio.supplyB.cond + flag s.fio.linkUp 27 +
    flag (s.fio.haltOff || s.fio.halted || s.sec.extest || !s.fio.linkUp || !s.fio.configured || !drivesOutputs s ||
      s.dev.stage == 2) 26

/-- STAT_FIO_FAULT (R511). -/
def statFioFault (s : State) : Nat :=
  ((List.range 32).map (fun c => let x := getCh s c; flag (x.broken || x.outputFault || x.readbackFault) c)).sum

/-- ab_differ (R499) of a channel that takes part as an input. -/
def abDiffer (c : Nat) (x : Channel) : Bool := isInput c x && x.filtA != x.filtB

/-- Channel record c of FIO_STATUS (R509). -/
def channelRecord (s : State) (c : Nat) : Bytes :=
  let x := getCh s c
  fields [(1, x.mode),
    (1, flag x.rawA 0 + flag x.rawB 1 + flag x.filtA 2 + flag x.filtB 3 + flag x.applied 4),
    (1, flag x.broken 0 + flag x.outputFault 1 + flag x.readbackFault 2 + flag (abDiffer c x) 3), (1, x.filter),
    (2, x.current), (2, (supplyOf s c).mv / 100)]

def cmdFioStatus : Cmd :=
  { op := 0xC002, used := fun _ => 16
    pay := fun r => .may (payExact r 256)
    effect := fun r s =>
      ({ status := stOk,
         result := fields [(4, statFioIn s), (4, statFio s), (4, statFioFault s),
           (4, ((List.range 32).map (fun c => flag (abDiffer c (getCh s c)) c)).sum)] },
        if byPointer r then putPayload r ((List.range 32).flatMap (channelRecord s)) s else s) }

/-- The channels that FIO_TEST_PULSE names, ascending. -/
def pulseChannels (r : Request) : List Nat := (List.range 32).filter (fun c => bitOf (pField r 16 4) c)

def cmdFioTestPulse : Cmd :=
  { op := 0xC003, used := fun _ => 21, long := true
    range := fun r s =>
      badIf ((pulseChannels r).any (fun c => decide (c < 24) || (getCh s c).mode != 2) ||
        decide (pByte r 20 < 2 ∨ 10 < pByte r 20))
    busy := fun _ s => busyIf (opActive s [0xC003])
    effect := fun r s =>
      let i := headIndex s
      let l := pulseChannels r
      let a := accept 0xC003 r l.length [0, 0, 0, 0] s
      (a.1, onFio (fun f => { f with test := some (i, l, none) }) a.2) }

/-- An apply that commanded the channel off, a halt or another cause of R503 stands, other than a shutdown of the driver
itself, which R510 does not name among what disturbs a test. -/
def pulseStopped (s : State) (c : Nat) : Bool :=
  heldOff (onCh c (fun x => { x with outputFault := false }) s) c || !s.fio.command.getLsbD c

/-- The test of one channel has ended (R510): both comparators OFF at the end of the pulse, ON 250 µs later. A disturbed test
leaves the driver to what disturbed it. -/
def execTestPulse (ch : Fin 32) (offRead onRead disturbed : Bool) (s : State) : Out :=
  let c := ch.val
  finish s
    (match s.fio.test with
    | some (i, l, some (x, _)) =>
      if !dieUp s || x ≠ c then s
      else
        let stop := pulseStopped s c
        let fault := (getCh s c).outputFault
        let s1 := onFio (fun f => { f with test := some (i, l, none) }) s
        if disturbed || stop || s.fio.testHit then
          testMark i 3 c (onCh c (fun y => { y with applied := !stop && !fault }) s1)
        else
          let s2 := onCh c (fun y => { y with applied := !fault }) s1
          if offRead && onRead then testMark i 0 c s2
          else testMark i 1 c (setCause 7 (logHw 0xC003 [b8 c]
            (onCh c (fun y => { y with readbackFault := true, readbackCount := 0 }) s2)))
    | _ => s)

def execFioConfig (r : Request) (s : State) : Out := finish s (serve cmdFioConfig r s)
def execFioStatus (r : Request) (s : State) : Out := finish s (serve cmdFioStatus r s)
def execFioTestPulse (r : Request) (s : State) : Out := finish s (serve cmdFioTestPulse r s)

end Sys2Proof.Machine
end

