-- ==== Sys2Proof/Machine/StationCmds.lean ====
section
/-! DEFINITION. The station commands (R293 to R297), the timeouts of sessions (R276, R278, R281, R285, R288), and SCHEDULE_SWITCH
(R265). -/

namespace Sys2Proof.Machine

/-! ### Commands -/

/-- No station record, a line that is not cycling, or a session window below 10 µs. -/
def stationBad (r : Request) (s : State) : Bool :=
  match stnSched s (reqStation r), getStn s (reqStation r) with
  | some q, some _ => !s.net.cycling || decide ((portRec s q.port).session < 10)
  | _, _ => true

/-- A session, a verification or an operation for the station is open. -/
def stationBusy (r : Request) (s : State) : Bool :=
  (stationOp s (reqStation r)).isSome || ((getStn s (reqStation r)).bind (·.session)).isSome

def reqState (r : Request) (s : State) : MState := stnState s (reqStation r)

def cmdStationAdmit : Cmd :=
  { op := 0x4004, used := fun _ => 48, long := true
    shape := fun r => decide (reqStation r < 1024) && decide (pByte r 18 < 4) && pByte r 19 == 0
    pay := fun r => .may (payExact r 64)
    range := fun r s => badIf (stationBad r s)
    busy := fun r s =>
      let st := reqState r s
      busyIf (stationBusy r s ||
        (if bitOf (pByte r 18) 0 then !(st == .lost || st == .verifying || st == .mismatch) else st != .absent))
    lack := fun r s =>
      lackIf (decide (256 ≤ ((stnSched s (reqStation r)).map (fun q => admittedOn s q.port)).getD 0) ||
        decide (1024 ≤ admittedAll s))
    effect := fun r s =>
      accept 0x4004 r 4 [] (if bitOf (pByte r 18) 0 then releaseStation (reqStation r) true s else s) }

def cmdStationConfigure : Cmd :=
  { op := 0x4005, used := fun _ => 24, long := true
    shape := fun r => decide (reqStation r < 1024)
    pay := fun r => .must (payHolds r (pField r 20 4))
    range := fun r s => badIf (stationBad r s || decide (1 < pByte r 18) || (pByte r 18 == 0 && pByte r 19 != 0))
    busy := fun r s =>
      busyIf (stationBusy r s || !(reqState r s == .admitted || reqState r s == .unconfigured))
    effect := fun r s => accept 0x4005 r ((pField r 20 4 + 1023) / 1024) [0, 1] s }

def cmdStationFirmware : Cmd :=
  { op := 0x4006, used := fun _ => 24, long := true
    shape := fun r => decide (reqStation r < 1024) && decide (pByte r 18 < 8)
    pay := fun r => if bitOf (pByte r 18) 1 then .never else .must (payHolds r (pField r 20 4))
    range := fun r s =>
      badIf (stationBad r s || decide (7 < pByte r 19) || (bitOf (pByte r 18) 1 && bitOf (pByte r 18) 2) ||
        (!bitOf (pByte r 18) 1 && (pField r 20 4 == 0 || decide (4194304 < pField r 20 4))))
    busy := fun r s =>
      let st := reqState r s
      busyIf (stationBusy r s || !(st == .admitted || st == .unconfigured || st == .lost))
    effect := fun r s =>
      let n := (pField r 20 4 + 1023) / 1024
      accept 0x4006 r (if bitOf (pByte r 18) 2 then 2 * n else n) [0, 0] s }

def cmdStationDiag : Cmd :=
  { op := 0x4007, used := fun _ => 64, long := true
    shape := fun r => decide (reqStation r < 1024)
    pay := fun _ => .must true
    range := fun r s => badIf (stationBad r s)
    busy := fun r s => busyIf (stationBusy r s)
    effect := fun r s => accept 0x4007 r 1 [0xFF, 0] s }

def cmdStationRelease : Cmd :=
  { op := 0x4008, used := fun _ => 18
    shape := fun r => decide (reqStation r < 1024)
    range := fun r s => badIf (stationBad r s)
    effect := fun r s =>
      ({ status := stOk, result := [b8 (reqState r s).code] },
        if reqState r s = .absent ∧ (stationOp s (reqStation r)).isNone then s else releaseStation (reqStation r) false s) }

def execStationAdmit (r : Request) (s : State) : Out := finish s (serve cmdStationAdmit r s)
def execStationConfigure (r : Request) (s : State) : Out := finish s (serve cmdStationConfigure r s)
def execStationFirmware (r : Request) (s : State) : Out := finish s (serve cmdStationFirmware r s)
def execStationDiag (r : Request) (s : State) : Out := finish s (serve cmdStationDiag r s)
def execStationRelease (r : Request) (s : State) : Out := finish s (serve cmdStationRelease r s)

/-! ### Timeouts -/

/-- The session of a station, while sessions run (R291, R292). -/
def runningSession (s : State) (a : Nat) : Option Session :=
  if sessionsRun s then (getStn s a).bind (·.session) else none

/-- The message of a session has no answer after its last resend (R276, R283). -/
def sessionExhausted (a : Nat) (e : Session) (s : State) : State :=
  let st := if e.rejected then stPartnerError else stTimeout
  let why := if e.rejected then 2 else 1
  if (e.kind = 2 || e.kind = 3) && e.msgType == 4 && !e.restarted then
    onSession a (fun f => { f with rejected := e.rejected, committed := true }) (openSession a 6 e.handle true s)
  else closeUnresolved a (if e.kind = 6 && e.handle.isSome then stTimeout else st)
    (if e.kind = 6 && e.handle.isSome then 1 else why) 0 false s

/-- 4 answer grants have passed without an accepted answer (R276): a resend, or the end after 3 of them. -/
def execSessionAnswerTimeout (station : Nat) (s : State) : Out :=
  finish s
    (match runningSession s station with
    | some e =>
      if e.st = .probing || !e.sent || decide (e.grants < 4) then s
      else if e.resends < 3 then
        onSession station (fun e => { e with sent := false, resends := e.resends + 1, grants := 0 }) s
      else sessionExhausted station e s
    | none => s)

/-- A message has been waiting for 60 s since its first WAIT (R278): 240,000 base ticks. -/
def execSessionWaitTimeout (station : Nat) (s : State) : Out :=
  finish s
    (match runningSession s station with
    | some e => if e.st = .waiting && decide (240000 ≤ e.waited) then closeUnresolved station stTimeout 1 0 false s else s
    | none => s)

/-- No ANNOUNCE after 4 grants of a probe (R281). -/
def execProbeTimeout (station : Nat) (s : State) : Out :=
  finish s
    (match runningSession s station with
    | some e =>
      if e.st = .probing && decide (4 ≤ e.grants) && decide (e.waitCycle < s.dev.tick + 40) then
        closeSession station stTimeout 1 0 false s
      else s
    | none => s)

/-- The verification of a station that did not answer is due again after 4,000 cycles (R288). -/
def execVerificationRepeat (station : Nat) (s : State) : Out :=
  finish s
    (if sessionsRun s && (getStn s station).any (fun x =>
        (x.st == .verifying || x.unresolved.isSome) && x.session.isNone && !x.verifyDue &&
          decide (x.verifyCycle + 4000 ≤ s.dev.tick)) then
      onStn station (fun x => { x with verifyDue := true }) s
    else s)

/-- A station has not returned within 60 s, or 240,000 base ticks, of the answer to ACTIVATE (R285). -/
def execStationReturnTimeout (station : Nat) (s : State) : Out :=
  finish s
    (match (getStn s station).bind (·.returning) with
    | some (i, t) =>
      if t + 240000 ≤ s.dev.tick then endStationOp station i stTimeout 12 0 (onStn station (fun x => { x with returning := none }) s)
      else s
    | none => s)

/-- The new schedule takes effect at k_s (R265). -/
def execScheduleSwitch (s : State) : Out := finish s (if dieUp s then applySchedule s else s)

end Sys2Proof.Machine
end

