-- ==== Sys2Proof/Machine/Input.lean ====
section
/-! DEFINITION. Frames that reach the ports (R253, R239, R337, R288, R290), and the input cut-off (R83, R246, R289, R541). -/

namespace Sys2Proof.Machine

/-! ### The checks of R253 -/

/-- The counter of a drop. -/
inductive Drop where
  | fcs | foreign | late | duplicate | rejected | overflow
  deriving DecidableEq, Repr

/-- What a frame is once it has passed checks 1 to 7. -/
inductive FrameClass where
  | time
  | delayReq (a : Nat)
  | input (a : Nat)
  | session (a : Nat)
  deriving DecidableEq, Repr

def countDrop (p : Nat) (d : Drop) : State → State :=
  onPort p (fun x => match d with
    | .fcs => { x with fcs := satTo 255 (x.fcs + 1) }
    | .foreign => { x with foreign := satTo 255 (x.foreign + 1) }
    | .late => { x with late := satTo 255 (x.late + 1) }
    | .duplicate => { x with duplicate := satTo 0xFFFF (x.duplicate + 1) }
    | .rejected => { x with rejected := x.rejected + 1 }
    | .overflow => { x with overflow := satTo 255 (x.overflow + 1) })

/-- The frame came by the far end of a ring (R237, R239). -/
def atFarEnd (s : State) (p : Nat) (f : NetFrame) : Bool :=
  isRing (portRec s p) && (if pairPort s p then f.farEnd else decide (p % 2 = 1))

/-- The plan of the cycle in progress on the line of a port. -/
def planNow (s : State) (p : Nat) : List Arrival :=
  match s.net.sched with
  | some sch => planAt sch (lineKey s p) s.dev.tick
  | none => []

/-- The upstream session window of the line of a port (R250): its start and end in ns. -/
def sessionWindow (s : State) (p : Nat) : Nat × Nat :=
  let u := upStart (planNow s p)
  (u, u + 1000 * (portRec s (lineKey s p)).session)

/-- The end of the frame lies in the upstream session window. -/
def inSession (s : State) (p : Nat) (f : NetFrame) : Bool :=
  let w := sessionWindow s p
  decide (w.1 ≤ f.endNs ∧ f.endNs < w.2)

/-- The grant of the line of a port. -/
def grantOf (s : State) (p : Nat) : Option (Nat × Nat) := (getPort s (lineKey s p)).grant

/-- Header fields of a Lacework frame. -/
def frameKind (f : NetFrame) : Nat := byteAt f.bytes 0 % 16
def frameStation (f : NetFrame) : Nat := beNat (slice f.bytes 2 2)
def frameSeq (f : NetFrame) : Nat := beNat (slice f.bytes 4 2)
def frameEpoch (f : NetFrame) : Nat := beNat (slice f.bytes 6 4)
def frameLen (f : NetFrame) : Nat := beNat (slice f.bytes 10 2)

/-- A station is due in the cycle in progress and has a cyclic exchange (R253 check 6, R269). -/
def dueNow (s : State) (p a : Nat) : Bool :=
  s.net.cycling && stnState s a != .absent && (planNow s p).any (fun r => r.stn.station == a)

/-- PTP frames that have arrived at a port in the second of PTP time in progress (R253 check 2). -/
def ptpThisSecond (s : State) (p : Nat) : Nat :=
  if (getPort s p).ptpSecond = ptpNs s s.dev.now / 1000000000 then (getPort s p).ptpCount else 0

def countPtp (p : Nat) (s : State) : State :=
  onPort p (fun x => { x with ptpCount := ptpThisSecond s p + 1, ptpSecond := ptpNs s s.dev.now / 1000000000 }) s

/-- Check 7 for an INPUT frame: the end lies in the acceptance window at its end, and before the cut-off of the cycle (R18). -/
def inWindow (s : State) (p : Nat) (f : NetFrame) (a : Nat) : Bool :=
  decide (f.endNs < 249000) &&
  ((planNow s p).find? (fun r => r.stn.station == a)).any (fun r =>
    let e := (if atFarEnd s p f then r.far else r.near) + inNs r.stn
    decide (e ≤ f.endNs + 500 ∧ f.endNs < e + 500))

/-- Checks 1 to 7 (R253). -/
def checkEarly (s : State) (p : Nat) (f : NetFrame) : Sum Drop FrameClass :=
  let r := portRec s p
  if !f.fcsOk || decide (f.len < 64 ∨ 1522 < f.len) then .inl .fcs
  else if isTimeLink r then
    if f.etherType = 0x88F7 ∧ ptpThisSecond s p < 64 then .inr .time else .inl .foreign
  else if f.vid != some r.vid then .inl .foreign
  else if f.etherType = 0x88F7 then
    match grantOf s p with
    | some (a, kind) =>
      if kind = 1 then .inl .foreign else if inSession s p f then .inr (.delayReq a) else .inl .foreign
    | none => .inl .foreign
  else if f.etherType != 0x88B6 || f.dst != r.mac || byteAt f.bytes 0 / 16 != 1 then .inl .foreign
  else
    let a := frameStation f
    if frameKind f = 3 then
      if !dueNow s p a then .inl .foreign else if inWindow s p f a then .inr (.input a) else .inl .late
    else if frameKind f = 5 then
      match grantOf s p with
      | some (g, kind) =>
        if g != a || kind == 2 then .inl .foreign else if inSession s p f then .inr (.session a) else .inl .late
      | none => .inl .foreign
    else .inl .foreign

/-- Kind and station of a class, as check 8 tells frames apart. -/
def FrameClass.key : FrameClass → Nat × Nat
  | .time => (0, 0)
  | .delayReq a => (a, 0)
  | .input a => (a, 3)
  | .session a => (a, 5)

/-- Check 8: the first frame of its station and kind at its end (R253). -/
def seenBefore (s : State) (p : Nat) (f : NetFrame) (c : FrameClass) : Bool :=
  (getPort s (lineKey s p)).seen.contains (c.key.1, c.key.2, atFarEnd s p f)

/-- A valid copy has come by the other end (R239). -/
def otherCopy (s : State) (p : Nat) (f : NetFrame) (c : FrameClass) : Bool :=
  isRing (portRec s p) && (getPort s (lineKey s p)).seen.contains (c.key.1, c.key.2 + 16, !atFarEnd s p f)

def markSeen (p : Nat) (f : NetFrame) (c : FrameClass) (s : State) : State :=
  onPort (lineKey s p) (fun x => { x with seen := (c.key.1, c.key.2, atFarEnd s p f) :: x.seen }) s

/-- The copy passed every check: its kind is noted once more, 16 higher. -/
def markValid (p : Nat) (f : NetFrame) (c : FrameClass) (s : State) : State :=
  onPort (lineKey s p) (fun x => { x with seen := (c.key.1, c.key.2 + 16, atFarEnd s p f) :: x.seen }) s

/-- Check 9: seq and data length (R248, R253). -/
def seqLenOk (s : State) (f : NetFrame) (c : FrameClass) : Bool :=
  match c with
  | .input a => frameSeq f == s.dev.tick % 65536 && (stnSched s a).any (fun q => q.inLen == frameLen f)
  | .session _ => frameSeq f == s.dev.tick % 65536 && frameLen f == 16 + beNat (slice f.bytes 22 2)
  | _ => true

/-- The queue of 16 frames with a frame that ends now: entries older than the longest latency have left it (R18, R19). -/
def queueWith (q : List (Nat × NetFrame)) (a : Nat) (f : NetFrame) : Option (List (Nat × NetFrame)) :=
  let l := q.filter (fun e => decide (f.endNs < e.2.endNs + 67))
  if l.length < 16 then some (l ++ [(a, f)]) else none

/-! ### INPUT frames that pass (R265, R287 to R290) -/

/-- Flag [1] of INPUT has changed: its record (R289). -/
def noteFailFlag (a : Nat) (f : NetFrame) (s : State) : State :=
  let v := bitOf (byteAt f.bytes 1) 1
  match getStn s a with
  | some x =>
    if x.failFlag = v then s
    else
      logHw 0x4013 (leBytes 2 a ++ [b8 (flag v 0)] ++ leBytes 4 s.dev.tick)
        (onStn a (fun x => { x with failFlag := v }) s)
  | none => s

/-- The measured path delay exceeds the configured one by more than 200 ns (R265). -/
def noteDelay (a : Nat) (f : NetFrame) (s : State) : State :=
  let d := beNat (slice f.bytes 14 2)
  match getStn s a, stnSched s a with
  | some x, some q =>
    if !x.delayNoted && decide (q.delay + 200 < d) then
      logFw 0x4003 (leBytes 2 a ++ leBytes 2 d ++ leBytes 2 q.delay) (onStn a (fun x => { x with delayNoted := true }) s)
    else s
  | _, _ => s

/-- The frame counts for the cycle (R83, R287). -/
def countInput (a : Nat) (f : NetFrame) (s : State) : State :=
  onStn a (fun x => { x with counted := some f, request := bitOf (byteAt f.bytes 1) 3 }) s

/-- The rejoin seen: the frame is not counted (R290). -/
def rejoinSeen (a : Nat) (s : State) : State :=
  logHw 0x4014 (leBytes 2 a ++ [b8 (flag (((getStn s a).map (·.failFlag)).getD false) 0)] ++ leBytes 4 s.dev.tick)
    (onStn a (fun x => { x with rejoin := some s.dev.tick, seenNow := true }) s)

/-- The event tasks that wait for an alarm of station a (R107). -/
def alarmTasks (s : State) (a : Nat) : List Nat :=
  (List.range 64).filter (fun n =>
    let x := (getTask s n).sched
    x.kind == 2 && x.trigger == 3 && (bitOf x.mode 0 || x.object == a))

/-- Flag [0] of INPUT: the alarm of an admitted station fires its event tasks, captured at the frame's FCS check (R107, R109, R111). -/
def stationAlarm (a : Nat) (f : NetFrame) (s : State) : State :=
  if bitOf (byteAt f.bytes 1) 0 && (stnState s a).joined then
    settle ((alarmTasks s a).foldl (fun t n => (fireTrigger n 3 s.dev.now (.mk0 Ty.int (BitVec.ofNat 32 a)) t).2) s)
  else s

/-- A newer boot epoch of station a is acted upon where sessions run; elsewhere it is kept until they do (R288, R291, R292). -/
def showsEpoch (a epoch : Nat) (s : State) : State :=
  if sessionsRun s then newerEpoch a epoch s else onStn a (fun x => { x with epochSeen := some epoch }) s

/-- An INPUT frame of station a that has passed every check. -/
def takeInput (p a : Nat) (f : NetFrame) (s : State) : State :=
  match getStn s a with
  | none => s
  | some x =>
    let boot := beNat (slice f.bytes 12 2)
    let s1 := stationAlarm a f (noteDelay a f (noteFailFlag a f s))
    if older16 boot (sessionEpoch x) then countDrop p .rejected s
    else if newer16 boot (sessionEpoch x) then showsEpoch a boot s
    else match x.st with
      | .admitted => if x.kLast.isNone && x.rejoin.isNone then rejoinSeen a s1 else countInput a f s1
      | .lost => if x.rejoin.isNone then rejoinSeen a s1 else countInput a f s1
      | .unconfigured | .verifying => countInput a f s1
      | _ => s

/-- A frame goes to the partner when the partner's last report shows its station as missed (R334). -/
def relayUp (p a : Nat) (f : NetFrame) (s : State) : State :=
  if pairPort s p && s.pair.linkUp && s.pair.partnerMissed.contains a then
    sendSel (.relayUp p f) (onPair (fun x => { x with relayBytes := x.relayBytes + f.len }) s)
  else s

/-- Checks 8 and 9, the queue and what the frame does (R253, R337). -/
def takeFrame (p : Nat) (f : NetFrame) (c : FrameClass) (s : State) : State :=
  let ring := isRing (portRec s p)
  if seenBefore s p f c then countDrop p (if ring then .duplicate else .foreign) s
  else
    let copy := otherCopy s p f c
    let s1 := markSeen p f c s
    if !seqLenOk s f c then countDrop p .rejected s1
    else
      let a := c.key.1
      let own := frameEpoch f == s.pair.epoch
      match c with
      | .time => s1
      | .delayReq a =>
        if copy then countDrop p .duplicate s1
        else onPort (lineKey s p) (fun x => { x with delayDue := x.delayDue ++ [a] }) (markValid p f c s1)
      | _ =>
        if c.key.2 = 3 ∧ !own then
          countDrop p .rejected
            (if s.pair.epoch < frameEpoch f then onNet (fun n => { n with newerSeen := true }) s1 else s1)
        else match queueWith (getPort s p).queue a f with
          | none => countDrop p .overflow s1
          | some q =>
            let s2 := relayUp p a f (onPort p (fun x => { x with queue := q }) (markValid p f c s1))
            if copy then countDrop p .duplicate s2
            else if c.key.2 = 3 then takeInput p a f s2
            else if sessionsRun s2 then sessionUp a f.bytes s2
            else s2

/-- The port's MAC receives frames: it is on, its PHY reports link, and the main die works. -/
def portHears (s : State) (p : Nat) : Bool :=
  dieUp s && (portRec s p).interface != 0 && (getPort s p).linkUp

/-- A frame reaches a port (R253). Its end is an instant of the tick in progress. -/
def receive (p : Nat) (f : NetFrame) (s : State) : State :=
  if !portHears s p then s
  else
    let s := advance (s.dev.tickAt + 6 * f.endNs) s
    match checkEarly s p f with
    | .inl d => countDrop p d s
    | .inr .time => countPtp p s
    | .inr c => takeFrame p f c s

/-- A received frame (R253). -/
def execInputFrame (port : Fin 4) (f : NetFrame) (s : State) : Out := finish s (receive port.val f s)

/-- The type of a SESSION_UP frame (R271). -/
def upType (f : NetFrame) : Nat := if frameKind f = 5 ∧ f.etherType = 0x88B6 then byteAt f.bytes 14 else 0

/-- An ANNOUNCE frame reaches a port (R281). -/
def execAnnounce (port : Fin 4) (f : NetFrame) (s : State) : Out :=
  finish s (if upType f = 0x41 then receive port.val f s else s)

/-- An ANSWER frame reaches a port (R276). -/
def execAnswer (port : Fin 4) (f : NetFrame) (s : State) : Out :=
  finish s (if upType f = 0x42 then receive port.val f s else s)

/-- A NOTIFY frame reaches a port (R287). -/
def execNotify (port : Fin 4) (f : NetFrame) (s : State) : Out :=
  finish s (if upType f = 0x43 then receive port.val f s else s)

/-- A station's Delay_Req reaches a port; the answer goes out in the time window of the next cycle (R257). -/
def execDelayReq (port : Fin 4) (f : NetFrame) (s : State) : Out :=
  finish s (if f.etherType = 0x88F7 ∧ !isTimeLink (portRec s port.val) then receive port.val f s else s)

/-- A PTP message of the grandmaster reaches a time-link port: of the configured domain on the selected port it gives a
measurement (R253, R254). -/
def execPtpMessage (port : Fin 4) (f : NetFrame) (offsetNs : Int) (s : State) : Out :=
  let p := port.val
  let now := advance (s.dev.tickAt + 6 * f.endNs) s
  let good := isTimeLink (portRec s p) && portHears s p && f.fcsOk && decide (64 ≤ f.len ∧ f.len ≤ 1522) &&
    f.etherType == 0x88F7 && decide (ptpThisSecond now p < 64)
  let s1 := receive p f s
  finish s
    (if good && servoRuns s && s.net.source == 2 && s.net.tlPort == p && byteAt f.bytes 4 == s.net.domain then
      measure offsetNs s1 else s1)

/-! ### Values at the cut-off (R83, R246, R289) -/

/-- The entry of an INPUT frame that carries a channel: byte offset in the channel data, first channel, kind. -/
def entryAt : Nat → List (Nat × Bool) → Nat → Option (Nat × Nat × Bool)
  | _, [], _ => none
  | off, (c, word) :: r, ch =>
    if c ≤ ch ∧ ch < c + (if word then 1 else 8) then some (off, c, word)
    else entryAt (off + (if word then 5 else 3)) r ch

/-- The word of a channel for a slot of a type, none when the entry is rejected or there is none (R246). The reserved bits of R246 are
those of the entry's quality byte; payload bits [27:24] of a SAMPLE16 pass unchanged like the flags of R247 (DESIGN CHOICE, log entry
63). -/
def channelWord (ins : List Bool) (d : Bytes) (ty : BitVec 4) (ch : Nat) : Option TWord :=
  match entryAt 0 (layout 0 ins) ch with
  | none => none
  | some (off, _, true) =>
    let p := BitVec.ofNat 32 (beNat (slice d off 4))
    let b := byteAt d (off + 4)
    if b < 4 ∧ wellFormedPayload ty p then some ⟨false, false, BitVec.ofNat 2 b, ty, p⟩ else none
  | some (off, c, false) =>
    if ty = Ty.bool then
      some ⟨false, false, BitVec.ofNat 2 (beNat (slice d (off + 1) 2) / 4 ^ (ch - c)), ty,
        if bitOf (byteAt d off) (ch - c) then 1 else 0⟩
    else none

/-- The input slots of a station. -/
def stationInputs (s : State) (a : Nat) : List (Nat × SlotDesc) :=
  s.img.descs.filter (fun e => e.2.ownerKind == 1 && e.2.dir == 1 && e.2.station == a)

/-- The live word with quality STALE (R83). -/
def staleWord (s : State) (slot : Nat) : TWord := { liveWord s slot with q := Q.stale }

/-- Give every input slot of a station a word. -/
def writeInputs (a : Nat) (f : State → Nat × SlotDesc → TWord) (s : State) : State :=
  let l := stationInputs s a
  withTriggers (l.map (·.1)) (fun t => l.foldl (fun u e => setLive e.1 (f t e) u) t) s

/-- The row of R83 for a value that was counted; an entry that is rejected goes STALE. -/
def inputsCounted (a : Nat) (ins : List Bool) (d : Bytes) : State → State :=
  writeInputs a (fun t e => (channelWord ins d e.2.ty e.2.channel).getD (staleWord t e.1))

/-- The missing row of R83. -/
def inputsStale (a : Nat) : State → State := writeInputs a (fun t e => staleWord t e.1)

/-- The row of R83 for a loss, a release or a port that is down. -/
def inputsLost (a : Nat) : State → State := writeInputs a (fun _ e => subWord e.2 Q.bad true)

/-- The slots of a station that is not admitted: the released row of R83 where it was admitted before; the slots of one that never was
stay EMPTY (R265). -/
def inputsLeft (a : Nat) (was : Bool) : State → State :=
  writeInputs a (fun t e => if !was && (liveWord t e.1).ty == Ty.empty then liveWord t e.1 else subWord e.2 Q.bad true)

/-- The station has been admitted: its identity is recorded. -/
def wasAdmitted (x : Station) : Bool := !(x.ident.all (· == 0))

/-- The loss time of a station is exceeded in cycle k; nothing counted yet counts as exceeded. -/
def lossExceeded (x : Station) (k : Nat) : Bool :=
  match x.kLast with
  | some l => decide (l + x.lossTime ≤ k)
  | none => true

/-- Data of a drop-out record (R455). -/
def stnData (s : State) (a : Nat) : Bytes :=
  leBytes 2 a ++ [b8 (flag (((getStn s a).map (·.failFlag)).getD false) 0)] ++ leBytes 4 s.dev.tick

/-- The slots of a station whose value is missing, with the record of the first cut-off with BAD (R289). -/
def missingSlots (a : Nat) (x : Station) (s : State) : State :=
  if lossExceeded x s.dev.tick then
    let s1 := inputsLost a s
    if !x.badNoted && (x.st == .admitted || x.st == .lost) then
      logHw 0x4012 (stnData s a) (onStn a (fun x => { x with badNoted := true }) s1)
    else s1
  else inputsStale a s

/-- A due station whose INPUT frame was not counted is counted as missing, on a solo ring at port 2j (R253, R267; DESIGN CHOICE, log entry
63). -/
def countMissing (key : Nat) : State → State := onPort key (fun p => { p with missing := satTo 0xFFFF (p.missing + 1) })

/-- A due station whose INPUT was not counted (R253, R289). -/
def cutMissing (key a : Nat) (x : Station) (s : State) : State :=
  let n := if x.seenNow then x.missed else x.missed + 1
  let s2 := onStn a (fun x => { x with missed := n }) (countMissing key s)
  let s3 := if n = 1 && !x.seenNow && (x.st == .admitted || x.st == .lost) then
      logHw 0x4010 (keyed (leBytes 2 a) (leBytes 4 s.dev.tick)) s2 else s2
  let s4 := if 2 ≤ n && x.st == .admitted then
      logHw 0x4011 (stnData s a) (onStn a (fun x => { x with st := .lost, rejoin := none }) s3) else s3
  missingSlots a x s4

/-- A due station whose INPUT was counted (R289, R290). -/
def cutCounted (a : Nat) (x : Station) (f : NetFrame) (s : State) : State :=
  let s1 := onStn a (fun x =>
    { x with kLast := some s.dev.tick, missed := 0, badNoted := false, rejoin := none
             st := if x.st = .lost then .admitted else x.st }) s
  let s2 := if x.rejoin.isSome then logHw 0x4015 (stnData s a) s1 else s1
  if x.st = .unconfigured || x.st = .verifying || x.discard then inputsStale a s2 else inputsCounted a x.inEntries (f.bytes.drop 16) s2

/-- One station at the input cut-off of the cycle in progress. -/
def cutStation (a : Nat) (s : State) : State :=
  match getStn s a, stnSched s a with
  | some x, some q =>
    let down := lineDown s q.port || !s.net.running
    let due := dueIn q s.dev.tick
    if x.st = .absent ∨ x.st = .admitting then
      (if down then inputsLost a else inputsLeft a (wasAdmitted x))
        (if due && x.st != .absent then countMissing q.port s else s)
    else
      let s1 :=
        if !due then s
        else if x.st = .mismatch then missingSlots a x (countMissing q.port s)
        else match x.counted with
          | some f => cutCounted a x f s
          | none => cutMissing q.port a x s
      let s2 := if down then inputsLost a s1 else s1
      onStn a (fun x => { x with counted := none, seenNow := false }) s2
  | _, _ => (if s.net.running then inputsLeft a false else inputsLost a) s

/-- Stations that own input slots, with or without a record, and stations with a record. -/
def cutList (s : State) : List Nat :=
  (s.img.descs.filter (fun e => e.2.ownerKind == 1 && e.2.dir == 1)).foldl (fun m e => insertNat m e.2.station)
    (s.net.stations.map (·.1))

/-- A ring's cycle by the frames of its due stations (R239): some that reached one end only is one cycle more; frames, each at both ends,
heal the ring; no frame at all breaks the row of cycles; a cycle without a due station leaves it (DESIGN CHOICE, log entry 63). Each
pair is whether a station's frame reached the near end and the far end. -/
def judgeRing (key : Nat) (l : List (Bool × Bool)) (s : State) : State :=
  if l.any (fun e => e.1 != e.2) then onPort key (fun p => { p with oneEnd := p.oneEnd + 1 }) s
  else if l.any (·.1) then
    let s1 := onPort key (fun p => { p with oneEnd := 0, broken := false }) s
    if (getPort s key).broken then logHw 0x4002 [b8 key, 0] s1 else s1
  else if l.isEmpty then s
  else onPort key (fun p => { p with oneEnd := 0 }) s

/-- Both ends of a ring in the cycle. Of a pair ring this module sees its own end; the partner's next TICK_STATUS tells of the other
(R327, R334). -/
def cutRing (key : Nat) (s : State) : State :=
  if !isRing (portRec s key) then s
  else
    let l := (planNow s key).filter (fun r => (stnState s r.stn.station).joined)
    let at' := fun (r : Arrival) far => (getPort s key).seen.contains (r.stn.station, 3, far)
    if pairPort s key then onPort key (fun p => { p with ended := l.map (fun r => (r.stn.station, at' r false)) }) s
    else judgeRing key (l.map (fun r => (at' r false, at' r true))) s

/-- The 16-byte record of a station in BAR2 (R541). -/
def stationRecord (s : State) (a : Nat) (x : Station) : Bytes :=
  let broken := ((stnSched s a).map (fun q => (getPort s q.port).broken)).getD false
  [b8 x.st.code, 0] ++ leBytes 2 x.bootEpoch ++ leBytes 4 x.confirmed.toNat ++ leBytes 4 (x.kLast.getD 0) ++
    [b8 (flag (s.net.haltBits.contains a) 0 + flag broken 1), 0, 0, 0]

/-- Cycles in which INPUT frames of a newer epoch came, and the yield they bring (R337). -/
def cutNewer (s : State) : State :=
  let n := if s.net.newerSeen then s.net.newerCycles + 1 else 0
  let s1 := onNet (fun x => { x with newerSeen := false, newerCycles := n }) s
  let masters := s.dev.role == .primary || (s.dev.role == .solo && s.pair.ports != 0)
  if 2 ≤ n && masters then onPair (fun p => { p with yieldDue := true }) s1 else s1

/-- The input cut-off of the cycle in progress, once (R83). -/
def execInputCutoff (time : Nat) (s : State) : Out :=
  finish s
    (if !dieUp s || !s.net.cycling || s.net.lastCut == some s.dev.tick then s
    else
      let s0 := advance (max time (s.dev.tickAt + 6 * 249000)) (onNet (fun n => { n with lastCut := some s.dev.tick }) s)
      let s1 := (lineKeys s0).foldl (fun t k => cutRing k t) s0
      let s2 := (cutList s1).foldl (fun t a => cutStation a t) s1
      let s3 := cutNewer s2
      settle (onNet (fun n => { n with stationView := s3.net.stations.map (fun e => (e.1, stationRecord s3 e.1 e.2)) }) s3))

end Sys2Proof.Machine
end

