-- ==== Sys2Proof/Machine/Cycle.lean ====
section
/-! DEFINITION. What a base-tick boundary does (R16, R18, R108, R113, R119, R206, R227, R242 to R244, R333, R342, R501, R540), and the BASE_TICK
event itself. -/

namespace Sys2Proof.Machine

/-! ### Releases at the boundary (R108, R113, R119) -/

/-- A change or a switchover holds the cyclic release of task n at this boundary (R224, R342). -/
def heldCyclic (s : State) (n : Nat) : Bool :=
  let p := (getTask s n).sched.priority
  (match s.chg.attempt with
    | some a => decide (a.first ≤ s.dev.tick ∧ s.dev.tick < a.first + 4 ∧ a.holdFrom ≤ p)
    | none => false) ||
  (match s.pair.switchover with
    | some (h, first) => decide (first ≤ s.dev.tick ∧ s.dev.tick < first + 3 ∧ h ≤ p)
    | none => false)

/-- The overrun of a task (R119). -/
def overrunTask (n : Nat) (s : State) : State :=
  let s1 := onTask n (fun t => { t with skips := inc32 t.skips }) s
  logHw 0x1002 (keyed ([b8 n, 0, 0, 0] ++ leBytes 4 (runningGen s)) (leBytes 4 (getTask s1 n).skips)) s1

/-- The cyclic release of task n that falls due at the boundary. -/
def dueRelease (n : Nat) (s : State) : State :=
  let t := getTask s n
  if heldCyclic s n then s
  else if t.st.active then overrunTask n s
  else if t.st = .idle then release n 0 s.dev.tickAt s.dev.tickAt TWord.empty s
  else s

/-- A release that falls due in an open window is made at its end, the last of several; the earlier are controlled skips
(R227). -/
def windowDue (n : Nat) (s : State) : State :=
  match s.chg.window with
  | none => s
  | some w =>
    if (getTask s n).st ≠ .idle then s
    else
    let again := (look w.due n).isSome
    onChg (fun c =>
      { c with window := some { w with due := insertAt w.due n s.dev.tick, skips := if again then w.skips + 1 else w.skips } })
      (if again then skipControlled n s else s)

/-- Timers of tasks with rearm start at the first release boundary (R113). -/
def startRearmed (s : State) : State :=
  (List.range 64).foldl (fun t n =>
    let x := getTask t n
    if x.sched.kind = 2 && x.sched.trigger == 4 && bitOf x.sched.mode 0 && x.st != .suspended && x.st != .halted &&
        x.timer.isNone then startTimer n t else t) s

/-- The releases of the boundary of the tick in progress, in order of priority and task number (R114). -/
def releaseBoundary (s : State) : State :=
  match s.dev.releasing with
  | none => s
  | some f =>
    if s.dev.tick < f || s.pair.yieldDue || s.pair.handoverDue || (s.dev.role != .solo && s.dev.role != .primary) then s
    else
      let s1 := if s.dev.tick = f then startRearmed s else s
      if s1.chg.window.isSome then (dueTasks s1).foldl (fun t n => windowDue n t) s1
      else
        let due := dueTasks s1
        (priorityOrder s1).foldl (fun t n =>
          releaseLatched n t.dev.tickAt (if due.contains n then dueRelease n t else t)) s1

/-! ### The output latch (R18, R85, R95) -/

/-- The word that the latch takes of an output slot: a POISON word is replaced by the substitute value (R85). -/
def latchedWord (s : State) (a : Nat) (d : SlotDesc) : TWord :=
  let w := latchWord s a
  if w.ty = Ty.poison then subWord d Q.bad true else w

/-- The output latch at t(k); a force command of the same FABRIC tick does not reach it (R97). -/
def latchOutputs (s : State) : State :=
  let l := (s.img.descs.filter (fun e => e.2.dir == 2)).map (fun e => (e.1, latchedWord (freezeView s) e.1 e.2))
  onImg (fun i => { i with latched := l }) s

/-- The BAR2 views that the boundary updates: every entry that no freeze writes, and the task records (R540). A free slot's
entry is EMPTY again. -/
def updateViews (s : State) : State :=
  let put := fun (l : List (Nat × TWord × Option Nat)) (e : Nat × SlotDesc) =>
    if e.2.dir = 0 || (e.2.dir == 1 && decide (e.2.snapTask < 64)) then l else insertAt l e.1 (effWord s e.1, none)
  let kept := s.img.view.filter (fun e => !isFree s e.1)
  onScan (fun x => { x with taskView := (List.range 64).map (fun n => (n, taskRecord (getTask s n))) })
    (onImg (fun i => { i with view := s.img.descs.foldl put kept }) s)

/-! ### The frames of the cycle (R242 to R244, R257, R334) -/

/-- A new cycle: what belongs to the last one is gone. -/
def clearCycle (s : State) : State :=
  onPair (fun p => { p with copies := [] })
    (onNet (fun n =>
      { n with ports := n.ports.map (fun p =>
          { p with queue := [], seen := [], sessionDown := [], outputs := [], control := none, grant := none,
                   syncSent := false, delayResp := [] }) }) s)

/-- Cycles run in the tick in progress (R266). -/
def cyclesNow (s : State) : Bool :=
  sendsFrames s && s.net.running && decide (s.net.firstCycle ≤ s.dev.tick) && (s.net.sched.isSome || s.net.nextSched.isSome) &&
    s.dev.st.configured &&
    s.dev.stage != 2

/-- The OUTPUT frame of one due station. -/
def sendOutput (key : Nat) (x : SchedStation) (s : State) : State :=
  match getStn s x.station with
  | some y =>
    if getsOutput y s.dev.tick then
      let (f, t) := draw 64 s
      onPort key (fun p => { p with outputs := p.outputs ++ [(x.station, outputFrame s x.station y f)] }) t
    else s
  | none => s

/-- Every downstream frame of a pair ring goes over the link as RELAY_DOWN too (R334). -/
def relayLine (key : Nat) (s : State) : State :=
  if s.dev.role = .primary && pairPort s key then
    let p := getPort s key
    ((match p.control with
      | some b => [b]
      | none => []) ++ p.outputs.map (·.2) ++ p.sessionDown.map (·.2)).foldl
      (fun t b => sendSel (.relayDown key b) (onPair (fun q => { q with relayBytes := q.relayBytes + b.length + 24 }) t)) s
  else s

/-- Every downstream frame of a solo ring goes out of both its ends (R239, R254, R257). -/
def copyEnd (key : Nat) (s : State) : State :=
  if (endsOf s key).length = 2 then
    let p := getPort s key
    onPort (key + 1) (fun q =>
      { q with control := p.control, outputs := p.outputs, sessionDown := p.sessionDown, syncSent := p.syncSent,
               delayResp := p.delayResp }) s
  else s

/-- The frames of one line or ring: CONTROL with the session grant, the OUTPUT frames of the due stations, Sync in every
eighth cycle, and the Delay_Resp frames that are due. -/
def sendLine (key : Nat) (s : State) : State :=
  let s1 := onPort key (fun p =>
    { p with control := some (controlFrame s p.grant), syncSent := s.dev.tick % 8 == 0, delayResp := p.delayDue,
             delayDue := [] }) s
  relayLine key (copyEnd key ((dueOn (schedStations s1) key s1.dev.tick).foldl (fun t x => sendOutput key x t) s1))

/-- The sessions of the cycle (R275 to R288): cancelled ones end, operations and verifications open theirs, and each line gets
its grant. -/
def sessionWork (s : State) : State :=
  let s1 := if sessionsRun s then openVerifications (beginStations (cancelSessions (countWaits (seenEpochs s)))) else s
  (lineKeys s1).foldl (fun t k => grantLine k t) s1

/-- Halts that were only latched belong to the cycle that begins and to no later one (R259). -/
def carried (s : State) : State := onNet (fun n => { n with haltLatched := false, haltBitsLatched := [] }) s

/-- The frames of the cycle. -/
def sendFrames (s : State) : State :=
  carried ((lineKeys s).foldl (fun t k => sendLine k t) s)

/-- The cycle of the tick in progress as this module masters it; it is cycle master while it has pair ports (R324). -/
def masterCycle (s : State) : State :=
  let on := cyclesNow s
  let s1 := onPair (fun p => { p with master := on && p.ports != 0 }) (onNet (fun n => { n with cycling := on }) s)
  if on then sendFrames (sessionWork s1) else carried s1

/-! ### The pair at the boundary (R333, R340, R342, R344) -/

/-- The join is complete: the module is STANDBY, and a PAIR_SYNC with receive = 1 ends with OK (R344, R348). -/
def joined (n : Nat) (s : State) : State :=
  let s1 := onPair (fun p =>
    { p with syncPhase := 0, phase2 := false, joinTick := 0, awaiting := false, syncHandle := none,
             syncs := satTo 255 (p.syncs + 1) }) (sendSel (.bulkAck (.joined n)) s)
  match s.pair.syncHandle with
  | some i => endOp i stOk (fields [(4, s.pair.epoch), (4, n % 2 ^ 32), (1, 4), (1, 0)]) s1
  | none => s1

/-- The takeover that is due falls at this boundary (R341). -/
def takeoverNow (s : State) : Bool :=
  match s.pair.takeoverDue with
  | some (t, _) => decide (t ≤ s.dev.tick)
  | none => false

/-- The delta of the join is not whole at its apply boundary: step is lost, and the synchronisation ends (R333, R348). -/
def joinFails (s : State) : State :=
  sendSel (.bulkAck (.failed stPartnerError)) (endSync stPartnerError (recordPair 0x5004 0xFF s))

/-- The delta whose apply boundary this is, at a STANDBY: applied, or step is lost (R333). A takeover at this boundary applies it itself;
before one nothing more is lost. -/
def applyDue (s : State) : State :=
  let n := s.dev.tick - 2
  let joins := s.dev.role == .syncing && s.pair.joinTick == n && s.pair.phase2
  if !(s.dev.role == .standby || joins) || takeoverNow s || decide (n ≤ s.pair.lastApplied) then s
  else match wholeDelta s n with
    | some d =>
      let s1 := onPair (fun p =>
        { p with lastApplied := n, inStep := true, deltas := p.deltas.filter (fun x => decide (n < x.1)) })
        (applyRecs d (takeRole .standby s))
      if joins then joined n s1 else s1
    | none => if joins then joinFails s else if s.pair.takeoverDue.isSome then s else becomeSyncing (recordPair 0x5004 0xFF s)

/-- The switchover is abandoned when the partner stops being eligible (R342). -/
def abandonSwitchover (s : State) : State :=
  recordPair 0x5006 0xFF (onPair (fun p => { p with switchover := none, heldTasks := [] }) s)

/-- An examined boundary of a switchover (R342). -/
def examineSwitchover (s : State) : State :=
  match s.pair.switchover with
  | none => s
  | some (hold, first) =>
    if s.dev.role != .primary || decide (s.dev.tick < first) then s
    else if !eligibleShown s then abandonSwitchover s
    else if noneActive s && s.chg.window.isNone && s.chg.attempt.isNone then
      onPair (fun p => { p with handoverDue := true }) s
    else if s.dev.tick < first + 3 then
      let skips := (dueTasks s).filter (fun n =>
        decide (hold ≤ (getTask s n).sched.priority) && ((getTask s n).st.active || (getTask s n).st == .idle))
      onPair (fun p => { p with heldTasks := holdTasks s hold }) (skips.foldl (fun t n => skipControlled n t) s)
    else
      let lost := (List.range 64).filter (fun n => (getTask s n).st.active)
      onPair (fun p => { p with handoverDue := true }) (discardAll (lost.foldl (fun t n => recordPair 0x5007 n t) s))

/-- Phase 4 of a synchronisation: the first boundary at which the marked items fit; until then they go in further rounds (R344). A SOLO module becomes PRIMARY and
keeps its epoch (R335). -/
def joinPartner (s : State) : State :=
  if s.pair.syncPhase != 4 || s.pair.joinTick != 0 || s.pair.syncPaused || !s.pair.linkUp then s
  else
    let l := .device s.dev.st.code :: deltaOf s.pair.changed [] []
    if deltaBytes l ≤ allowance s then
      let n := s.dev.tick - 1
      let s1 := takeRole .primary (onPair (fun p => { p with joinTick := n }) s)
      sendSel (.bulk (.join n)) (closeDelta s1)
    else sendSel (.bulk (.records 3 l)) (onPair (fun p => { p with syncPhase := 3, changed := [] }) s)

/-- The switch of an online change falls at this boundary: the delta of the last tick carries its mark (R235). -/
def markSwitch (s : State) : State :=
  if s.chg.window.isNone && (attemptBoundary s).chg.window.isSome then mirror (.mark .switch) s else s

/-- The pair's part of a boundary. While a handover is due, its event closes the delta (R343). -/
def pairBoundary (s : State) : State :=
  let s1 := joinPartner (examineSwitchover (applyDue s))
  if s1.pair.handoverDue then s1
  else
    let s2 := markSwitch s1
    if s2.pair.joinTick = s2.dev.tick - 1 && s2.pair.joinTick != 0 then s2 else closeDelta s2

/-- The stations of the pair rings whose INPUT frames did not reach this module's own end in the last cycle. -/
def missedHere (s : State) : List Nat :=
  (lineKeys s).flatMap (fun k => ((getPort s k).ended.filter (fun e => !e.2)).map (·.1))

/-- Each module of a pair sends TICK_STATUS after its boundary (R326, R327). -/
def sendTickStatus (s : State) : State :=
  if s.pair.member then
    sendSel (.tickStatus (fuseWord s 4).toNat s.fw.linkMajor s.fw.linkMinor s.pair.lastApplied (s.energy.limit / 1024) (missedHere s)) s
  else s

/-! ### BASE_TICK -/

/-- A step that is due is made at the boundary that has come, with its record: the tick that begins has the number of the new time
(R256). -/
def stepTimebase (s : State) : State :=
  if s.net.stepDue && mayStep s then
    let k := stepTick s.dev.tick s.net.stepOffset
    logFw 0x4001 (leBytes 8 (ofSigned 8 s.net.stepOffset) ++ leBytes 8 k)
      (onNet (fun n =>
        { n with stepOffset := 0, offset := 0, stepDue := false, lastCut := none
                 firstCycle := if n.running then min n.firstCycle k else n.firstCycle })
        (onDev (fun d => { d with tick := k }) s))
  else onNet (fun n => { n with stepDue := false }) s

/-- The next base tick has begun. -/
def nextTick (s : State) : State :=
  stepTimebase
    (advance (s.dev.tickAt + 1500000) (onDev (fun d => { d with tick := d.tick + 1, tickAt := d.tickAt + 1500000 }) s))

/-- The work of a boundary in the states from CONFIGURE on. Latches stop in FAULT (R540), and nothing runs in stage 2 (R369). -/
def boundary (s : State) : State :=
  if s.dev.stage = 2 then s
  else
    let s1 := pairBoundary (applyLocal s)
    let s2 := applyEntries (applySchedule (clearCycle s1))
    let s3 := releaseBoundary (attemptBoundary s2)
    let s4 := if s3.dev.st = .fault then latchHalt s3 else latchLocal (latchOutputs s3)
    let s5 := masterCycle s4
    sendTickStatus (settle (captureEnds (leadLoads (if s5.dev.st = .fault then s5 else updateViews s5))))

/-- A base-tick boundary of the timebase. -/
def execBaseTick (s : State) : Out :=
  finish s
    (if !dieUp s then s
    else
      let s1 := nextTick s
      if s1.dev.st.configured then boundary s1 else s1)

end Sys2Proof.Machine
end

