-- ==== Sys2Proof/Machine/HostCore.lean ====
section
/-! DEFINITION. ECHO, GET_INFO, GET_STATE, the handle commands and RESET_DEVICE (R49 to R52, R69, R389). -/

namespace Sys2Proof.Machine

/-- Flags of GET_STATE byte 2 and of SYS_STATE (R69). -/
def stateFlags (s : State) : Nat :=
  flag s.chg.retained.isSome 0 + flag s.dev.haltReqLow 1 + 4 * (s.dev.stage % 4) + flag (!s.img.forces.isEmpty) 4 +
    flag s.dev.retainLost 5

/-- The return state code, 0 outside HOLDUP (R69). -/
def returnCode (s : State) : Nat :=
  if s.dev.st = .holdup then
    match s.dev.ret with
    | some r => r.code
    | none => 0
  else 0

/-- The result of GET_STATE (R69). -/
def stateResult (s : State) : Bytes :=
  [b8 s.dev.st.code, b8 s.dev.role.code, b8 (stateFlags s), b8 (returnCode s)] ++ leBytes 4 (runningGen s) ++
    leBytes 4 s.pair.epoch ++ leBytes 4 s.dev.changeTick

/-- The result of GET_INFO (R52). -/
def infoResult (s : State) : Bytes :=
  leBytes 2 0x6440 ++ [0x42, b8 s.fw.running] ++ leBytes 4 s.fw.version.toNat ++
    leBytes 2 (Config.bootRomVersion).toNat ++ [b8 (lifecycle s), 0] ++ leBytes 4 (fuseWord s 4).toNat

def cmdEcho : Cmd :=
  { op := 0x0001, used := fun _ => 32
    effect := fun r s => ({ status := stOk, result := sliceZ (pSlice r 16 32) 0 16 }, s) }

def cmdGetInfo : Cmd :=
  { op := 0x0002, used := fun _ => 16, effect := fun _ s => ({ status := stOk, result := infoResult s }, s) }

def cmdGetState : Cmd :=
  { op := 0x0003, used := fun _ => 16, effect := fun _ s => ({ status := stOk, result := stateResult s }, s) }

/-- The answer to a query of an operation (R49): ENERGY while it waits for the ledger, which a firmware session does until it is admitted
(R285), or is suspended (R68); PENDING; or its final result. -/
def queryAnswer (v : Nat) (o : LongOp) : Answer :=
  if o.done then
    match o.ending with
    | some (st, res) => { status := st, result := res, handle := v }
    | none => { status := stOk, handle := v }
  else
    { status := if o.waiting || o.suspended || (o.opcode == 0x4006 && !o.admitted) then stEnergy else stPending, handle := v,
      result := leBytes 4 o.work ++ leBytes 4 o.total }

def cmdHandleQuery : Cmd :=
  { op := 0x0006, used := fun _ => 20
    effect := fun r s =>
      let v := pField r 16 4
      match findOp s v with
      | some o => (queryAnswer v o, s)
      | none => ({ status := stStaleHandle, handle := v }, s) }

/-- The index is free again: it joins the end of the free queue, and a final completion still held is discarded (R41, R47). -/
def releaseHandle (i : Nat) : State → State :=
  onHost (fun h =>
    { h with ops := erase h.ops i, freed := h.freed ++ [i], heldFinals := h.heldFinals.filter (fun e => !(e.1 == i)) })

def cmdHandleRelease : Cmd :=
  { op := 0x0007, used := fun _ => 20
    effect := fun r s =>
      let v := pField r 16 4
      match findOp s v with
      | some o =>
        if o.done then ({ status := stOk, handle := v }, releaseHandle (v % 4096) s)
        else ({ status := stBusy, handle := v }, s)
      | none => ({ status := stStaleHandle, handle := v }, s) }

/-- The load was admitted in the FABRIC tick in progress and has not gone on: a cancel still reaches the cancel point at which it
waited (R127, R218). -/
def justAdmitted (s : State) (o : LongOp) : Bool :=
  (o.opcode == 0x1001 || o.opcode == 0x3001) && o.admitted && o.aux.isEmpty && o.admittedAt / 10 == s.dev.now / 10

/-- The outcome of a cancel at this instant (R51). -/
def cancelOutcome (s : State) (o : LongOp) : Nat :=
  if o.done then 1
  else
    match o.cancel with
    | some c => c
    | none => if o.past && !justAdmitted s o then 2 else 0

def cmdHandleCancel : Cmd :=
  { op := 0x0008, used := fun _ => 20
    effect := fun r s =>
      let v := pField r 16 4
      match findOp s v with
      | some o =>
        ({ status := stOk, handle := v, result := [b8 (cancelOutcome s o)] },
          if o.done then s else onOp (v % 4096) (fun o => { o with cancel := some (cancelOutcome s o) }) s)
      | none => ({ status := stStaleHandle, handle := v }, s) }

/-- RESET_DEVICE (R389): the restart mode is set first; the reset of scope 1 to 3 follows 20 µs after the completion, as the
event DEVICE_RESET. -/
def cmdResetDevice : Cmd :=
  { op := 0x0005, used := fun _ => 18
    range := fun r _ => badIf (decide (3 < pByte r 16) || (decide (2 < pByte r 17) && pByte r 17 != 0xFF))
    auth := fun r _ => pByte r 16 == 2
    effect := fun r s =>
      let m := pByte r 17
      ({ status := stOk, result := [b8 s.dev.restartMode] },
        onDev (fun d =>
          { d with
            restartMode := if m = 0xFF then d.restartMode else m
            resetScope := if pByte r 16 = 0 then d.resetScope else some (pByte r 16)
            resetDue := if pByte r 16 = 0 then d.resetDue else d.now + 120000 }) s) }

def execEcho (r : Request) (s : State) : Out := finish s (serve cmdEcho r s)
def execGetInfo (r : Request) (s : State) : Out := finish s (serve cmdGetInfo r s)
def execGetState (r : Request) (s : State) : Out := finish s (serve cmdGetState r s)
def execHandleQuery (r : Request) (s : State) : Out := finish s (serve cmdHandleQuery r s)
def execHandleRelease (r : Request) (s : State) : Out := finish s (serve cmdHandleRelease r s)
def execHandleCancel (r : Request) (s : State) : Out := finish s (serve cmdHandleCancel r s)
def execResetDevice (r : Request) (s : State) : Out := finish s (serve cmdResetDevice r s)

end Sys2Proof.Machine
end

