-- ==== Sys2Proof/Machine/Pair.lean ====
section
/-! DEFINITION. The redundant pair (R321 to R351): the frames of the Selvedge link, the pair lines, arbitration, takeover,
switchover, synchronisation, and the commands of class 0x5. -/

namespace Sys2Proof.Machine

/-! ### Frames (R326 to R328) -/

/-- The base tick whose low 32 bits a frame gives, nearest to the tick in progress. -/
def fullTick (s : State) (low : Nat) : Nat :=
  let back := (s.dev.tick + 2 ^ 32 - low % 2 ^ 32) % 2 ^ 32
  if back < 2 ^ 31 then s.dev.tick - back else s.dev.tick + (2 ^ 32 - back)

/-- The numbers from a to b − 1 modulo 2^32, at most 4,096 of them. -/
def gap (a b : Nat) : List Nat := (List.range (min 4096 ((b + 2 ^ 32 - a) % 2 ^ 32))).map (fun i => (a + i) % 2 ^ 32)

/-- A frame that passes its CRC: its epoch, and its place in the link sequence (R328, R335). -/
def hear (h : SelHeader) (s : State) : State :=
  onPair (fun p =>
    let q := { p with partnerEpoch := h.epoch, seenEpoch := max p.seenEpoch h.epoch }
    if h.resend then { q with missing := q.missing.filter (· != h.lseq) }
    else { q with missing := q.missing ++ gap q.lseqRx h.lseq, lseqRx := (h.lseq + 1) % 2 ^ 32 }) s

/-- A frame takes effect: it passes its CRC, and this module's link works. -/
def heard (h : SelHeader) (s : State) (f : State → State) : Out :=
  finish s (if dieUp s && h.crcOk then f (hear h s) else s)

/-- Lowest lseq missing, as STATUS reports it: the next expected when none is. -/
def lowestMissing (s : State) : Nat := (s.pair.missing.head?).getD s.pair.lseqRx

/-- The frame that the partner misses is sent again from the last two ticks, once (R328). -/
def resend (n : Nat) (s : State) : State :=
  match s.pair.outbox.find? (fun x => x.1 == n) with
  | some (q, t, false, b) => onPair (fun p => { p with outbox := (q, t, true, b) :: p.outbox }) s
  | _ => s

/-! ### Switchover and its command (R342, R349) -/

def switching (s : State) : Bool :=
  s.pair.switchover.isSome || s.pair.handoverDue || s.pair.handoverAt.isSome || s.chg.attempt.isSome || s.chg.window.isSome

/-- PAIR_SWITCHOVER on a primary, or a handover request that reaches it: the outcome, and the switchover begun. -/
def beginSwitchover (hold : Nat) (s : State) : Nat × State :=
  if !eligibleShown s then (1, s)
  else if switching s then (2, s)
  else (0, onPair (fun p => { p with switchover := some (hold, s.dev.tick + 1) }) s)

/-- PAIR_SWITCHOVER by role. -/
def switchoverCommand (hold : Nat) (s : State) : Nat × State :=
  match s.dev.role with
  | .primary => beginSwitchover hold s
  | .standby => if !eligible s then (1, s)
    else if switching s then (2, s)
    else (0, sendNotice .handoverRequest hold s)
  | _ => (1, s)

def cmdPairSwitchover : Cmd :=
  { op := 0x5003, used := fun _ => 17
    range := fun r _ => badIf (decide (16 < pByte r 16))
    effect := fun r s =>
      let (o, t) := switchoverCommand (pByte r 16) s
      ({ status := stOk, result := [b8 o] }, t) }

/-! ### PAIR_CONFIG, PAIR_LEAVE, PAIR_STATUS (R347, R350, R351) -/

def lanesUp (s : State) : Nat := flag s.pair.lane0 0 + flag s.pair.lane1 1

def cmdPairConfig : Cmd :=
  { op := 0x5001, used := fun _ => 24
    shape := fun r => decide (pByte r 16 < 16) && decide (pByte r 17 < 4) && pZero r 18 20
    range := fun r s =>
      let named := (List.range 4).filter (fun p => bitOf (pByte r 16) p)
      badIf (named.any (fun p => (portRec s p).interface != 0 && !(isRing (portRec s p) && pairPort s p)) ||
        (bitOf (pByte r 17) 0 && pByte r 16 == 0) ||
        ((s.dev.st == .run || s.dev.st == .changing || s.dev.st == .halted) && pByte r 16 != s.pair.ports.toNat))
    effect := fun r s =>
      let m := bitOf (pByte r 17) 0
      let a := bitOf (pByte r 17) 1
      ({ status := stOk, result := [b8 (flag s.pair.sideB 0), b8 (lanesUp s), b8 s.pair.line] },
        mirror (.pairConfig (pByte r 16) m a) (onPair (fun p =>
          { p with ports := BitVec.ofNat 4 (pByte r 16), member := m, autoResync := a, partnerSerial := pField r 20 4 }) s)) }

def cmdPairLeave : Cmd :=
  { op := 0x5004, used := fun _ => 16
    effect := fun _ s =>
      ({ status := stOk, result := [b8 s.dev.role.code] }, leaveAsPartner (endSync stTimeout (sendNotice .leave 0 s))) }

/-- Byte 2 of PAIR_STATUS. -/
def pairFlags (s : State) : Nat :=
  s.pair.line + flag s.pair.linkUp 2 + 8 * lanesUp s + flag s.pair.sideB 5 + flag (eligibleShown s) 6 + flag s.pair.peerFault 7

/-- The partner's role as PAIR_STATUS gives it: 0xFF with the link down. -/
def partnerCode (s : State) : Nat := if s.pair.linkUp then (s.pair.partnerRole).getD 0xFF else 0xFF

def cmdPairStatus : Cmd :=
  { op := 0x5005, used := fun _ => 17
    shape := fun r => decide (pByte r 16 < 2)
    effect := fun r s =>
      ({ status := stOk,
         result := fields [(1, s.dev.role.code), (1, partnerCode s), (1, pairFlags s), (1, s.pair.syncPhase),
           (4, s.pair.epoch), (4, s.pair.partnerEpoch), (2, s.pair.deltaKib), (2, s.pair.deltaMax)] },
        if bitOf (pByte r 16) 0 then onPair (fun p => { p with deltaMax := 0 }) s else s) }

/-! ### PAIR_SYNC (R344, R345, R348) -/

def syncReset (r : Request) : Bool := bitOf (pByte r 16) 0
def syncReceive (r : Request) : Bool := bitOf (pByte r 16) 1

/-- The epoch cannot be raised for the partner's side. -/
def epochExhausted (s : State) : Bool := decide (0xFFFFFFFF < epochAbove (!s.pair.sideB) (max s.pair.epoch s.pair.seenEpoch))

/-- Stations stand on ports outside the pair ports. -/
def strayStations (s : State) : Bool := (schedStations s).any (fun x => !pairPort s x.port)

/-- Combinations that R348 allows. -/
def syncBad (r : Request) (s : State) : Bool :=
  !s.pair.member || strayStations s ||
    (if syncReceive r then syncReset r || s.dev.role != .solo || !(s.dev.st == .configure || s.dev.st == .stop)
      else s.chg.running.isNone)

/-- The offer of phase 1. The serial number's low half travels with it. -/
def sendOffer (s : State) : State :=
  sendSel (.bulk (.offer s.pair.sideB (fuseWord s 4).toNat s.fw.linkMajor)) s

/-- A synchronisation begins (R344, R345). -/
def beginSync (h : Option Nat) (s : State) : State :=
  sendOffer (onPair (fun p => { p with syncPhase := 1, partnerGen := none, syncHandle := h, syncPaused := !p.linkUp, joinTick := 0, refusal := 0 }) s)

/-- epoch_reset: the held epoch is 0, and what the partner has shown before counts no more (R348). -/
def resetEpoch (s : State) : State := mirror (.roleEpoch 0) (onPair (fun p => { p with epoch := 0, seenEpoch := 0 }) s)

def cmdPairSync : Cmd :=
  { op := 0x5002, used := fun _ => 17, long := true
    shape := fun r => decide (pByte r 16 < 4)
    range := fun r s =>
      if syncBad r s then bad
      else if !syncReceive r && epochExhausted s && !syncReset r then some { status := stAuthRequired }
      else none
    auth := fun r _ => syncReset r
    busy := fun r s => busyIf (opActive s [0x5002] || (syncReset r && s.net.cycling))
    effect := fun r s =>
      let i := headIndex s
      let (w, s0) := draw 32 s
      let a := accept 0x5002 r w.toNat [] s0
      (a.1,
        if syncReceive r then onPair (fun p => { p with awaiting := true, syncHandle := some i }) a.2
        else beginSync (some i) (if syncReset r then resetEpoch a.2 else a.2)) }

def execPairConfig (r : Request) (s : State) : Out := finish s (serve cmdPairConfig r s)
def execPairSync (r : Request) (s : State) : Out := finish s (serve cmdPairSync r s)
def execPairSwitchover (r : Request) (s : State) : Out := finish s (serve cmdPairSwitchover r s)
def execPairLeave (r : Request) (s : State) : Out := finish s (serve cmdPairLeave r s)
def execPairStatus (r : Request) (s : State) : Out := finish s (serve cmdPairStatus r s)

/-! ### Objects of phases 2 and 3 (R330, R344) -/

/-- Every configuration object and the force table. -/
def configRecords (s : State) : List DeltaRec :=
  s.img.runs.map (fun e => .allocRun e.1 e.2) ++ s.img.descs.map (fun e => .slotDesc e.1 e.2) ++
    (List.range 64).map (fun n => .schedRec n (getTask s n).sched) ++
    [.ports (schedPorts s), .stations (schedStations s), .network s.net.running s.net.firstCycle,
      .ptp s.net.source s.net.tlPort s.net.domain s.net.threshold, .haltAll s.net.haltAll,
      .pairConfig s.pair.ports.toNat s.pair.member s.pair.autoResync, channelObject s, .roleEpoch s.pair.epoch] ++
    s.net.haltBits.map (fun a => .haltBit a true) ++
    s.net.stations.map (fun e => .stationState e.1 (stationMirror e.2)) ++
    (List.range 8).map (fun k => .pairState k (pairCode (getPair s k))) ++
    s.img.disc.map (fun e => .discrepancy e.1 e.2) ++ s.img.forces.map .forceSet

/-- The mirrored data: data memory, output and internal live words, the legacy area, the scheduler. -/
def dataRecords (s : State) : List DeltaRec :=
  s.mem.data.map (fun e => .data e.1 [e.2]) ++
    (s.img.live.filter (fun e => (descOf s e.1).dir != 1)).map (fun e => .image e.1 [e.2]) ++
    s.mem.legacy.map (fun e => .legacy e.1 [e.2]) ++
    (List.range 64).map (fun n => .task n (taskMirror s (getTask s n)))

/-- KiB of a list of records. -/
def recordsKib (l : List DeltaRec) : Nat := ((l.map recSize).sum + 1023) / 1024

/-- The images of phase 2, then the staged or retained generation with its carry map, then the records. -/
def sendPhase2 (s : State) : State :=
  let image := fun (cur : Bool) (e : Option (Nat × Nat × Bytes)) (t : State) => match e with
    | some (g, k, b) => sendSel (.bulk (.image cur k g b)) t
    | none => t
  let s1 := image true s.chg.archive (image false s.chg.archivePrev s)
  let s2 := sendSel (.bulk (.records 2 (configRecords s))) s1
  let s3 := match s.chg.retained with
    | some b => sendSel (.bulk (.carryMap b.map.raw)) s2
    | none => s2
  match s.chg.staged with
  | some b => sendSel (.bulk (.changeStage b.prog.keySlot b.prog.gen b.prog.image b.map.raw)) s3
  | none => s3

/-- Progress of PAIR_SYNC in KiB. -/
def syncProgress (kib : Nat) (s : State) : State :=
  match s.pair.syncHandle with
  | some i => onOp i (fun o => { o with work := o.work + kib }) s
  | none => s

/-- A cancel point between the phases (R348). -/
def syncCancelled (s : State) : Bool :=
  match s.pair.syncHandle.bind (getOp s) with
  | some o => stopAsked s o
  | none => false

/-- The partner has acknowledged a phase: the next begins (R344). -/
def phaseDone (phase kib : Nat) (s : State) : State :=
  if s.pair.syncPhase != phase || s.pair.syncPaused then s
  else if syncCancelled s then endSync stAborted s
  else
    let s1 := syncProgress kib s
    match phase with
    | 1 => sendPhase2 (onPair (fun p => { p with syncPhase := 2, changed := [] }) s1)
    | 2 => sendSel (.bulk (.records 3 (dataRecords s1))) (onPair (fun p => { p with syncPhase := 3, changed := [] }) s1)
    | 3 => onPair (fun p => { p with syncPhase := 4 }) s1
    | _ => s1

/-- The partner has joined: the operation ends with OK (R348). -/
def partnerJoined (n : Nat) (s : State) : State :=
  if s.pair.syncPhase != 4 || s.pair.joinTick != n then s
  else
    let s1 := onPair (fun p =>
      { p with syncPhase := 0, syncHandle := none, joinTick := 0, partnerRole := some 2, syncs := satTo 255 (p.syncs + 1) }) s
    match s.pair.syncHandle with
    | some i => endOp i stOk (fields [(4, s.pair.epoch), (4, n % 2 ^ 32), (1, 4), (1, 0)]) s1
    | none => s1

/-- The standby's answer to CHANGE_STAGE (R234). -/
def stageAnswered (ok : Bool) (s : State) : State :=
  match opIndex s 0x3001, s.chg.staged with
  | some i, some b =>
    if ok then stageDone i b (onPair (fun p => { p with partnerGen := some b.prog.gen }) s) else stageFails i s
  | none, some b => if ok then onPair (fun p => { p with partnerGen := some b.prog.gen }) s else s
  | _, none => s

/-- The partner whose answer to CHANGE_STAGE is awaited is no standby in reach any more: it has failed (R234). -/
def stageLost (s : State) : State :=
  match opIndex s 0x3001 with
  | some i => if s.dev.role == .primary && s.chg.staged.isSome && !hasStandby s then stageFails i s else s
  | none => s

/-- BULK_ACK. -/
def execBulkAck (h : SelHeader) (b : BulkAckBody) (s : State) : Out :=
  heard h s (fun s =>
    match b with
    | .ok phase kib => phaseDone phase kib s
    | .refused n => if s.pair.syncPhase = 1 then endSync stPartnerError (onPair (fun p => { p with refusal := n }) s) else s
    | .failed st => if s.pair.syncPhase = 0 then s else endSync st s
    | .joined n => partnerJoined n s
    | .staged ok => stageAnswered ok s)

/-! ### BULK, at the partner (R344, R345, R348) -/

/-- What the partner refuses an offer for: 1 same side, 2 serial, 3 link version, 4 not ready. -/
def offerRefusal (side : Bool) (serial major : Nat) (s : State) : Nat :=
  if side = s.pair.sideB then 1
  else if s.pair.partnerSerial != 0 && s.pair.partnerSerial != serial then 2
  else if major != s.fw.linkMajor then 3
  else if (s.dev.role == .syncing || (s.dev.role == .solo && s.pair.awaiting)) && (s.dev.st == .stop || s.dev.st == .configure) then 0
  else 4

/-- Phase 1 at the partner: it discards what it holds and becomes SYNCING. A module that refuses an offer it was ready for is SOLO in
CONFIGURE (R345). -/
def takeOffer (side : Bool) (serial major : Nat) (s : State) : State :=
  match offerRefusal side serial major s with
  | 0 =>
    let s1 := takeRole .syncing (enter .configure (discardAllPairState s))
    sendSel (.bulkAck (.ok 1 0)) (onPair (fun p =>
      { clearPairWork p with syncPhase := 1, phase2 := false, joinTick := 0, epoch := 0, seenEpoch := p.partnerEpoch }) s1)
  | n =>
    sendSel (.bulkAck (.refused n))
      (if n = 4 then s else syncingEnds (endSync stPartnerError (onPair (fun p => { p with refusal := n, phase2 := false }) s)))

/-- The partner ends the synchronisation: SOLO in CONFIGURE (R345). -/
def failSync (status : Nat) (s : State) : State :=
  sendSel (.bulkAck (.failed status)) (syncingEnds (endSync status (onPair (fun p => { p with phase2 := false }) s)))

/-- An archive entry received in phase 2. -/
def takeImage (cur : Bool) (slot gen : Nat) (b : Bytes) (s : State) : State :=
  if !headerOk b || !signedOk s slot (le b 56 4) b then failSync stIntegrity s
  else syncProgress (kib b.length) (onChg (fun c =>
    if cur then { c with archive := some (gen, slot, b), highest := max c.highest gen }
    else { c with archivePrev := some (gen, slot, b) }) s)

/-- KiB of phase 2: the archive images and the records. -/
def phase2Kib (l : List DeltaRec) (s : State) : Nat :=
  let image := fun (a : Option (Nat × Nat × Bytes)) => (a.map (fun x => kib x.2.2.length)).getD 0
  image s.chg.archive + image s.chg.archivePrev + recordsKib l

/-- The objects of phase 2 are there: the program is installed with its code and resident set. -/
def takeConfig (l : List DeltaRec) (s : State) : State :=
  let s1 := applyRecs l s
  match archiveProgram s1 s1.chg.archive with
  | none => failSync stNoResource s1
  | some p =>
    let s2 := setRefs (firstImage (onChg (fun c => { c with running := some p }) s1))
    let s3 := addGroups (retentiveKeys p) (loadResident p (residentPages (planOf s2)) s2)
    sendSel (.bulkAck (.ok 2 (phase2Kib l s3)))
      (syncProgress (recordsKib l) (onPair (fun x => { x with syncPhase := 2, phase2 := true }) s3))

/-- The carry map of the retained generation, which the previous archive entry holds. -/
def takeCarryMap (b : Bytes) (s : State) : State :=
  match archiveProgram s s.chg.archivePrev, s.chg.running with
  | some q, some p =>
    match parseMap s (q.dataWords, q.retentiveWords) (p.dataWords, p.retentiveWords) b with
    | some m => onChg (fun c => { c with retained := some { prog := q, map := m, saved := [] }, reverse := true, tracing := true }) s
    | none => failSync stNoResource s
  | _, _ => failSync stNoResource s

/-- The request that stands for a staging that reaches the standby over the link (R234). -/
def stageRequest (slot : Nat) (image map : Bytes) (time : Nat) : Request :=
  { origin := .tap, time := time, flags := 0, count := 1, cookie := 0, addr := 0, len := 0,
    params := leBytes 4 image.length ++ leBytes 4 map.length ++ [b8 slot], payload := [], object := image ++ map, auth := [] }

/-- The standby stages the same generation, or refuses. -/
def takeStage (slot gen : Nat) (image map : Bytes) (s : State) : State :=
  match checkStage s (stageRequest slot image map s.dev.now) with
  | .inl b => sendSel (.bulkAck (.staged true)) (installStaged { b with prog := { b.prog with gen := gen } } s)
  | .inr _ => sendSel (.bulkAck (.staged false)) s

/-- BULK. -/
def execBulk (h : SelHeader) (b : BulkBody) (s : State) : Out :=
  heard h s (fun s =>
    match b with
    | .offer side serial major => takeOffer side serial major s
    | .changeStage slot gen image map =>
      if s.dev.role = .standby ∨ s.dev.role = .syncing then takeStage slot gen image map s else s
    | .image cur slot gen bytes => if s.dev.role = .syncing then takeImage cur slot gen bytes s else s
    | .carryMap bytes => if s.dev.role = .syncing then takeCarryMap bytes s else s
    | .records phase l =>
      if s.dev.role ≠ .syncing then s
      else if phase = 2 then takeConfig l s
      else sendSel (.bulkAck (.ok 3 (recordsKib l)))
        (syncProgress (recordsKib l) (onPair (fun p => { p with syncPhase := 3 }) (applyRecs l s)))
    | .join n =>
      if s.dev.role = .syncing && s.pair.phase2 then
        onPair (fun p => { p with syncPhase := 4, joinTick := n, lastApplied := n - 1 }) s
      else s)

/-! ### The rows of R339 -/

/-- What the partner's role, as STATUS reports it, and the line mean to a module in service (R339, R341). -/
def judgePair (time : Nat) (s : State) : State :=
  if s.pair.handoverAt.isSome || s.pair.handoverDue then s
  else match s.dev.role with
    | .primary =>
      if s.pair.linkUp && (s.pair.partnerRole == some 1 || s.pair.line == 2) && decide (s.pair.epoch < s.pair.partnerEpoch) then
        yieldNow s
      else s
    | .standby =>
      if s.pair.linkUp then
        match s.pair.partnerRole with
        | some 1 =>
          if s.pair.takeoverDue.isSome || (s.pair.line != 2 && !s.pair.lineFault) then
            logHw 0x5008 [b8 s.pair.line] (onPair (fun p => { p with takeoverDue := none, lineFault := true }) s)
          else if s.pair.line = 2 then onPair (fun p => { p with lineFault := false }) s
          else s
        | _ => detectLoss time s
      else if s.pair.line = 2 then becomeSyncing s
      else detectLoss time s
    | _ => s

/-- The notice flags of STATUS: bit 2 on, in the order of R327. -/
def noticed (flags : Nat) : Bool := bitOf flags 2 || bitOf flags 3 || bitOf flags 6

/-- A primary whose partner reports SYNCING with the link up starts synchronisation by itself when auto_resync is set (R345). -/
def autoSync (s : State) : State :=
  if s.dev.role == .primary && s.pair.autoResync && s.pair.partnerRole == some 3 && s.pair.linkUp && s.pair.syncPhase == 0 then
    beginSync none s
  else s

/-- The link returns: the phase in progress starts again (R345). -/
def linkReturns (s : State) : State :=
  if !s.pair.syncPaused then s
  else
    let s1 := onPair (fun p => { p with syncPaused := false }) s
    match s1.pair.syncPhase with
    | 1 => sendOffer s1
    | 2 => sendPhase2 s1
    | 3 => sendSel (.bulk (.records 3 (dataRecords s1))) s1
    | _ => s1

/-- STATUS (R326, R327): a frame of another link_major does nothing for the link. A leave notice flag means what the notice means
(R350). -/
def execStatus (h : SelHeader) (role state flags linkMajor lowestMissing : Nat) (s : State) : Out :=
  heard h s (fun s =>
    if linkMajor ≠ s.fw.linkMajor then onPair (fun p => { p with partnerMajor := linkMajor }) s
    else
      let was := s.pair.partnerRole
      let s1 := onPair (fun p =>
        { p with linkUp := true, partnerRole := some role, partnerState := state, partnerSideB := bitOf flags 0,
                 partnerEligible := bitOf flags 1 && role == 2, partnerMajor := linkMajor, resendFrom := lowestMissing }) s
      let s2 := linkReturns (resend lowestMissing s1)
      let s3 := stageLost (if s2.dev.role == .primary && was == some 2 && role == 3 then recordPair 0x5004 0xFF s2 else s2)
      autoSync (if s3.dev.role = .standby && bitOf flags 4 then leaveAsPartner (endSync stTimeout s3)
        else if s3.dev.role = .standby && noticed flags then detectLoss s3.dev.now s3
        else judgePair s3.dev.now s3))

/-- The partner's end of a pair ring: the stations that it missed in the last cycle, against those that reached this module's end (R239,
R327). The partner's bitmap is taken for the cycle that this module cut off last (log entry 62). -/
def judgeEnds (missed : List Nat) (s : State) : State :=
  (lineKeys s).foldl (fun t k =>
    if isRing (portRec t k) && pairPort t k then
      onPort k (fun p => { p with ended := [] }) (judgeRing k ((getPort t k).ended.map (fun e => (e.2, !missed.contains e.1))) t)
    else t) s

/-- TICK_STATUS (R327, R329, R334, R365). -/
def execTickStatus (h : SelHeader) (serial linkMajor _linkMinor lastApplied limitKib : Nat) (offsetNs : Int) (missed : List Nat)
    (s : State) : Out :=
  heard h s (fun s =>
    judgeEnds missed (onPair (fun p =>
      { p with partnerId := serial, partnerMajor := linkMajor, partnerApplied := fullTick s lastApplied,
               partnerLimit := some (1024 * limitKib), tbOk := decide (offsetNs.natAbs ≤ 100), partnerMissed := missed }) s))

/-! ### Deltas (R328, R332, R333, R343) -/

/-- A DELTA frame adds its records to the delta of its tick. -/
def execDelta (h : SelHeader) (r : List DeltaRec) (s : State) : Out :=
  heard h s (fun s =>
    if s.dev.role ≠ .standby && s.dev.role ≠ .syncing then s
    else
      let n := fullTick s h.tick
      let old := ((s.pair.deltas.find? (fun d => d.1 == n)).map (·.2)).getD ([], none)
      if deltaLate s n then s
      else onPair (fun p => { p with deltas := (p.deltas.filter (fun d => d.1 != n)) ++ [(n, old.1 ++ r, old.2)] }) s)

/-- DELTA_END gives the counts of a delta; it may come before a frame that is sent again. -/
def execDeltaEnd (h : SelHeader) (records bytes : Nat) (s : State) : Out :=
  heard h s (fun s =>
    let n := fullTick s h.tick
    let old := ((s.pair.deltas.find? (fun d => d.1 == n)).map (·.2.1)).getD []
    if (s.dev.role ≠ .standby && s.dev.role ≠ .syncing) || deltaLate s n then s
    else onPair (fun p => { p with deltas := (p.deltas.filter (fun d => d.1 != n)) ++ [(n, old, some (records, bytes))] }) s)

/-! ### The pair ring (R334) -/

/-- The PTP correctionField of a relayed event message: 2 µs and the residence time are added; the residence time is not the
spec's: a free value (log entry 3). -/
def corrected (f : NetFrame) (s : State) : Bytes × State :=
  if f.etherType != 0x88F7 then (f.bytes, s)
  else
    let (v, t) := draw 16 s
    (f.bytes.take 8 ++ beBytes 8 ((beNat (slice f.bytes 8 8) + 65536 * (2000 + v.toNat)) % 2 ^ 64) ++ f.bytes.drop 16, t)

/-- The session grant that a relayed CONTROL frame carries. -/
def relayedGrant (b : Bytes) : Option (Nat × Nat) :=
  let a := beNat (slice b 24 2)
  if a < 0x8000 then some (a, byteAt b 26) else none

/-- RELAY_DOWN: the standby sends the copy from its end; a CONTROL frame tells it that the cycle runs. -/
def execRelayDown (h : SelHeader) (port : Fin 4) (f : NetFrame) (s : State) : Out :=
  heard h s (fun s =>
    let p := port.val
    if s.dev.role ≠ .standby || !pairPort s p then s
    else
      let (b, s1) := corrected f s
      let s2 := onPair (fun x => { x with copies := x.copies ++ [(p, b)] }) s1
      if f.etherType = 0x88B6 && byteAt b 0 % 16 == 1 then
        onNet (fun n => { n with cycling := true }) (onPort (lineKey s p) (fun x => { x with grant := relayedGrant b }) s2)
      else s2)

/-- RELAY_UP: the frame reaches this module's input queue (R334). -/
def execRelayUp (h : SelHeader) (port : Fin 4) (f : NetFrame) (s : State) : Out :=
  heard h s (fun s => if pairPort s port.val then receive port.val f s else s)

/-! ### Notices, the link and the lines (R323, R325 to R327, R345) -/

/-- NOTICE. -/
def execNotice (h : SelHeader) (k : NoticeKind) (holdFrom time : Nat) (s : State) : Out :=
  heard h s (fun s =>
    let s := advance time s
    match k with
    | .leave => leaveAsPartner (endSync stTimeout s)
    | .handoverRequest => if s.dev.role = .primary then (beginSwitchover holdFrom s).2 else s
    | _ =>
      if s.dev.role = .standby then detectLoss time s
      else onPair (fun p => { p with partnerEligible := false }) s)

/-- No valid STATUS for 5 µs (R326). -/
def execSelvedgeLinkDown (time : Nat) (s : State) : Out :=
  let s1 := advance time s
  finish s
    (if !dieUp s1 || !s1.pair.linkUp then s1
    else judgePair time <| stageLost (onPair (fun p =>
      { p with linkUp := false, partnerLimit := none, partnerEligible := false, linkLosses := satTo 255 (p.linkLosses + 1),
               syncPaused := p.syncPhase != 0, pausedAt := s1.dev.now }) s1))

def setLane (lane : Fin 2) (on : Bool) : State → State :=
  onPair (fun p => if lane.val = 0 then { p with lane0 := on } else { p with lane1 := on })

def execLaneLoss (lane : Fin 2) (s : State) : Out := finish s (if dieUp s then setLane lane false s else s)
def execLaneLock (lane : Fin 2) (s : State) : Out := finish s (if dieUp s then setLane lane true s else s)

/-- A primary whose partner shows NONE has lost it: the record, and the end of a synchronisation (R339, R345). -/
def partnerLost (s : State) : State :=
  let s1 := if s.dev.role = .primary then recordPair 0x5005 0xFF (onPair (fun p => { p with partnerEligible := false }) s) else s
  let s2 := stageLost s1
  if s2.pair.syncPhase = 0 || s2.dev.role == .syncing then s2 else endSync stTimeout s2

/-- The line goes to NONE or ALIVE at a standby: the loss is detected there, whatever the last STATUS said (R341). -/
def lineLost (time : Nat) (s : State) : State :=
  if s.dev.role = .standby && s.pair.line != 2 && s.pair.handoverAt.isNone then detectLoss time s else s

/-- The decoded value of PEER_ALIVE_IN changes (R323). -/
def execPeerAliveDecode (v : Fin 3) (time : Nat) (s : State) : Out :=
  let s1 := advance time s
  finish s
    (if !dieUp s1 || s1.pair.line = v.val then s1
    else
      let s2 := onPair (fun p => { p with line := v.val, lineAt := time }) s1
      let s3 := lineLost time (if v.val = 0 then partnerLost s2 else s2)
      if s3.dev.role = .primary then judgePair time s3 else s3)

/-- PAIR_FAULT_N is read low, or high again (R325). -/
def execPeerFault (low : Bool) (s : State) : Out :=
  finish s
    (if !dieUp s then s
    else if low && s.scan.dualFault == 0 && !s.pair.peerFault then setCause 4 (onPair (fun p => { p with peerFault := true }) s)
    else if low then s
    else onPair (fun p => { p with peerFault := false }) s)

/-- A SYNCING module has seen NONE for 1 s (R339). -/
def execSyncingTimeout (s : State) : Out :=
  finish s
    (if s.dev.role = .syncing ∧ s.pair.line = 0 then syncingEnds (endSync stTimeout (advance (s.pair.lineAt + 6000000000) s)) else s)

/-- A link loss longer than 10 s ends the synchronisation; the partner takes the SYNCING row of R339 (R345). -/
def execSyncLinkTimeout (s : State) : Out :=
  finish s
    (if s.pair.syncPaused && s.pair.syncPhase != 0 then endSync stTimeout (advance (s.pair.pausedAt + 60000000000) s) else s)

/-! ### Arbitration (R338) -/

/-- The partner holds a program, as its reported state shows. -/
def partnerProgram (s : State) : Bool := (mirroredState s.pair.partnerState).isSome || s.pair.partnerState == 9

/-- This module wins over the link: the program, then the epoch, then side A. -/
def winsLink (s : State) : Bool :=
  let own := s.chg.running.isSome
  if own != partnerProgram s then own
  else if s.pair.epoch != s.pair.partnerEpoch then decide (s.pair.partnerEpoch < s.pair.epoch)
  else !s.pair.sideB

/-- A module that becomes PRIMARY by arbitration continues under R59. -/
def arbitrated (s : State) : State :=
  let s1 := onNet (fun n => { n with firstCycle := s.dev.tick + 1 }) (becomePrimary s)
  if s1.dev.st = .run then onDev (fun d => { d with releasing := some (d.tick + 2) }) s1 else s1

/-- The rows of R338 at an instant of the observation. -/
def execArbitration (time : Nat) (s : State) : Out :=
  let s1 := advance time s
  finish s
    (match s1.pair.deciding with
    | none => s1
    | some t0 =>
      let whole := decide (t0 + 600000000 ≤ s1.dev.now)
      if s1.pair.line = 2 then becomeSyncing s1
      else if s1.pair.line = 0 then (if whole then arbitrated s1 else s1)
      else if s1.pair.linkUp then (if winsLink s1 then arbitrated s1 else becomeSyncing s1)
      else if !s1.pair.sideB then (if whole then arbitrated s1 else s1)
      else if t0 + 6600000000 ≤ s1.dev.now then arbitrated s1
      else s1)

/-! ### Takeover (R341) -/

/-- Step 3: an active task's activation is lost. -/
def loseActivation (n : Nat) (s : State) : State :=
  if (getTask s n).st.active then
    recordPair 0x5007 n (onTask n (fun t =>
      { t with st := restState t, suspendPending := false, act := none, skips := inc32 t.skips }) s)
  else s

/-- Base ticks from j to the tick in progress at which a task is due. -/
def dueSpan (s : State) (j n : Nat) : List Nat :=
  let c := (getTask s n).sched
  ((List.range (s.dev.tick + 1 - j)).map (j + ·)).filter (fun k => c.kind == 1 && c.period != 0 && k % c.period == c.offset)

/-- Step 4 for one cyclic task: one release for its last due tick, the earlier ones as skips. -/
def takeoverRelease (j n : Nat) (s : State) : State :=
  match (dueSpan s j n).getLast? with
  | none => s
  | some k =>
    if (getTask s n).st = .idle then
      releaseIn k n 0 (s.dev.tickAt - 1500000 * (s.dev.tick - k)) s.dev.now TWord.empty
        (onTask n (fun t => { t with skips := satTo 0xFFFFFFFF (t.skips + ((dueSpan s j n).length - 1)) }) s)
    else s

/-- Releases are made again by a new primary whose state runs. -/
def resumeReleasing (s : State) : State :=
  if s.dev.st = .run ∨ s.dev.st = .changing then onDev (fun d => { d with releasing := some d.tick }) s else s

/-- Steps 1 to 7 of R341. -/
def takeOver (s : State) : State :=
  let n := s.dev.tick - 2
  let s1 := match wholeDelta s n with
    | some d => if s.pair.lastApplied + 1 = n then onPair (fun p => { p with lastApplied := n }) (applyRecs d s) else s
    | none => s
  let j := s1.pair.lastApplied + 1
  let s2 := onPair (fun p => { p with takeovers := satTo 255 (p.takeovers + 1) }) (becomePrimary s1)
  let lost := (s2.scan.tasks.filter (fun t => t.st.active)).length
  let s3 := resumeReleasing ((List.range 64).foldl (fun t k => loseActivation k t) s2)
  let s4 := if releases s3 then
      (List.range 64).foldl (fun t k => releaseLatched k t.dev.now t)
        ((List.range 64).foldl (fun t k => takeoverRelease j k t) s3)
    else s3
  let s5 := onNet (fun x => { x with stations := x.stations.map (fun e =>
    (e.1, { e.2 with session := none, verifyDue := e.2.verifyDue || e.2.unresolved.isSome })) }) s4
  let s6 := if s5.dev.st == .halted || s5.dev.haltReqLow then haltOutputs (setHaltAll s5) else s5
  settle (recordRole 0x5001 j lost (masterCycle (latchLocal (latchOutputs s6))))

/-- TAKEOVER: the boundary T has come. -/
def execTakeover (time : Nat) (s : State) : Out :=
  let s1 := advance time s
  finish s
    (match s1.pair.takeoverDue with
    | some (t, _) => if t ≤ s1.dev.tick && s1.dev.role == .standby then takeOver s1 else s1
    | none => s1)

/-- YIELD: the boundary at which a module that has seen newer epochs yields (R337). -/
def execYieldPrimary (time : Nat) (s : State) : Out :=
  let s1 := advance time s
  finish s (if s1.pair.yieldDue then yieldNow s1 else s1)

/-! ### Handover (R343) -/

/-- Step 1, at the former primary. -/
def handOver (s : State) : State :=
  let s1 := closeDelta (mirror (.mark .handover) s)
  let s2 := onDev (fun d => { d with releasing := none }) (takeRole .standby s1)
  recordRole 0x5002 s.dev.tick 0 (onPair (fun p =>
    { p with handoverDue := false, switchover := none, heldTasks := [], handoverAt := some (boundaryAfter s s.dev.now 120000),
             lastApplied := s.dev.tick - 1, inStep := true, handovers := satTo 255 (p.handovers + 1) }) s2)

/-- A complete delta with the handover mark. -/
def markedDelta (s : State) : Option (Nat × List DeltaRec × Option (Nat × Nat)) :=
  s.pair.deltas.find? (fun d => deltaWhole d && d.2.1.contains (.mark .handover))

/-- Step 2, at the standby: E_h is the instant of this event. -/
def takeHandover (d : Nat × List DeltaRec × Option (Nat × Nat)) (s : State) : State :=
  let s1 := applyRecs d.2.1 s
  let s2 := onPair (fun p =>
    { p with lastApplied := d.1, handoverAt := some (boundaryAfter s s.dev.now 120000), handovers := satTo 255 (p.handovers + 1) })
    (becomePrimary s1)
  let s3 := resumeReleasing s2
  let s4 := if releases s3 then
      (List.range 64).foldl (fun t k => releaseLatched k t.dev.now t)
        ((List.range 64).foldl (fun t k => takeoverRelease (d.1 + 1) k t) s3)
    else s3
  settle (recordRole 0x5002 (d.1 + 1) 0 s4)

/-- HANDOVER: at the handover boundary, then at the end of the application on the standby. -/
def execHandover (time : Nat) (s : State) : Out :=
  let s1 := advance time s
  finish s
    (if s1.pair.handoverDue && s1.dev.role == .primary then handOver s1
    else if s1.dev.role == .standby && s1.pair.handoverAt.isNone then
      match markedDelta s1 with
      | some d => takeHandover d s1
      | none => s1
    else s1)

/-- MASTERSHIP_PASS: the boundary at least 20 µs after E_h. The former primary's outputs go off. -/
def execMastershipPass (s : State) : Out :=
  finish s
    (match s.pair.handoverAt with
    | some p =>
      if p ≤ s.dev.tick then
        let s1 := onPair (fun x => { x with handoverAt := none }) s
        if s.dev.role = .standby then
          deenergise (onNet (fun n => { n with cycling := false }) (onPair (fun x => { x with master := false }) s1))
        else s1
      else s
    | none => s)

end Sys2Proof.Machine
end

