-- ==== Sys2Proof/Machine/Slots.lean ====
section
/-! DEFINITION. The commands of class 0x2: slots and forces (R79, R80, R91 to R93, R100 to R103). -/

namespace Sys2Proof.Machine

/-! ### SLOT_ALLOC and SLOT_FREE -/

/-- The slots of the run that the command asks for, 0 when the order is out of range. -/
def allocSize (r : Request) : Nat := if pByte r 16 ≤ 18 then 2 ^ pByte r 16 else 0

/-- The descriptors of the run: the payload's, or the template with its channel counted on (R79). -/
def allocDescs (r : Request) : List SlotDesc :=
  if byPointer r then (pieces 16 (allocSize r) r.payload).map parseDesc
  else
    let d := parseDesc (pSlice r 24 40)
    (List.range (allocSize r)).map (fun i =>
      if d.ownerKind = 1 || d.ownerKind = 2 then { d with channel := d.channel + i } else d)

/-- Every reserved bit of the descriptors given is 0. -/
def allocReserved (r : Request) : Bool :=
  if byPointer r then (pieces 16 (allocSize r) r.payload).all descReserved else descReserved (pSlice r 24 40)

/-- No two descriptors of one command name the same channel in the same direction (R76). -/
def distinctOwners : List SlotDesc → Bool
  | [] => true
  | d :: r => (d.ownerKind == 0 || r.all (fun e => !sameOwner d e)) && distinctOwners r

/-- A slot that owns a local channel is declared BOOL (R506). -/
def localBool (d : SlotDesc) : Bool := d.ownerKind != 2 || d.ty == Ty.bool

/-- A run whose last channel would pass the channel range, or a descriptor that R76 or R506 refuses. -/
def allocBad (r : Request) (s : State) : Bool :=
  let ds := allocDescs r
  decide (18 < pByte r 16) ||
  (bitOf (pByte r 17) 0 &&
    (pField r 20 4 % 2 ^ pByte r 16 != 0 || decide (slotCount ≤ pField r 20 4))) ||
  ds.length != allocSize r ||
  !allocReserved r ||
  ds.any (fun d => decide (65535 < d.channel) || !descOk s d || !localBool d) ||
  (byPointer r && !distinctOwners ds)

/-- The run that the allocator would give. -/
def allocTarget (r : Request) (s : State) : Option (Nat × List (Nat × Nat)) :=
  allocRun (if bitOf (pByte r 17) 0 then some (pField r 20 4) else none) (pByte r 16) s.img.free

/-- What SLOT_ALLOC reports on NO_RESOURCE (R79). -/
def allocRefusal (s : State) : Answer :=
  { status := stNoResource,
    result := [b8 (largestFree s.img.free), 0, 0, 0] ++ leBytes 4 (freeTotal s.img.free) }

/-- A limit is reached: no run, more than 2,097,152 retentive items (R78), or more than 32,768 groups (R361). -/
def allocLacks (r : Request) (s : State) : Bool :=
  match allocTarget r s with
  | none => true
  | some (b, _) =>
    let ds := allocDescs r
    decide (2097152 < retentiveCount s + (ds.filter (·.retentive)).length) ||
      decide (32768 < s.mem.groups.length + newSlotGroups s b ds)

def cmdSlotAlloc : Cmd :=
  { op := 0x2001, used := fun _ => 40
    shape := fun r =>
      decide (pByte r 17 < 2) && pZero r 18 20 && (bitOf (pByte r 17) 0 || pZero r 20 24) &&
        (!byPointer r || pZero r 24 40) && (byPointer r || descReserved (pSlice r 24 40))
    pay := fun r => .may (decide (pByte r 16 ≤ 17) && payExact r (16 * allocSize r))
    range := fun r s => badIf (allocBad r s)
    busy := fun r s =>
      busyIf ((allocDescs r).any (fun d => d.ownerKind != 0 && s.img.descs.any (fun e => sameOwner d e.2)))
    lack := fun r s => if allocLacks r s then some (allocRefusal s) else none
    effect := fun r s =>
      match allocTarget r s with
      | none => (allocRefusal s, s)
      | some (b, l) =>
        ({ status := stOk, result := leBytes 4 b },
          placeDescs b (allocDescs r)
            (mirror (.allocRun b (pByte r 16))
              (onImg (fun i => { i with free := l, runs := insertAt i.runs b (pByte r 16) }) s))) }

/-- The merged free run that holds a freed run (R80). -/
def mergedOrder (s : State) (b k : Nat) : Nat := (mergeRun 18 b k s.img.free).1.2

/-- Free one allocated run (R80). -/
def freeSlots (b k : Nat) (s : State) : State :=
  clearDescs b (2 ^ k)
    (mirror (.freeRun b k)
      (onImg (fun i => { i with free := freeRun i.free b k, runs := erase i.runs b }) s))

def cmdSlotFree : Cmd :=
  { op := 0x2002, used := fun _ => 24
    shape := fun r => pZero r 17 20
    range := fun r s => badIf (decide (18 < pByte r 16) || look s.img.runs (pField r 20 4) != some (pByte r 16))
    busy := fun r s =>
      let b := pField r 20 4
      let n := 2 ^ pByte r 16
      busyIf ((descsIn s b n).any (fun e => e.2.refRun || e.2.refStaged) ||
        s.img.forces.any (fun f => decide (b ≤ f.slot) && decide (f.slot < b + n)))
    effect := fun r s =>
      ({ status := stOk, result := [b8 (mergedOrder s (pField r 20 4) (pByte r 16))] },
        freeSlots (pField r 20 4) (pByte r 16) s) }

/-! ### Reads -/

/-- Output of count entries of n bytes: up to 16 bytes go into the result, more into the payload (R91). -/
def placeOutput (r : Request) (b : Bytes) (s : State) : Answer × State :=
  if b.length ≤ 16 then ({ status := stOk, result := b }, s) else (okAnswer, putPayload r b s)

/-- A count of 1 to 65,536 within the image, with a payload that holds it where it is too large for the result (R91). -/
def readBad (r : Request) (size : Nat) (freeOk : Bool) (s : State) : Bool :=
  let a := pField r 16 4
  let n := pField r 20 4
  n == 0 || decide (65536 < n) || decide (slotCount < a + n) ||
    (decide (16 < n * size) && !(byPointer r && payHolds r (n * size))) ||
    (!freeOk && decide ((descsIn s a n).length < n))

def cmdSlotRead : Cmd :=
  { op := 0x2003, used := fun _ => 25
    pay := fun _ => .may true
    range := fun r s =>
      let v := pByte r 24
      badIf (decide (2 < v) || readBad r (if v = 2 then 16 else 8) (v == 2) s)
    effect := fun r s =>
      let l := (List.range (pField r 20 4)).map (pField r 16 4 + ·)
      placeOutput r
        (l.flatMap (fun i =>
          match pByte r 24 with
          | 0 => entry (effWord s i) 0
          | 1 => entry (liveWord s i) 0
          | _ => descBytes (descOf s i) (forceOf s i).isSome)) s }

/-- Bytes 5 to 7 of a snapshot entry (R93). -/
def tickTail (t : Option Nat) : Nat :=
  match t with
  | some n => n % 2 ^ 24
  | none => 0xFFFFFF

def cmdSnapshotRead : Cmd :=
  { op := 0x2009, used := fun _ => 24
    pay := fun _ => .may true
    range := fun r s => badIf (readBad r 8 false s)
    effect := fun r s =>
      let l := (List.range (pField r 20 4)).map (pField r 16 4 + ·)
      placeOutput r (l.flatMap (fun i => let e := snapEntry s i; entry e.1 (tickTail e.2))) s }

/-! ### SLOT_WRITE -/

/-- The type is one the slot accepts: the declared type, or any from EMPTY to 0xA for an untyped one (R75). -/
def typeAccepted (d : SlotDesc) (ty : BitVec 4) : Bool := if d.ty = 0 then decide (ty.toNat ≤ 0xA) else ty == d.ty

/-- The word that bytes 20 to 27 carry. -/
def reqWord (r : Request) : TWord := entryWord (pSlice r 20 28)

def cmdSlotWrite : Cmd :=
  { op := 0x2004, used := fun _ => 28
    shape := fun r => pZero r 25 28
    range := fun r s =>
      let a := pField r 16 4
      let d := descOf s a
      let w := reqWord r
      badIf (decide (slotCount ≤ a) || d.dir == 0 || d.dir == 1 || !typeAccepted d w.ty || w.forced || w.sub ||
        !hostWord w)
    effect := fun r s =>
      let a := pField r 16 4
      (okAnswer, settle (withTriggers [a] (setLive a (reqWord r)) s)) }

/-! ### Forces -/

/-- The type of a force value (R94): the declared one, or any from 0x1 to 0xA for an untyped slot. -/
def forceType (d : SlotDesc) (ty : BitVec 4) : Bool :=
  if d.ty = 0 then decide (1 ≤ ty.toNat ∧ ty.toNat ≤ 0xA) else ty == d.ty

def cmdForceSet : Cmd :=
  { op := 0x2005, used := fun _ => 28
    shape := fun r => pZero r 25 28
    range := fun r s =>
      let a := pField r 16 4
      let w := reqWord r
      badIf (decide (slotCount ≤ a) || isFree s a || !forceType (descOf s a) w.ty || w.forced || w.sub || !hostWord w)
    busy := fun r s => busyIf ((s.chg.staged.isSome || opActive s [0x3001] || (s.chg.attempt.map (·.revert)) == some true) && s.chg.busySlots.contains (pField r 16 4))
    lack := fun r s => lackIf ((forceOf s (pField r 16 4)).isNone && decide (4096 ≤ s.img.forces.length))
    effect := fun r s =>
      let a := pField r 16 4
      let t := settle (withTriggers [a] (setForce a (reqWord r)) s)
      ({ status := stOk,
         result := [b8 (if (forceOf s a).isSome then 1 else 0), 0, 0, 0] ++ leBytes 2 t.img.forces.length }, t) }

def cmdForceClear : Cmd :=
  { op := 0x2006, used := fun _ => 20
    range := fun r _ => badIf (decide (slotCount ≤ pField r 16 4))
    effect := fun r s =>
      let a := pField r 16 4
      let t := settle (withTriggers [a] (clearForce 2 a) s)
      ({ status := stOk,
         result := [b8 (if (forceOf s a).isSome then 1 else 0), 0, 0, 0] ++ leBytes 2 t.img.forces.length }, t) }

/-- The 16-byte entry of FORCE_LIST (R102). -/
def forceEntry (f : Force) : Bytes := leBytes 4 f.slot ++ entry f.value 0 ++ leBytes 4 f.tick

def cmdForceList : Cmd :=
  { op := 0x2007, used := fun _ => 18
    pay := fun _ => .must true
    effect := fun r s =>
      let l := (s.img.forces.drop (pField r 16 2)).take (4 * r.len)
      ({ status := stOk, result := leBytes 2 l.length ++ leBytes 2 s.img.forces.length },
        putPayload r (l.flatMap forceEntry) s) }

def cmdForceClearAll : Cmd :=
  { op := 0x2008, used := fun _ => 16
    effect := fun r s =>
      ({ status := stOk, result := leBytes 2 s.img.forces.length },
        settle (withTriggers (s.img.forces.map (·.slot)) (clearForces (if urgentPath r.origin then 1 else 0)) s)) }

def execSlotAlloc (r : Request) (s : State) : Out := finish s (serve cmdSlotAlloc r s)
def execSlotFree (r : Request) (s : State) : Out := finish s (serve cmdSlotFree r s)
def execSlotRead (r : Request) (s : State) : Out := finish s (serve cmdSlotRead r s)
def execSlotWrite (r : Request) (s : State) : Out := finish s (serve cmdSlotWrite r s)
def execForceSet (r : Request) (s : State) : Out := finish s (serve cmdForceSet r s)
def execForceClear (r : Request) (s : State) : Out := finish s (serve cmdForceClear r s)
def execForceList (r : Request) (s : State) : Out := finish s (serve cmdForceList r s)
def execForceClearAll (r : Request) (s : State) : Out := finish s (serve cmdForceClearAll r s)
def execSnapshotRead (r : Request) (s : State) : Out := finish s (serve cmdSnapshotRead r s)

end Sys2Proof.Machine
end

