-- ==== Sys2Proof/Machine/Time.lean ====
section
/-! DEFINITION. The commands of the calendar and its events (R401 to R412). PTP_CONFIG stands with the network. -/

namespace Sys2Proof.Machine

/-- Flags of TIME_GET byte 10 (R408). -/
def timeFlags (s : State) : Nat :=
  flag s.cal.valid 0 + flag s.cal.suspect 1 + flag s.cal.alarm0.flag 2 + flag s.cal.alarm1.flag 3 +
    flag (decide (0 < s.cal.hold)) 4 + flag s.dev.retainLost 5 + flag s.cal.pendingSet.isSome 6

def cmdTimeSet : Cmd :=
  { op := 0x6001, used := fun _ => 27
    shape := fun r => !bitOf (pField r 24 2) 15 && decide (pByte r 19 < 16) && (pByte r 26 != 1 || pField r 24 2 == 0)
    range := fun r _ => badIf (decide (1 < pByte r 26))
    effect := fun r s =>
      let f := fieldsOf (pSlice r 16 24)
      let res := [b8 (pByte r 26), b8 (timeFlags s)]
      if pByte r 26 = 0 then ({ status := stOk, result := res }, loadCalendar f (pField r 24 2) s)
      else ({ status := stOk, result := res }, onCal (fun c => { c with pendingSet := some f }) s) }

/-- The timebase at the AON edge that updated the latch: less than one AON tick before the command, where exactly is a free
value (R408, log entry 3). -/
def latchNs (s : State) : Nat × State :=
  let (v, s1) := draw 18 s
  (ptpNs s s.dev.now - v.toNat % 30518, s1)

def cmdTimeGet : Cmd :=
  { op := 0x6002, used := fun _ => 16
    pay := fun r => .may (payExact r 32)
    effect := fun r s =>
      let (ns, s1) := latchNs s
      let res := fieldBytes s.cal.fields ++ leBytes 2 s.cal.subsec ++ [b8 (timeFlags s), 0] ++
        leBytes 4 (ns / 1000 % 2 ^ 32)
      let rec' := leBytes 8 (ns / 1000000000) ++ leBytes 4 (ns % 1000000000) ++ leBytes 2 (ofSigned 2 s.cal.n) ++
        leBytes 2 (ofSigned 2 s.cal.temp) ++ [b8 (flag s.cal.hostCurve 0)]
      ({ status := stOk, result := res }, if byPointer r then putPayload r (sliceZ rec' 0 32) s1 else s1) }

def cmdTimeShift : Cmd :=
  { op := 0x6003, used := fun _ => 19
    range := fun r _ => badIf (pField r 16 2 == 0 || decide (32767 < pField r 16 2) || decide (1 < pByte r 18))
    busy := fun _ s => busyIf (decide (0 < s.cal.hold))
    effect := fun r s =>
      let n := pField r 16 2
      let s1 := logFw 0x6002 (fields [(2, n), (1, pByte r 18)]) s
      (okAnswer,
        if pByte r 18 = 0 then aonTick n s1 else onCal (fun c => { c with hold := n }) s1) }

def cmdAlarmSet : Cmd :=
  { op := 0x6004, used := fun _ => 28
    shape := fun r => decide (pByte r 17 < 8) && pByte r 19 == 0 && decide (pByte r 23 < 16)
    also := fun _ s => s.cal.valid
    range := fun r _ => badIf (decide (1 < pByte r 16))
    effect := fun r s =>
      let a := alarmOf s (pByte r 16)
      let f := pByte r 17
      ({ status := stOk, result := [b8 (flag a.enable 0 + flag a.oneShot 1), a.mask] },
        onAlarm (pByte r 16) (fun a =>
          { value := fieldsOf (pSlice r 20 28), mask := b8 (pByte r 18), enable := bitOf f 0, oneShot := bitOf f 1,
            flag := a.flag && !bitOf f 2, inRetain := a.inRetain }) s) }

/-- The curve that TRIM_CURVE_SET gives. -/
def reqCurve (r : Request) : Int × Int × Int :=
  (toSigned 2 (pField r 16 2), toSigned 2 (pField r 18 2), toSigned 2 (pField r 20 2))

def cmdTrimCurveSet : Cmd :=
  { op := 0x6005, used := fun _ => 23
    shape := fun r => decide (pByte r 22 < 2) && (pByte r 22 == 0 || pZero r 16 22)
    range := fun r _ =>
      let t := (reqCurve r).2.2
      badIf (pByte r 22 == 0 && (decide (t < -400) || decide (1250 < t)))
    effect := fun r s =>
      let host := pByte r 22 == 0
      let k := if host then reqCurve r else factoryCurve s
      let s1 := onCal (fun c => { c with mramCurve := if host then some k else none }) (setCurve host k s)
      ({ status := stOk,
         result := leBytes 2 (ofSigned 2 (trimN k.1 k.2.1 k.2.2 s.cal.temp)) ++ leBytes 2 (ofSigned 2 s.cal.temp) },
        s1) }

def execTimeSet (r : Request) (s : State) : Out := finish s (serve cmdTimeSet r s)
def execTimeGet (r : Request) (s : State) : Out := finish s (serve cmdTimeGet r s)
def execTimeShift (r : Request) (s : State) : Out := finish s (serve cmdTimeShift r s)
def execAlarmSet (r : Request) (s : State) : Out := finish s (serve cmdAlarmSet r s)
def execTrimCurveSet (r : Request) (s : State) : Out := finish s (serve cmdTrimCurveSet r s)

/-- The AON ticks up to the next pass of subsec through 32,767, and the rollover (R395). The corrections of the eligible
instants passed on the way count as made (R399), and a hold has ended (R403). -/
def execCalendarRollover (s : State) : Out :=
  let passed := 8 - s.cal.subsec / 4096
  finish s
    (if s.dev.vaon then
      rollover (onCal (fun c =>
        { c with subsec := 0, hold := 0, removed := false,
                 corrections := min c.n.natAbs (c.corrections + passed) }) s)
    else s)

/-- The evaluation of N at a measured temperature in units of 0.25 °C (R398). -/
def execTrimEvaluation (temp : Int) (s : State) : Out :=
  finish s (if s.dev.vaon then
    onCal (fun c => { c with temp := temp, nNext := trimN c.a0 c.a2 c.t0 temp }) s else s)

/-- The pending set loads at the whole PTP second, with subsec 2 (R402). -/
def execTimeSetPendingLoad (s : State) : Out :=
  finish s
    (match s.cal.pendingSet with
    | some f => loadCalendar f 2 s
    | none => s)

/-- The ticks of a retard hold have passed (R403). -/
def execShiftHoldEnd (s : State) : Out := finish s (onCal (fun c => { c with hold := 0 }) s)

/-- A write to STAT_CAL: alarm flags are W1C, every other bit is RO or STK (R412). -/
def writeStatCal (v : Word) (s : State) : State :=
  onAlarm 1 (fun a => { a with flag := a.flag && !v.getLsbD 29 }) (onAlarm 0 (fun a => { a with flag := a.flag && !v.getLsbD 28 }) s)

def execStatCalAlarmClear (v : Word) (s : State) : Out := hostReg (.statCalAlarmClear v) (writeStatCal v) s

end Sys2Proof.Machine
end

