-- ==== Sys2Proof/Machine/Watchdog.lean ====
section
/-! DEFINITION. The host watchdog and the evidence records (R428, R432 to R440): its configuration, its service, its failures and
their actions. The task budget watchdog stands in Halts.lean, the firmware watchdog in Firmware.lean. -/

namespace Sys2Proof.Machine

/-- The host watchdog counts: enabled, from CONFIGURE on, and not in HOLDUP stage 2 (R432). -/
def wdgCounts (s : State) : Bool :=
  s.wdg.enabled && s.dev.st.configured && !(s.dev.st == .holdup && s.dev.stage == 2)

/-- The window in force (R432), in WDOG ticks. -/
def wdgOpen (w : Watchdogs) : Nat := w.s + 8000 * w.openNow
def wdgClose (w : Watchdogs) : Nat := w.s + 8000 * w.closeNow

/-- A reference point at tick c: the window of the parameters in force begins, and the watchdog is idle (R432, R434, R439). -/
def reference (c : Nat) (w : Watchdogs) : Watchdogs :=
  { w with s := c, armed := false, openNow := w.openMs, closeNow := w.closeMs }

/-! ### The action of a failure (R435) -/

/-- An urgent command of the hardware's own: legal as on CQ0 (R64, R66), or without effect. -/
def ownUrgent (op : Nat) (f : State → State) (s : State) : State :=
  if s.dev.st.configured && legalRole op s.dev.role then f s else s

/-- The configured action. -/
def wdgAction (a : Nat) (s : State) : State :=
  match a with
  | 0 => s
  | 2 => ownUrgent 0x1003 (fun t => if effState t == .halted && t.dev.haltReqLow then t else stopProgram t) s
  | 3 => if s.dev.role = .primary then ownUrgent 0x5003 (fun t => (switchoverCommand 0 t).2) s
    else ownUrgent 0x400A haltOutputs s
  | _ => ownUrgent 0x400A haltOutputs s

/-- The action takes effect at once, or at the end of an open switch window; the output halt never waits (R229). -/
def wdgAct (s : State) : State :=
  let a := s.wdg.action
  if s.chg.window.isSome && (a == 2 || (a == 3 && s.dev.role == .primary)) then onWdg (fun w => { w with waiting := some a }) s
  else wdgAction a s

/-- The action that a switch window has held back. -/
def wdgAfterWindow (s : State) : State :=
  match s.wdg.waiting with
  | some a => wdgAction a (onWdg (fun w => { w with waiting := none }) s)
  | none => s

/-! ### Failures (R434, R435, R437, R438) -/

/-- The second evidence word of a failure: c − s for causes 1 and 3, the written value for cause 2, 0 for cause 4. -/
def failDetail (cause c v : Nat) (w : Watchdogs) : Nat :=
  match cause with
  | 1 | 3 => satTo 0xFFFFFFFF (c - w.s)
  | 2 => v
  | _ => 0

/-- A failure at tick c: evidence, record and interrupt cause first, then the new reference point, then the action. -/
def wdgFail (cause c v : Nat) (s : State) : State :=
  let s1 := captureEvidence 2 (BitVec.ofNat 32 cause) (BitVec.ofNat 32 (failDetail cause c v s.wdg)) s.wdg.lastGood s
  let s2 := setCause 1 (logHw 0xD003 (keyed [b8 cause] (leBytes 4 (c - s.wdg.s))) s1)
  wdgAct (onWdg (fun w => { reference c w with lastCause := cause }) s2)

/-- The expiries up to tick c, each at its close, with cause 4. -/
def wdgExpire (fuel c : Nat) (s : State) : State :=
  match fuel with
  | 0 => s
  | n + 1 =>
    if wdgCounts s && decide (wdgClose s.wdg ≤ c) then wdgExpire n c (wdgFail 4 (wdgClose s.wdg) 0 s) else s

/-- The present WDOG tick moves to c, and the expiries on the way are taken. -/
def wdgTo (c : Nat) (s : State) : State :=
  let s1 := advance (750 * c) s
  let s2 := wdgExpire ((c - s1.wdg.s) / 8000 + 1) c s1
  onWdg (fun w => { w with tick := max w.tick c }) s2

/-- A good service at tick c. -/
def wdgGood (c : Nat) (s : State) : State :=
  onWdg (fun w => { reference c w with lastGood := optimeMs s }) s

/-- The judgement of a write captured at tick c (R434). -/
def wdgJudge (c v : Nat) (s : State) : State :=
  if !s.wdg.armed then
    if v = 0xA5E1 then onWdg (fun w => { w with armed := true }) s else wdgFail 2 c v s
  else if v = 0x1E5A then
    if c < wdgOpen s.wdg then wdgFail 1 c v s else wdgGood c s
  else wdgFail 3 c v s

/-! ### Service (R433, R434) -/

/-- A write to WDG_SERVICE: discarded while the watchdog does not count, queued, or a wrong write when the queue is full. -/
def writeWdgService (v : Word) (s : State) : State :=
  if !wdgCounts s then s
  else if s.wdg.queue.length < 4 then onWdg (fun w => { w with queue := w.queue ++ [v] }) s
  else
    let c := wdogNow s
    let s1 := wdgTo c s
    wdgFail (if s1.wdg.armed then 3 else 2) c v.toNat s1

def execWdgService (v : Word) (s : State) : Out := hostReg (.wdgService v) (writeWdgService v) s

/-- The oldest queued write is captured at tick c. -/
def execWdgServiceCapture (c : Nat) (s : State) : Out :=
  finish s
    (match s.wdg.queue with
    | [] => s
    | v :: r =>
      let s1 := onWdg (fun w => { w with queue := r }) s
      if wdgCounts s1 then wdgJudge c v.toNat (wdgTo c s1) else s1)

/-- The count reaches close. -/
def execHostWatchdogExpiry (c : Nat) (s : State) : Out :=
  finish s (if wdgCounts s && decide (wdgClose s.wdg ≤ c) then wdgTo c s else s)

/-! ### WDG_HOST_STATUS (R436) -/

def wdgHostStatus (s : State) : Nat :=
  let w := s.wdg
  let c := wdogNow s
  flag (wdgCounts s) 31 + flag w.locked 30 + flag w.armed 29 +
    flag (wdgCounts s && decide (wdgOpen w ≤ c ∧ c < wdgClose w)) 28 + 2 ^ 24 * (w.lastCause % 16) +
    satTo 0xFFFFFF ((c - w.s) / 8000)

/-- Word i of an evidence record, from +0x00 on (R437). -/
def evidenceWord (e : Evidence) (i : Nat) : Nat :=
  match i with
  | 0 => e.where0.toNat
  | 1 => e.where1.toNat
  | 2 => e.good % 2 ^ 32
  | 3 => 65536 * e.count + e.good / 2 ^ 32 % 65536
  | 4 => e.deltaMs
  | _ => 0

/-! ### WDG_CONFIG and WDG_EVIDENCE (R439, R440) -/

def wdgOpenMs (r : Request) : Nat := pField r 20 2
def wdgCloseMs (r : Request) : Nat := pField r 22 2

/-- The command changes a field of the configuration. A lock that is set stays set. -/
def wdgChanges (r : Request) (s : State) : Bool :=
  let w := s.wdg
  bitOf (pByte r 16) 0 != w.enabled || bitOf (pByte r 16) 1 != w.locked || pByte r 17 != w.action || wdgOpenMs r != w.openMs ||
    wdgCloseMs r != w.closeMs

/-- The new configuration; enabling a disabled watchdog starts the count 3 WDOG ticks later. -/
def wdgSet (r : Request) (s : State) : State :=
  let on := bitOf (pByte r 16) 0
  let s1 := onWdg (fun w =>
    { w with enabled := on, locked := w.locked || bitOf (pByte r 16) 1, action := pByte r 17, openMs := wdgOpenMs r,
             closeMs := wdgCloseMs r }) s
  if on && !s.wdg.enabled then onWdg (fun w => { reference (wdogNow s + 3) w with queue := [] }) s1
  else if on then s1
  else onWdg (fun w => { w with armed := false, queue := [] }) s1

def cmdWdgConfig : Cmd :=
  { op := 0xD001, used := fun _ => 24
    shape := fun r => decide (pByte r 16 < 4) && pZero r 18 20
    range := fun r _ =>
      badIf (decide (3 < pByte r 17) || !decide (1 ≤ wdgOpenMs r ∧ wdgOpenMs r ≤ 9999) ||
        !decide (wdgOpenMs r < wdgCloseMs r ∧ wdgCloseMs r ≤ 10000))
    auth := fun r s => s.wdg.locked && wdgChanges r s
    effect := fun r s =>
      ({ status := stOk,
         result := [b8 (flag s.wdg.enabled 0 + flag s.wdg.locked 1), 0, 0, 0] ++ leBytes 4 (wdogNow s - s.wdg.s) },
        wdgSet r s) }

def cmdWdgEvidence : Cmd :=
  { op := 0xD002, used := fun _ => 18
    shape := fun r => decide (pByte r 17 < 2)
    range := fun r _ => badIf (decide (2 < pByte r 16))
    effect := fun r s =>
      let n := pByte r 16
      let e := evidenceOf s n
      ({ status := stOk, result := evidenceBytes e },
        if bitOf (pByte r 17) 0 then
          logFw 0xD004 (fields [(1, n), (2, e.count)]) (putEvidence n Evidence.reset s)
        else s) }

def execWdgConfig (r : Request) (s : State) : Out := finish s (serve cmdWdgConfig r s)
def execWdgEvidence (r : Request) (s : State) : Out := finish s (serve cmdWdgEvidence r s)

end Sys2Proof.Machine
end

