-- ==== Sys2Proof/Machine/Take.lean ====
section
/-! DEFINITION. How commands come from host memory: the taking of descriptors from the rings (R29 to R36, R43), the urgent path
(R53 to R56), the end of a switch window, at which what it held back takes effect (R229), and the ends of long operations
that nothing else decides (R41, R48). -/

namespace Sys2Proof.Machine

/-- The opcode catalogue (R57): the command of an opcode; any other completes with BAD_OPCODE (R45). -/
def serveOp (op : Nat) (r : Request) (s : State) : State :=
  match op with
  | 0x0001 => serve cmdEcho r s
  | 0x0002 => serve cmdGetInfo r s
  | 0x0003 => serve cmdGetState r s
  | 0x0005 => serve cmdResetDevice r s
  | 0x0006 => serve cmdHandleQuery r s
  | 0x0007 => serve cmdHandleRelease r s
  | 0x0008 => serve cmdHandleCancel r s
  | 0x1001 => serve cmdProgramLoad r s
  | 0x1002 => serve cmdProgramStart r s
  | 0x1003 => serve cmdStopProgram r s
  | 0x1004 => serve cmdTaskConfig r s
  | 0x1005 => serve cmdTaskStatus r s
  | 0x1006 => serve cmdTaskSuspend r s
  | 0x1007 => serve cmdTaskResume r s
  | 0x1008 => serve cmdEventTrigger r s
  | 0x1009 => serve cmdEngineSplit r s
  | 0x100A => serve cmdEngineJoin r s
  | 0x2001 => serve cmdSlotAlloc r s
  | 0x2002 => serve cmdSlotFree r s
  | 0x2003 => serve cmdSlotRead r s
  | 0x2004 => serve cmdSlotWrite r s
  | 0x2005 => serve cmdForceSet r s
  | 0x2006 => serve cmdForceClear r s
  | 0x2007 => serve cmdForceList r s
  | 0x2008 => serve cmdForceClearAll r s
  | 0x2009 => serve cmdSnapshotRead r s
  | 0x3001 => serve cmdChangeStage r s
  | 0x3002 => serve cmdChangeCommit r s
  | 0x3003 => serve cmdChangeAbort r s
  | 0x3004 => serve cmdChangeRevert r s
  | 0x3005 => serve cmdChangeRelease r s
  | 0x4001 => serve cmdNetConfig r s
  | 0x4002 => serve cmdNetStart r s
  | 0x4003 => serve cmdNetStop r s
  | 0x4004 => serve cmdStationAdmit r s
  | 0x4005 => serve cmdStationConfigure r s
  | 0x4006 => serve cmdStationFirmware r s
  | 0x4007 => serve cmdStationDiag r s
  | 0x4008 => serve cmdStationRelease r s
  | 0x4009 => serve cmdStationHaltOutputs r s
  | 0x400A => serve cmdNetHaltAllOutputs r s
  | 0x5001 => serve cmdPairConfig r s
  | 0x5002 => serve cmdPairSync r s
  | 0x5003 => serve cmdPairSwitchover r s
  | 0x5004 => serve cmdPairLeave r s
  | 0x5005 => serve cmdPairStatus r s
  | 0x6001 => serve cmdTimeSet r s
  | 0x6002 => serve cmdTimeGet r s
  | 0x6003 => serve cmdTimeShift r s
  | 0x6004 => serve cmdAlarmSet r s
  | 0x6005 => serve cmdTrimCurveSet r s
  | 0x6006 => serve cmdPtpConfig r s
  | 0x7001 => serve cmdLogRead r s
  | 0x7002 => serve cmdLogExport r s
  | 0x7003 => serve cmdLogClear r s
  | 0x7004 => serve cmdLogMark r s
  | 0x8001 => serve cmdFwBegin r s
  | 0x8002 => serve cmdFwData r s
  | 0x8003 => serve cmdFwFinish r s
  | 0x8004 => serve cmdFwActivate r s
  | 0x8005 => serve cmdFwStatus r s
  | 0x8006 => serve cmdFwRevert r s
  | 0x9001 => serve cmdEnergyStatus r s
  | 0x9002 => serve cmdPowerCapSet r s
  | 0x9003 => serve cmdHoldupConfig r s
  | 0x9004 => serve cmdCellConfig r s
  | 0xA001 => serve (cmdAuthNonce (draw 128 s).1) r (draw 128 s).2
  | 0xA003 => serve cmdDebugUnlock r s
  | 0xA004 => serve cmdFuseRead r s
  | 0xA005 => serve cmdFuseProgram r s
  | 0xA006 => serve cmdKeyRevoke r s
  | 0xB001 => serve cmdMemFill r s
  | 0xB002 => serve cmdScrubConfig r s
  | 0xB003 => serve cmdMemTest r s
  | 0xB004 => serve cmdErrStatus r s
  | 0xC001 => serve cmdFioConfig r s
  | 0xC002 => serve cmdFioStatus r s
  | 0xC003 => serve cmdFioTestPulse r s
  | 0xD001 => serve cmdWdgConfig r s
  | 0xD002 => serve cmdWdgEvidence r s
  | _ => answer r { status := stBadOpcode } (advance r.time s)

/-! ### Descriptors (R32 to R36) -/

/-- The request that the entries of a descriptor spell. Its last two entries are the authorization block when auth_attached is 1
(R35). -/
def requestOf (o : Origin) (rd : HostRead) (entries : List Bytes) : Request :=
  let b := sliceZ (entries.headD []) 0 64
  let flags := b8 (byteAt b 2)
  let more := entries.drop 1
  let auth := flags.getLsbD 1 && decide (3 ≤ entries.length)
  let len := le b 14 2
  { origin := o, time := rd.time, flags := flags, count := byteAt b 3, cookie := BitVec.ofNat 32 (le b 4 4), addr := le b 8 6,
    len := len,
    params := slice b 16 48 ++ ((if auth then more.take (more.length - 2) else more).flatMap (fun e => sliceZ e 0 64)),
    payload := if flags.getLsbD 2 then sliceZ rd.payload 0 (64 * len) else [], object := rd.object,
    auth := if auth then (more.drop (more.length - 2)).flatMap (fun e => sliceZ e 0 64) else [] }

/-- Opcode and descriptor count of the entry at the front. -/
def entryOp (rd : HostRead) : Nat := le (sliceZ (rd.entries.headD []) 0 64) 0 2
def entryCount (rd : HostRead) : Nat := byteAt (sliceZ (rd.entries.headD []) 0 64) 3

/-- A switch window holds back every command but the output halt (R229). -/
def windowHolds (op : Nat) (s : State) : Bool := s.chg.window.isSome && op != 0x400A

/-- ci passes the entries of a descriptor at once (R33). -/
def passEntries (n count : Nat) : State → State := onCq n (fun q => { q with ci := (q.ci + count) % q.size })

/-! ### CQ1 to CQ63 (R30, R40, R43) -/

/-- Firmware may take a descriptor of ring n: published, and room for its completion (R28, R40). -/
def cqReady (s : State) (n : Nat) : Bool :=
  let q := getCq s n
  q.enable && q.running && q.published != 0 && (getKq s q.kq).room

/-- The ring whose turn it is (R43). -/
def nextServed (s : State) : Option Nat :=
  ((List.range 63).map (fun i => (s.host.lastServed + i) % 63 + 1)).find? (cqReady s)

/-- Firmware reads the published entries of ring n in its turn (R30, R33). -/
def takeFrom (n : Fin 64) (rd : HostRead) (s : State) : State :=
  let s1 := onHost (fun h => { h with lastServed := n.val, doorbells := h.doorbells.filter (· != n.val) }) s
  let count := entryCount rd
  if rd.error then stopRing n.val 3 s1
  else if count = 0 ∨ 8 < count then stopRing n.val 2 s1
  else if (getCq s1 n.val).published < count then s1
  else if windowHolds (entryOp rd) s1 then s
  else serveOp (entryOp rd) (requestOf (.ring n) rd (rd.entries.take count)) (passEntries n.val count s1)

/-- The next published descriptor of a command ring is taken, in the round robin (R43). -/
def execDescriptorTake (n : Fin 64) (rd : HostRead) (s : State) : Out :=
  let s1 := advance rd.time s
  finish s (if n.val != 0 && served (.ring n) s1 && nextServed s1 == some n.val then takeFrom n rd s1 else s1)

/-! ### The urgent path (R53 to R56) -/

/-- CQ0 has entries that the hardware command processor may read: published ones, and for a doorbell already taken those up to
the producer index at its taking (R54). -/
def cq0Ready (s : State) : Bool :=
  (getCq s 0).enable && (getCq s 0).running &&
    (match s.host.cq0Upto with
     | some p => p != (getCq s 0).ci
     | none => (getCq s 0).published != 0)

/-- The request of a URG_COMMAND write: every inline parameter 0 but the station address (R55). -/
def urgRequest (v : Word) (s : State) : Request :=
  { origin := .urg, time := s.dev.now, flags := 1, count := 1, cookie := 0, addr := 0, len := 0,
    params := sliceZ (if v.extractLsb' 0 16 = 0x4009 then leBytes 2 (bits v.toNat 25 16) else []) 0 48, payload := [], object := [],
    auth := [] }

/-- An URG_COMMAND write with a good key is carried out (R55, R56). -/
def serveUrg (v : Word) (s : State) : State :=
  let op := bits v.toNat 15 0
  let r := urgRequest v s
  if urgentOps.contains op && op != 0x4009 && bits v.toNat 25 16 != 0 then answer r { status := stBadParam } s
  else serveOp op r s

/-- The urgent writes at the front of the queue are served, up to a CQ0 doorbell whose entries are still to be read; a doorbell
of a ring that has none goes (R54). A switch window holds them back (R229). -/
def drainUrgent : List (Option Word) → State → State
  | [], s => s
  | none :: q, s =>
    if cq0Ready s then s else drainUrgent q (onHost (fun h => { h with urgent := q, cq0Upto := none }) s)
  | some v :: q, s =>
    if windowHolds (bits v.toNat 15 0) s then s else drainUrgent q (serveUrg v (onHost (fun h => { h with urgent := q }) s))

def drain (s : State) : State := drainUrgent s.host.urgent s

/-- A write to URG_COMMAND: a wrong key is counted; a good one takes its place in the order of arrival, but an output halt in
a switch window does not wait (R54, R55, R229). -/
def writeUrg (v : Word) (s : State) : State :=
  if bits v.toNat 31 26 ≠ 0x2D then onHost (fun h => { h with keyErrors := satTo 255 (h.keyErrors + 1) }) s
  else if s.chg.window.isSome && bits v.toNat 15 0 == 0x400A then serveUrg v s
  else drain (onHost (fun h => { h with urgent := h.urgent ++ [some v] }) s)

/-- One CQ0 entry is read and served as one entry, whatever its count (R53, R54). -/
def takeCq0 (rd : HostRead) (s : State) : State :=
  if rd.error then stopRing 0 3 s
  else if windowHolds (entryOp rd) s then s
  else
    serveOp (entryOp rd) (requestOf (.ring 0) rd (rd.entries.take 1))
      (passEntries 0 1 (onHost (fun h => { h with cq0Upto := some (h.cq0Upto.getD (getCq s 0).pi) }) s))

/-! ### Final completions (R41, R48) -/

/-- The work of a long operation is done: its effect and its end, by opcode. The operations that end at an event of their own
(PROGRAM_INSTALL, CHANGE_STAGE_INSTALL, SWITCH_WINDOW_END, MEM_TEST_UNIT, TEST_PULSE, the sessions and the pair) end there. -/
def finishOp (i : Nat) (io : IoResult) (o : LongOp) (s : State) : State :=
  match o.opcode with
  | 0x1001 => finishArchive i o s
  | 0x1009 => finishPairOp i o s
  | 0x100A => finishPairOp i o s
  | 0x4001 => finishNetConfig i o s
  | 0x4006 => finishStore i o io s
  | 0x7002 => finishExport i o s
  | 0x8001 => finishBegin i o io s
  | 0x8002 => finishData i o io s
  | 0x8003 => finishFinish i o io s
  | 0x8004 => sealActivation i o s
  | 0x8006 => sealActivation i o s
  | 0xA005 => if o.aux.length ≤ 1 then finishFuse i o s else s
  | 0xB001 => finishFill i o s
  | 0xB002 => finishBurst i o s
  | _ => s

/-- The operations that end with ABORTED where they stand at a cancel point when FINAL_COMPLETION finds them asked to end; the
others come to their cancel points at events of their own (R51). -/
def abortsHere (op : Nat) : Bool :=
  [0x1001, 0x3001, 0x4001, 0x7002, 0x8001, 0x8002, 0x8003, 0x8004, 0x8006, 0xA005, 0xB001, 0xB002, 0xB003].contains op

def execFinalCompletion (idx time : Nat) (io : IoResult) (s : State) : Out :=
  let s1 := advance time s
  finish s
    (match getOp s1 idx with
    | none => s1
    | some o =>
      if !opsProceed s1 then s1 else
      if o.opcode = 0xB001 && !o.done && !o.suspended && stopAsked s1 o then cutFill idx o s1
      else if abortsHere o.opcode then goOn idx (finishOp idx io) s1
      else if o.done || o.suspended then s1
      else finishOp idx io o s1)

end Sys2Proof.Machine
end

