-- ==== Sys2Proof/Machine/Registers.lean ====
section
/-! DEFINITION. The register map (R526 to R539): every readable register of BAR0, the interrupt registers, the MSI-X table, and
the routing of writes. -/

namespace Sys2Proof.Machine

/-! ### Device interrupts (R534 to R536) -/

/-- The vector is raised at once when a selected cause bit is already 1 (R536). -/
def raisePending (s : State) : State := if s.regs.cause &&& s.regs.mask = 0 then s else raiseDevice s

/-- A write to INT_CTRL (R534, R536, R537). -/
def writeIntCtrl (v : Word) (s : State) : State :=
  let x := v.toNat
  let s1 := onRegs (fun r =>
    { r with devEnable := bitOf x 31, devVector := bits x 30 24, errEnable := bitOf x 23, errVector := bits x 22 16 }) s
  let s2 := if bitOf x 31 && !s.regs.devEnable then raisePending s1 else s1
  if s2.regs.ringErr = 0 then s2 else raiseRingErr s2

/-- A write to INT_MASK (R534, R536). -/
def writeIntMask (v : Word) (s : State) : State :=
  let m : BitVec 11 := v.setWidth 11
  let s1 := onRegs (fun r => { r with mask := m }) s
  if m &&& ~~~s.regs.mask = 0 then s1 else raisePending s1

/-- A write to INT_CAUSE clears the bits written as 1 (R535). -/
def writeIntCause (v : Word) : State → State := onRegs (fun r => { r with cause := r.cause &&& ~~~(v.setWidth 11) })

def execIntCtrl (v : Word) (s : State) : Out := hostReg (.intCtrl v) (writeIntCtrl v) s
def execIntMask (v : Word) (s : State) : Out := hostReg (.intMask v) (writeIntMask v) s
def execIntCauseClear (v : Word) (s : State) : Out := hostReg (.intCauseClear v) (writeIntCause v) s

/-! ### MSI-X (R538) -/

/-- What a word of the MSI-X table reads as at reset: a vector control word masks its vector (log entry 7). -/
def msixReset (off : Nat) : Word := if off % 16 = 12 then 1 else 0

def msixWord (s : State) (off : Nat) : Word := readAt (msixReset off) s.regs.msix off

/-- The bits of a table word that hold a value (log entry 7). -/
def msixKept (off : Nat) (v : Word) : Word :=
  match off % 16 with
  | 0 => v &&& 0xFFFFFFFC
  | 12 => v &&& 1
  | _ => v

/-- A vector whose masks are gone sends its pending message. -/
def sendPending (v : Nat) (s : State) : State :=
  if s.regs.pba.getLsbD v && !s.regs.functionMask && !(msixWord s (16 * v + 12)).getLsbD 0 then
    onRegs (fun r => { r with pba := r.pba &&& ~~~(1#128 <<< v), messages := v :: r.messages }) s
  else s

/-- A write to the word at byte `off` of the table. -/
def writeMsix (off : Nat) (v : Word) (s : State) : State :=
  sendPending (off / 16)
    (onRegs (fun r => { r with msix := writeAt (msixReset off) r.msix off (msixKept off v) }) s)

/-- A write to the table takes effect at an aligned offset in it. -/
def storeMsix (off : Nat) (v : Word) (s : State) : State := if off < 2048 ∧ off % 4 = 0 then writeMsix off v s else s

def execMsixTableWrite (off : Nat) (v : Word) (s : State) : Out :=
  hostReg (.msixTableWrite off v) (storeMsix off v) s

/-! ### The latched system registers (R533) -/

def latchTick (s : State) : State :=
  onRegs (fun r => { r with tickHi := s.dev.tick / 2 ^ 32 % 2 ^ 32, readData := BitVec.ofNat 32 s.dev.tick }) s

def latchOptime (s : State) : State :=
  onRegs (fun r => { r with optimeHi := optimeMs s / 2 ^ 32 % 65536, readData := BitVec.ofNat 32 (optimeMs s) }) s

def execSysTickLoRead (s : State) : Out := hostReg .sysTickLoRead latchTick s
def execSysOptimeLoRead (s : State) : Out := hostReg .sysOptimeLoRead latchOptime s

/-! ### The values of the status registers -/

/-- One bit per compare pair that satisfies p. -/
def pairBits (s : State) (p : PState → Bool) : Nat := ((List.range 8).map (fun k => flag (p (getPair s k)) k)).sum

/-- STAT_DUAL (R320). -/
def statDual (s : State) : Nat :=
  2 ^ 24 * s.scan.dualFault.toNat + 65536 * pairBits s (· == .verifying) +
    256 * pairBits s (fun x => x == .joining || x == .splitting) + pairBits s (· == .joined)

/-- STAT_NET_PORT (R267). -/
def statNetPort (s : State) (p : Nat) : Nat :=
  let r := portRec s p
  let x := getPort s p
  let mode := if isLine r then 1 else if isRing r then 2 else if isTimeLink r then 3 else 0
  flag x.linkUp 31 + flag (s.net.cycling && (mode == 1 || mode == 2)) 30 + 2 ^ 28 * mode + flag s.net.haltAll 27 +
    flag (getPort s (lineKey s p)).broken 26 + admittedOn s (lineKey s p)

/-- The registers of one network port at 0x0240 + 0x10 × p (R267). -/
def netRegister (s : State) (p i : Nat) : Nat :=
  let x := getPort s p
  match i with
  | 0 => statNetPort s p
  | 1 => 2 ^ 24 * x.fcs + 65536 * x.foreign + 256 * x.late + x.overflow
  | 2 => 65536 * x.duplicate + x.missing
  | _ => 0

/-- STAT_TIME (R267). -/
def statTime (s : State) : Nat :=
  2 ^ 30 * s.net.source + 2 ^ 28 * s.net.tb.code + 2 ^ 26 * s.net.tlPort + (BitVec.ofInt 16 s.net.offset).toNat

/-- STAT_PAIR (R352). -/
def statPair (s : State) : Nat :=
  2 ^ 30 * s.dev.role.code + 2 ^ 28 * s.pair.line + flag s.pair.linkUp 27 + 2 ^ 25 * lanesUp s + flag s.pair.sideB 24 +
    flag (eligibleShown s) 23 + flag s.pair.peerFault 22 + flag s.pair.member 21 + satTo 1023 s.pair.deltaKib

/-- STAT_ENERGY (R378). -/
def statEnergy (s : State) : Nat :=
  let e := s.energy
  2 ^ 21 * satTo 2047 (e.average / 10) + 2 ^ 19 * e.cls + flag e.energyOver 18 + flag e.short 17 + flag (e.cap != 0) 16 +
    2 ^ 14 * s.dev.stage + flag e.cellLow 13 + flag e.cellAbsent 12 + flag e.sealMissing 11 +
    flag (s.scan.engines.any (·.parked)) 10

/-- STAT_CAL (R412). The temperature is rounded to the nearest °C, a half upwards (log entry 20). -/
def statCal (s : State) : Nat :=
  let c := s.cal
  flag c.valid 31 + flag c.suspect 30 + flag c.alarm1.flag 29 + flag c.alarm0.flag 28 + flag (c.hold != 0) 27 +
    flag c.hostCurve 26 + flag c.pendingSet.isSome 25 + 256 * (BitVec.ofInt 9 c.n).toNat +
    (BitVec.ofInt 8 ((c.temp + 2) / 4)).toNat

/-- The STAT_ and ERR_ registers and the watchdog's status, by BAR0 offset. -/
def statRegister (s : State) (off : Nat) : Nat :=
  match off with
  | 0x220 => 65536 * poolFree s + residentFrames s
  | 0x224 => 65536 * s.mem.refetches + 256 * s.mem.rebuilds + s.mem.losts
  | 0x230 => flag s.chg.tracing 31 + flag s.chg.reverse 30 + s.chg.traced.length
  | 0x280 => statTime s
  | 0x290 => statDual s
  | 0x294 => 65536 * s.scan.mismatches + 256 * s.scan.verifyFails
  | 0x2A0 => statPair s
  | 0x2A4 => 2 ^ 24 * s.pair.takeovers + 65536 * s.pair.handovers + 256 * s.pair.linkLosses + s.pair.syncs
  | 0x2B0 => statEnergy s
  | 0x2B4 => 2 ^ 18 * (s.energy.limit / 1024) + 16 * ((dirtyBytes s + 1023) / 1024)
  | 0x2B8 => 65536 * satTo 65535 (s.energy.avail / 1000000) + s.energy.v
  | 0x2C0 => statCal s
  | 0x2D4 => s.regs.statLog.toNat
  | 0x2E0 => statSec s
  | 0x2F0 => statFioIn s
  | 0x2F4 => statFio s
  | 0x2F8 => statFioFault s
  | 0x300 => errCeCount s
  | 0x304 => errUeCount s
  | 0x308 => errBucket s
  | 0x30C => errLast s
  | 0x404 => wdgHostStatus s
  | _ => 0

/-- SYS_, FEAT_, INT_ and URG_ registers, by BAR0 offset (R533 to R537, R56, R155 to R157). -/
def sysRegister (s : State) (off : Nat) : Nat :=
  match off with
  | 0x000 => 0x64404201
  | 0x004 => 65536 * stateFlags s + 256 * s.dev.role.code + s.dev.st.code
  | 0x008 => runningGen s
  | 0x00C => s.pair.epoch
  | 0x014 => s.regs.tickHi
  | 0x01C => s.regs.optimeHi
  | 0x100 => (featWord 0).toNat
  | 0x104 => (featWord 1).toNat
  | 0x108 => (featWord 2).toNat
  | 0x10C => (featWord 3).toNat
  | 0x600 =>
    flag s.regs.devEnable 31 + 2 ^ 24 * s.regs.devVector + flag s.regs.errEnable 23 + 65536 * s.regs.errVector
  | 0x604 => s.regs.mask.toNat
  | 0x608 => s.regs.cause.toNat
  | 0x610 => s.regs.ringErr.toNat % 2 ^ 32
  | 0x614 => s.regs.ringErr.toNat / 2 ^ 32
  | 0x804 => 65536 * s.host.keyErrors + 256 * s.host.urgSeq + s.host.urgStatus
  | _ => 0

/-- The registers of a command ring (R26). -/
def cqRegister (q : CqRing) (i : Nat) : Nat :=
  match i with
  | 0 => 4096 * q.baseLo
  | 1 => q.baseHi
  | 2 => 65536 * q.kq + 256 * q.sizeLog2 + flag q.enable 0
  | 3 => q.pi
  | 4 => q.ci
  | 5 => 65536 * q.heldDrops + 16 * q.error + flag q.running 0
  | _ => 0

/-- The registers of a completion ring (R26). -/
def kqRegister (q : KqRing) (i : Nat) : Nat :=
  match i with
  | 0 => 4096 * q.baseLo
  | 1 => q.baseHi
  | 2 => flag q.intEnable 24 + 65536 * q.vector + 256 * q.sizeLog2 + flag q.enable 0
  | 3 => q.head
  | 4 => flag q.phase 12 + q.tail
  | 5 => 256 * q.irqTime + q.irqCount
  | 6 => 16 * q.error + flag q.running 0
  | _ => 0

/-- The dword of BAR0 at an aligned offset, and the state after its read (R531). SYS_TICK_LO, SYS_OPTIME_LO and STAT_LOG_SEQ
latch their second words. -/
def readReg (off : Nat) (s : State) : Word × State :=
  if off = 0x10 then (BitVec.ofNat 32 s.dev.tick, latchTick s)
  else if off = 0x18 then (BitVec.ofNat 32 (optimeMs s), latchOptime s)
  else if off = 0x2D0 then (BitVec.ofNat 32 (newestSeq s), latchLogSeq s)
  else
    let v :=
      if off < 0x200 then sysRegister s off
      else if 0x240 ≤ off ∧ off < 0x280 then netRegister s ((off - 0x240) / 16) (off % 16 / 4)
      else if 0x420 ≤ off ∧ off < 0x480 then evidenceWord (evidenceOf s ((off - 0x420) / 32)) (off % 32 / 4)
      else if off < 0x600 then statRegister s off
      else if off < 0x1000 then sysRegister s off
      else if off < 0x1800 then cqRegister (getCq s ((off - 0x1000) / 32)) (off % 32 / 4)
      else if off < 0x2000 then kqRegister (getKq s ((off - 0x1800) / 32)) (off % 32 / 4)
      else if off < 0x2800 then (msixWord s (off - 0x2000)).toNat
      else if off < 0x2810 then s.regs.pba.toNat / 2 ^ (8 * (off - 0x2800)) % 2 ^ 32
      else 0
    (BitVec.ofNat 32 v, s)

/-- A read of n bytes of BAR0 from an offset (R531): each dword that it touches as if read separately, ascending, and the bytes. -/
def readBar0 (off n : Nat) (s : State) : Bytes × State :=
  let first := off / 4
  let r := (List.range ((off + n + 3) / 4 - first)).foldl (fun (a : Bytes × State) i =>
    let x := readReg (4 * (first + i)) a.2
    (a.1 ++ leBytes 4 x.1.toNat, x.2)) ([], s)
  (slice r.1 (off % 4) n, r.2)

/-! ### BAR2 (R532, R540, R541) -/

/-- The entry of slot i in the image view, with bytes 5 to 7 as SNAPSHOT_READ gives them (R90, R93, R540). -/
def viewEntry (s : State) (i : Nat) : Bytes :=
  match look s.img.view i with
  | some (w, t) => entry w (tickTail t)
  | none => entry TWord.empty 0

/-- The byte of BAR2 at an offset: the image view, the descriptor view, the task view, the station view; a reserved offset reads
as 0. -/
def bar2Byte (s : State) (off : Nat) : Byte :=
  if off < 0x200000 then b8 (byteAt (viewEntry s (off / 8)) (off % 8))
  else if off < 0x600000 then
    let i := (off - 0x200000) / 16
    b8 (byteAt (descBytes (descOf s i) (forceOf s i).isSome) (off % 16))
  else if off < 0x601000 then b8 (byteAt ((look s.scan.taskView ((off - 0x600000) / 64)).getD []) (off % 64))
  else if off < 0x605000 then b8 (byteAt ((look s.net.stationView ((off - 0x601000) / 16)).getD []) (off % 16))
  else 0

/-- A read of n bytes of BAR2 from an offset. It changes nothing; an aligned one of 4 or 8 bytes is one dword or entry of one
state, and a longer one lies within one state of the model too (R532). -/
def readBar2 (off n : Nat) (s : State) : Bytes := (List.range n).map (fun i => bar2Byte s (off + i))

/-- A write to BAR2 is discarded (R532). -/
def writeBar2 (_off : Nat) (_b : Bytes) (s : State) : State := s

/-! ### Writes (R531) -/

/-- A write to a register of a command ring. -/
def writeCqReg (n i : Nat) (v : Word) (s : State) : State :=
  match i with
  | 0 => writeCqBase n false v s
  | 1 => writeCqBase n true v s
  | 2 => drain (writeCqCtrl n v s)
  | 3 => drain (writeCqPi n v s)
  | _ => s

/-- A write to a register of a completion ring. -/
def writeKqReg (n i : Nat) (v : Word) (s : State) : State :=
  match i with
  | 0 => writeKqBase n false v s
  | 1 => writeKqBase n true v s
  | 2 => writeKqCtrl n v s
  | 3 => writeKqHead n v s
  | 5 => writeKqIrq n v s
  | _ => s

/-- An aligned 4-byte write to BAR0. Every other offset is read-only or reserved, and the write is discarded. -/
def writeReg (off : Nat) (v : Word) (s : State) : State :=
  match off with
  | 0x290 => writeStatDual v s
  | 0x2C0 => writeStatCal v s
  | 0x308 => clearBucket (v.getLsbD 30) s
  | 0x400 => writeWdgService v s
  | 0x600 => writeIntCtrl v s
  | 0x604 => writeIntMask v s
  | 0x608 => writeIntCause v s
  | 0x800 => writeUrg v s
  | _ =>
    if 0x1000 ≤ off ∧ off < 0x1800 then writeCqReg ((off - 0x1000) / 32) (off % 32 / 4) v s
    else if 0x1800 ≤ off ∧ off < 0x2000 then writeKqReg ((off - 0x1800) / 32) (off % 32 / 4) v s
    else if 0x2000 ≤ off ∧ off < 0x2800 then writeMsix (off - 0x2000) v s
    else s

/-- A write takes effect only as a naturally aligned 4-byte write. -/
def storeReg (off size : Nat) (v : Word) (s : State) : State :=
  if size = 4 ∧ off % 4 = 0 ∧ off < 65536 then writeReg off v s else s

def execRegisterWrite (off size : Nat) (v : Word) (s : State) : Out :=
  hostReg (.registerWrite off size v) (storeReg off size v) s

end Sys2Proof.Machine
end

