-- ==== Sys2Proof/Machine/Debug.lean ====
section
/-! DEFINITION. The debug port (R465 to R470): the access it gives, the challenge and its response, DBG_ACCESS, EXTEST and the
reset of the TAP. -/

namespace Sys2Proof.Machine

/-- The kinds of access of R466. -/
inductive TapAccess where
  | full | challenge | boundary | identity | forcedOff
  deriving DecidableEq, Repr

/-- The access in the present lifecycle, level and power state (R470). -/
def tapAccess (s : State) : TapAccess :=
  if s.dev.st == .off || s.dev.st == .retain || s.dev.st == .holdup || !s.sec.shadows then .forcedOff
  else
    match debugLevel s with
    | 0 => .full
    | 1 => if s.sec.grant.isSome then .full else .challenge
    | 2 => .boundary
    | _ => .identity

/-- The access honours an instruction of R465. -/
def TapAccess.honours (k : TapAccess) (ir : Byte) : Bool :=
  match k with
  | .full => true
  | .challenge => ir == 0x10 || ir == 0x11
  | .boundary => ir == 0x00
  | .identity => false
  | .forcedOff => false

/-- A TAP instruction comes into force; one that the access does not honour is decoded as BYPASS, and the forced-off TAP stays
in reset (R465, R466). EXTEST ends with any other instruction. -/
def selectIr (ir : Byte) (s : State) : State :=
  match tapAccess s with
  | .forcedOff => tapToReset s
  | k =>
    let i := if k.honours ir then ir else 0xFF
    let s1 := onSec (fun c => { c with tlr := false, ir := i }) s
    if i = 0x00 then s1 else leaveExtest s.dev.st s1

/-! ### Challenge and response (R468) -/

/-- The 256-bit challenge register. -/
def challengeBits (nonce : BitVec 128) (s : State) : BitVec 256 :=
  BitVec.ofNat 256
    (nonce.toNat + 2 ^ 128 * (fuseWord s 4).toNat + 2 ^ 160 * lifecycle s + 2 ^ 168 * debugLevel s + 2 ^ 176 * s.sec.tapOutcome)

/-- Selecting DBG_CHALLENGE issues a nonce. -/
def execDbgChallenge (random : BitVec 128) (s : State) : Out :=
  let s1 := selectIr 0x10 s
  finish s
    (if s1.sec.ir = 0x10 then onSec (fun c => { c with challenge := challengeBits random s1 }) (issueNonce random s1) else s1)

/-- The DEBUG_UNLOCK that a DBG_RESPONSE register of 136 bytes stands for. -/
def responseRequest (dr : Bytes) (s : State) : Request :=
  { origin := .tap, time := s.dev.now, flags := 2, count := 3, cookie := 0, addr := 0, len := 0,
    params := sliceZ (sliceZ dr 128 8) 0 48, payload := [], object := [], auth := sliceZ dr 0 128 }

def setOutcome (n : Nat) : State → State := onSec (fun c => { c with tapOutcome := n })

/-- The verification at Update-DR, as a DEBUG_UNLOCK; the device state does not limit it, because R470 gives access C in RECOVERY
too (log entry 21). In BLANK no authorization is required, so the block that a response always carries gives BAD_PARAM (R463). A
response that relocks has no outcome in R468: a free value (log entry 3). -/
def respond (r : Request) (s : State) : State :=
  let c := cmdDebugUnlock
  if !enforced s then setOutcome 3 s
  else if !c.shape r || !zeroFrom r.params 8 48 || (c.range r s).isSome then setOutcome 3 s
  else if unlockGrant r = 0 then
    let (d, s2) := draw 8 (closeGrant s)
    setOutcome d.toNat s2
  else if enforced s && (tokenFails s c.op r.params r.auth none || !zeroFrom r.auth 2 8 || !zeroFrom r.auth 24 32) then
    setOutcome 2 (recordAuthFailed (byteAt r.auth 0) c.op s)
  else setOutcome 1 (c.effect r (useNonce s)).2

/-- An Update-DR of DBG_RESPONSE. -/
def execDbgResponse (dr : Bytes) (s : State) : Out :=
  let s1 := selectIr 0x11 s
  finish s (if s1.sec.ir = 0x11 then respond (responseRequest dr s1) s1 else s1)

/-! ### DBG_ACCESS (R467) -/

/-- The observe and control grants; at level OPEN both are implied. -/
def mayObserve (s : State) : Bool :=
  debugLevel s == 0 || (match s.sec.grant with
    | some (o, _, _) => o
    | none => false)

/-- Writes and control: the grant, in the states that R467 names. -/
def mayControl (s : State) : Bool :=
  s.dev.st.honoursExtest &&
    (debugLevel s == 0 || (match s.sec.grant with
      | some (_, c, _) => c
      | none => false))

/-- The outcome that the next Capture-DR returns: 0 done, 1 busy, 2 refused, 3 error, with the data read. -/
def dbgResult (status : Nat) (data : BitVec 40) : State → State := onSec (fun c => { c with dbgStatus := status, dbgData := data })

/-- Size of the spaces 0 to 4 in words (R14, R467). The local stores stand one after another by engine (log entry 22). -/
def dbgSize (space : Nat) : Nat :=
  match space with
  | 0 => 4194304
  | 1 | 2 => 262144
  | 3 => 262144
  | 4 => 65536
  | _ => 0

/-- A word of a local store; one that nothing has written is a free value that then stays (R138, log entry 3). -/
def dbgLocal (addr : Nat) (s : State) : BitVec 40 × State :=
  match look (getEng s (addr / 16384)).loc (addr % 16384) with
  | some w => (w.bits, s)
  | none =>
    let (v, t) := draw 40 s
    ((TWord.ofBits v).bits,
      onEng (addr / 16384) (fun g => { g with loc := insertAt g.loc (addr % 16384) (TWord.ofBits v) }) t)

/-- The word at an address of a space, in its range. DDR and MRAM have no layout in the spec: what stands at an address is a free
value (log entry 22). -/
def dbgWord (space addr : Nat) (s : State) : BitVec 40 × State :=
  match space with
  | 0 => ((readPhys s addr).bits, s)
  | 1 => ((liveWord s addr).bits, s)
  | 2 => ((snapWord s addr).1.bits, s)
  | 3 => dbgLocal addr s
  | 4 => (BitVec.ofNat 40 (readAt 0#16 s.mem.legacy addr).toNat, s)
  | 5 => let r := readReg addr s; (r.1.setWidth 40, r.2)
  | _ => draw 40 s

/-- An address that a space has: words of spaces 0 to 4, aligned BAR0 offsets, DDR and MRAM bytes. -/
def dbgHas (space addr : Nat) : Bool :=
  match space with
  | 5 => decide (addr < 65536 ∧ addr % 4 = 0)
  | 6 => decide (addr < 2 ^ 30 * (Config.ddrGib.val + 1))
  | 7 => decide (addr < 2 ^ 25)
  | n => decide (addr < dbgSize n)

/-- A read operation: refused without the observe grant, an error at an address that does not exist. -/
def execDbgAccessRead (space : Fin 16) (addr : Nat) (s : State) : Out :=
  let s1 := selectIr 0x20 s
  finish s
    (if s1.sec.ir ≠ 0x20 then s1
    else if !mayObserve s1 then dbgResult 2 0 s1
    else if !dbgHas space.val addr then dbgResult 3 0 s1
    else let r := dbgWord space.val addr s1; dbgResult 0 r.1 r.2)

/-- Debug writes are not mirrored (R467). -/
def unmirrored (f : State → State) (s : State) : State :=
  let t := f s
  onPair (fun p => { p with changed := s.pair.changed }) t

/-- The write of a word; nothing checks its type, and no tracer marks it (R467). -/
def dbgPut (space addr : Nat) (data : BitVec 40) (s : State) : State :=
  let w := TWord.ofBits data
  match space with
  | 0 => (writePhys true addr w s).2
  | 1 => setLive addr w s
  | 2 => onImg (fun i => { i with snap := insertAt i.snap addr (w, (snapWord s addr).2) }) s
  | 3 => onEng (addr / 16384) (fun g => { g with loc := insertAt g.loc (addr % 16384) w }) s
  | 4 => setLegacy addr (data.setWidth 16) s
  | 5 => writeReg addr (data.setWidth 32) s
  | _ => s

/-- A write operation. -/
def execDbgAccessWrite (space : Fin 16) (addr : Nat) (data : BitVec 40) (s : State) : Out :=
  let s1 := selectIr 0x20 s
  finish s
    (if s1.sec.ir ≠ 0x20 then s1
    else if !mayControl s1 then dbgResult 2 0 s1
    else if !dbgHas space.val addr then dbgResult 3 0 s1
    else dbgResult 0 0 (if space.val = 5 then dbgPut 5 addr data s1 else unmirrored (dbgPut space.val addr data) s1))

/-- Halt [0], step by one instruction [1], resume [2], in this order (log entry 22). -/
def controlEngine (data : BitVec 40) (g : Engine) : Engine :=
  let g1 := if data.getLsbD 0 then { g with halted := true, stepOne := false } else g
  let g2 := if data.getLsbD 1 && g1.halted then { g1 with stepOne := true } else g1
  if data.getLsbD 2 then { g2 with halted := false, stepOne := false } else g2

/-- The service core is held by a halt and released by a resume; a single step of it is firmware's own (R467). -/
def controlCore (data : BitVec 40) (c : Security) : Security :=
  let held := c.coreHeld || data.getLsbD 0
  { c with coreHeld := held && !data.getLsbD 2 }

/-- A control operation on an engine or on the service core. -/
def execDbgAccessControl (space : Fin 16) (addr : Nat) (data : BitVec 40) (s : State) : Out :=
  let s1 := selectIr 0x20 s
  finish s
    (if s1.sec.ir ≠ 0x20 then s1
    else if !mayControl s1 then dbgResult 2 0 s1
    else if space.val = 8 ∧ addr < 16 then dbgResult 0 0 (onEng addr (controlEngine data) s1)
    else if space.val = 9 ∧ addr = 0 then dbgResult 0 0 (whenB (data.getLsbD 0 && !data.getLsbD 2) holdTimebase (onSec (controlCore data) s1))
    else dbgResult 3 0 s1)

/-! ### EXTEST and the TAP's reset (R379, R465, R466) -/

/-- EXTEST sets halt_all and holds the field outputs off while it is in force; in a state that does not honour it, it is decoded
as BYPASS. -/
def execExtest (enter : Bool) (s : State) : Out :=
  if enter then
    let s1 := selectIr (if s.dev.st.honoursExtest then 0x00 else 0xFF) s
    finish s
      (if s1.sec.ir = 0x00 && !s1.sec.tlr then
        onNet (fun n => { n with haltExtest := true }) (setHaltAll (onSec (fun c => { c with extest := true }) s1))
      else s1)
  else finish s (selectIr 0xFF s)

/-- TRST_N low, or Test-Logic-Reset: only the TAP is reset. -/
def execTapReset (s : State) : Out := finish s (tapToReset s)

end Sys2Proof.Machine
end

