-- ==== Sys2Proof/Machine/HostWrites.lean ====
section
/-! DEFINITION. The ring registers as the host writes them, URG_COMMAND, and what waits while the endpoint withholds
posted-write credits: it goes on in order once the urgent queue has an entry free (R18, R19, R26 to R30, R54). -/

namespace Sys2Proof.Machine

/-- The write of enable = 1 to a disabled command ring (R28). -/
def enableCq (n : Nat) (ctrl : Word) (s : State) : State :=
  if !(getCq s n).enable && ctrl.getLsbD 0 then writeCqCtrl n ctrl s else s

/-- The write of enable = 0 to an enabled command ring (R28). A doorbell of CQ0 that waits has no entries to serve any more. -/
def disableCq (n : Nat) (ctrl : Word) (s : State) : State :=
  if (getCq s n).enable && !ctrl.getLsbD 0 then drain (writeCqCtrl n ctrl s) else s

/-- The write of enable = 1 to a disabled completion ring (R28). -/
def enableKq (n : Nat) (ctrl : Word) (s : State) : State :=
  if !(getKq s n).enable && ctrl.getLsbD 0 then writeKqCtrl n ctrl s else s

/-- The write of enable = 0 to an enabled completion ring (R28). -/
def disableKq (n : Nat) (ctrl : Word) (s : State) : State :=
  if (getKq s n).enable && !ctrl.getLsbD 0 then writeKqCtrl n ctrl s else s

/-- A doorbell, after which what waits behind a stopped CQ0 goes on (R29, R30, R54). -/
def doorbellWrite (n : Nat) (v : Word) (s : State) : State := drain (writeCqPi n v s)

/-- Arming a completion ring's interrupt (R42): a write of RING_KQ_HEAD with arm = 1. -/
def armKq (n : Nat) (v : Word) (s : State) : State := writeKqHead n (v ||| 0x80000000#32) s

/-- What an access to BAR0 that waited for credit does at its turn (R19). -/
def hostWrite (i : Instr) (s : State) : State :=
  match i with
  | .ringCqEnable n v => enableCq n.val v s
  | .ringCqDisable n v => disableCq n.val v s
  | .ringKqEnable n v => enableKq n.val v s
  | .ringKqDisable n v => disableKq n.val v s
  | .ringCqPi n v => doorbellWrite n.val v s
  | .ringKqHead n v => writeKqHead n.val v s
  | .arm n v => armKq n.val v s
  | .wdgService v => writeWdgService v s
  | .statDualFaultClear v => writeStatDual v s
  | .statCalAlarmClear v => writeStatCal v s
  | .errBucketClear v => clearBucket (v.getLsbD 30) s
  | .intCauseClear v => writeIntCause v s
  | .intCtrl v => writeIntCtrl v s
  | .intMask v => writeIntMask v s
  | .msixTableWrite off v => storeMsix off v s
  | .statLogSeqRead => latchLogSeq s
  | .sysTickLoRead => latchTick s
  | .sysOptimeLoRead => latchOptime s
  | .registerWrite off size v => storeReg off size v s
  | .urgCommand v _ => writeUrg v s
  | _ => s

/-- What waits for credit goes on in order, as long as the urgent queue has an entry free (R19). -/
def releaseWithheld : List Instr → State → State
  | [], s => s
  | i :: r, s =>
    if 16 ≤ urgentWrites s then onHost (fun h => { h with withheld := i :: r }) s
    else releaseWithheld r (hostWrite i (onHost (fun h => { h with withheld := [] }) s))

/-- The hardware command processor has taken entries: the urgent queue is served as far as it goes, and credit returns (R19, R54). -/
def drainAll (s : State) : State := releaseWithheld (drain s).host.withheld (drain s)

def execRingCqEnable (n : Fin 64) (ctrl : Word) (s : State) : Out := hostReg (.ringCqEnable n ctrl) (enableCq n.val ctrl) s
def execRingCqDisable (n : Fin 64) (ctrl : Word) (s : State) : Out := hostReg (.ringCqDisable n ctrl) (disableCq n.val ctrl) s
def execRingKqEnable (n : Fin 64) (ctrl : Word) (s : State) : Out := hostReg (.ringKqEnable n ctrl) (enableKq n.val ctrl) s
def execRingKqDisable (n : Fin 64) (ctrl : Word) (s : State) : Out := hostReg (.ringKqDisable n ctrl) (disableKq n.val ctrl) s
def execRingCqPi (n : Fin 64) (v : Word) (s : State) : Out := hostReg (.ringCqPi n v) (doorbellWrite n.val v) s
def execRingKqHead (n : Fin 64) (v : Word) (s : State) : Out := hostReg (.ringKqHead n v) (writeKqHead n.val v) s
def execArm (n : Fin 64) (v : Word) (s : State) : Out := hostReg (.arm n v) (armKq n.val v) s
def execUrgCommand (v : Word) (time : Nat) (s : State) : Out :=
  hostReg (.urgCommand v time) (writeUrg v) (advance time s)

/-- The hardware command processor reads a published CQ0 entry at the doorbell's place in the order (R54). -/
def execCq0DescriptorTake (rd : HostRead) (s : State) : Out :=
  let s1 := advance rd.time s
  finish s
    (if served (.ring 0) s1 && cq0Ready s1 && s1.host.urgent.head? == some none then drainAll (takeCq0 rd s1) else s1)

/-! ### The reset of the host interface (R381, R539) -/

/-- What a reset of the host interface resets: the rings, the MSI-X table and the interrupt enables. Descriptors published and not
taken, completions held and urgent writes accepted stay; with the error codes of the rings the bits of INT_RING_ERR go (R537). -/
def resetHostIf (s : State) : State :=
  onRegs (fun r => { r with devEnable := false, errEnable := false, msix := [], functionMask := false, pba := 0, ringErr := 0 })
    (onHost (fun h =>
      { h with cq := h.cq.map (fun _ => CqRing.reset)
               kq := h.kq.map (fun q => { KqRing.reset with mem := q.mem, written := q.written })
               doorbells := [], urgent := h.urgent.filter (·.isSome), cq0Upto := none }) s)

/-- The host interface is reset; the urgent writes that waited behind a doorbell of CQ0 go on. -/
def execHostInterfaceReset (s : State) : Out := finish s (if hostAccess s then drainAll (resetHostIf s) else s)

/-! ### The end of a switch window (R227, R229) -/

def execSwitchWindowEnd (time : Nat) (s : State) : Out :=
  finish s (if s.chg.window.isSome then drainAll (wdgAfterWindow (endWindow (advance time s))) else s)

end Sys2Proof.Machine
end

