-- ==== Sys2Proof/Machine/Snc.lean ====
section
/-! DEFINITION. The meanings of the Synna Code instructions (R168 to R190): each is one instruction executed by one engine, under
the plan that PlanOps.lean gives it. An engine that runs no activation executes nothing. -/

namespace Sys2Proof.Machine

/-! ### Arithmetic (R168) -/

def execAdd (e : Fin 16) (f : LForm) (s : State) : Out :=
  finish s (runInstr e.val (.add e f) s)
def execSub (e : Fin 16) (f : LForm) (s : State) : Out :=
  finish s (runInstr e.val (.sub e f) s)
def execMul (e : Fin 16) (f : LForm) (s : State) : Out :=
  finish s (runInstr e.val (.mul e f) s)
def execDiv (e : Fin 16) (f : LForm) (s : State) : Out :=
  finish s (runInstr e.val (.div e f) s)
def execMod (e : Fin 16) (f : LForm) (s : State) : Out :=
  finish s (runInstr e.val (.mod e f) s)
def execNeg (e : Fin 16) (f : LForm) (s : State) : Out :=
  finish s (runInstr e.val (.neg e f) s)
def execAbs (e : Fin 16) (f : LForm) (s : State) : Out :=
  finish s (runInstr e.val (.abs e f) s)
def execMin (e : Fin 16) (f : LForm) (s : State) : Out :=
  finish s (runInstr e.val (.min e f) s)
def execMax (e : Fin 16) (f : LForm) (s : State) : Out :=
  finish s (runInstr e.val (.max e f) s)
def execLim (e : Fin 16) (f : LForm) (s : State) : Out :=
  finish s (runInstr e.val (.lim e f) s)
def execAddi (e : Fin 16) (f : IForm) (s : State) : Out :=
  finish s (runInstr e.val (.addi e f) s)
def execMuli (e : Fin 16) (f : IForm) (s : State) : Out :=
  finish s (runInstr e.val (.muli e f) s)
def execSqrt (e : Fin 16) (f : LForm) (s : State) : Out :=
  finish s (runInstr e.val (.sqrt e f) s)
def execLn (e : Fin 16) (f : LForm) (s : State) : Out :=
  finish s (runInstr e.val (.ln e f) s)
def execExp (e : Fin 16) (f : LForm) (s : State) : Out :=
  finish s (runInstr e.val (.exp e f) s)
def execSin (e : Fin 16) (f : LForm) (s : State) : Out :=
  finish s (runInstr e.val (.sin e f) s)
def execCos (e : Fin 16) (f : LForm) (s : State) : Out :=
  finish s (runInstr e.val (.cos e f) s)
def execAtan2 (e : Fin 16) (f : LForm) (s : State) : Out :=
  finish s (runInstr e.val (.atan2 e f) s)

/-! ### Comparison (R173) -/

def execEq (e : Fin 16) (f : LForm) (s : State) : Out :=
  finish s (runInstr e.val (.eq e f) s)
def execNe (e : Fin 16) (f : LForm) (s : State) : Out :=
  finish s (runInstr e.val (.ne e f) s)
def execLt (e : Fin 16) (f : LForm) (s : State) : Out :=
  finish s (runInstr e.val (.lt e f) s)
def execLe (e : Fin 16) (f : LForm) (s : State) : Out :=
  finish s (runInstr e.val (.le e f) s)
def execGt (e : Fin 16) (f : LForm) (s : State) : Out :=
  finish s (runInstr e.val (.gt e f) s)
def execGe (e : Fin 16) (f : LForm) (s : State) : Out :=
  finish s (runInstr e.val (.ge e f) s)
def execUnord (e : Fin 16) (f : LForm) (s : State) : Out :=
  finish s (runInstr e.val (.unord e f) s)
def execCeqi (e : Fin 16) (f : IForm) (s : State) : Out :=
  finish s (runInstr e.val (.ceqi e f) s)
def execClti (e : Fin 16) (f : IForm) (s : State) : Out :=
  finish s (runInstr e.val (.clti e f) s)
def execCgti (e : Fin 16) (f : IForm) (s : State) : Out :=
  finish s (runInstr e.val (.cgti e f) s)

/-! ### Bit and logic (R174) -/

def execAnd (e : Fin 16) (f : LForm) (s : State) : Out :=
  finish s (runInstr e.val (.and e f) s)
def execOr (e : Fin 16) (f : LForm) (s : State) : Out :=
  finish s (runInstr e.val (.or e f) s)
def execXor (e : Fin 16) (f : LForm) (s : State) : Out :=
  finish s (runInstr e.val (.xor e f) s)
def execNot (e : Fin 16) (f : LForm) (s : State) : Out :=
  finish s (runInstr e.val (.not e f) s)
def execAndn (e : Fin 16) (f : LForm) (s : State) : Out :=
  finish s (runInstr e.val (.andn e f) s)
def execShl (e : Fin 16) (f : LForm) (s : State) : Out :=
  finish s (runInstr e.val (.shl e f) s)
def execShr (e : Fin 16) (f : LForm) (s : State) : Out :=
  finish s (runInstr e.val (.shr e f) s)
def execSar (e : Fin 16) (f : LForm) (s : State) : Out :=
  finish s (runInstr e.val (.sar e f) s)
def execRol (e : Fin 16) (f : LForm) (s : State) : Out :=
  finish s (runInstr e.val (.rol e f) s)
def execRor (e : Fin 16) (f : LForm) (s : State) : Out :=
  finish s (runInstr e.val (.ror e f) s)
def execPopc (e : Fin 16) (f : LForm) (s : State) : Out :=
  finish s (runInstr e.val (.popc e f) s)
def execClz (e : Fin 16) (f : LForm) (s : State) : Out :=
  finish s (runInstr e.val (.clz e f) s)
def execAndi (e : Fin 16) (f : IForm) (s : State) : Out :=
  finish s (runInstr e.val (.andi e f) s)
def execOri (e : Fin 16) (f : IForm) (s : State) : Out :=
  finish s (runInstr e.val (.ori e f) s)
def execXori (e : Fin 16) (f : IForm) (s : State) : Out :=
  finish s (runInstr e.val (.xori e f) s)
def execBtst (e : Fin 16) (f : LForm) (s : State) : Out :=
  finish s (runInstr e.val (.btst e f) s)
def execBset (e : Fin 16) (f : LForm) (s : State) : Out :=
  finish s (runInstr e.val (.bset e f) s)
def execBclr (e : Fin 16) (f : LForm) (s : State) : Out :=
  finish s (runInstr e.val (.bclr e f) s)
def execBput (e : Fin 16) (f : LForm) (s : State) : Out :=
  finish s (runInstr e.val (.bput e f) s)

/-! ### Moves, constants and selection (R175) -/

def execMov (e : Fin 16) (f : LForm) (s : State) : Out :=
  finish s (runInstr e.val (.mov e f) s)
def execSel (e : Fin 16) (f : LForm) (s : State) : Out :=
  finish s (runInstr e.val (.sel e f) s)
def execLdi (e : Fin 16) (f : WForm) (s : State) : Out :=
  finish s (runInstr e.val (.ldi e f) s)
def execLui (e : Fin 16) (f : WForm) (s : State) : Out :=
  finish s (runInstr e.val (.lui e f) s)
def execLdd (e : Fin 16) (f : WForm) (s : State) : Out :=
  finish s (runInstr e.val (.ldd e f) s)

/-! ### Type, quality and conversion (R176 to R178) -/

def execTypeof (e : Fin 16) (f : LForm) (s : State) : Out :=
  finish s (runInstr e.val (.typeof e f) s)
def execQualof (e : Fin 16) (f : LForm) (s : State) : Out :=
  finish s (runInstr e.val (.qualof e f) s)
def execIsgood (e : Fin 16) (f : LForm) (s : State) : Out :=
  finish s (runInstr e.val (.isgood e f) s)
def execFlags (e : Fin 16) (f : LForm) (s : State) : Out :=
  finish s (runInstr e.val (.flags e f) s)
def execIsempty (e : Fin 16) (f : LForm) (s : State) : Out :=
  finish s (runInstr e.val (.isempty e f) s)
def execQset (e : Fin 16) (f : LForm) (s : State) : Out :=
  finish s (runInstr e.val (.qset e f) s)
def execQworse (e : Fin 16) (f : LForm) (s : State) : Out :=
  finish s (runInstr e.val (.qworse e f) s)
def execSubst (e : Fin 16) (f : LForm) (s : State) : Out :=
  finish s (runInstr e.val (.subst e f) s)
def execCvt (e : Fin 16) (fn : BitVec 6) (f : LForm) (s : State) : Out :=
  finish s (runInstr e.val (.cvt e fn f) s)
def execRaws (e : Fin 16) (f : LForm) (s : State) : Out :=
  finish s (runInstr e.val (.raws e f) s)
def execRawu (e : Fin 16) (f : LForm) (s : State) : Out :=
  finish s (runInstr e.val (.rawu e f) s)
def execSflg (e : Fin 16) (f : LForm) (s : State) : Out :=
  finish s (runInstr e.val (.sflg e f) s)
def execScale (e : Fin 16) (f : LForm) (s : State) : Out :=
  finish s (runInstr e.val (.scale e f) s)

/-! ### Memory and slot access (R179) -/

def execLd (e : Fin 16) (f : MForm) (s : State) : Out :=
  finish s (runInstr e.val (.ld e f) s)
def execSt (e : Fin 16) (f : MForm) (s : State) : Out :=
  finish s (runInstr e.val (.st e f) s)
def execLdsA (e : Fin 16) (f : WForm) (s : State) : Out :=
  finish s (runInstr e.val (.ldsA e f) s)
def execStsA (e : Fin 16) (f : WForm) (s : State) : Out :=
  finish s (runInstr e.val (.stsA e f) s)
def execLds (e : Fin 16) (f : LForm) (s : State) : Out :=
  finish s (runInstr e.val (.lds e f) s)
def execSts (e : Fin 16) (f : LForm) (s : State) : Out :=
  finish s (runInstr e.val (.sts e f) s)
def execLdsx (e : Fin 16) (f : LForm) (s : State) : Out :=
  finish s (runInstr e.val (.ldsx e f) s)
def execStsx (e : Fin 16) (f : LForm) (s : State) : Out :=
  finish s (runInstr e.val (.stsx e f) s)
def execSdesc (e : Fin 16) (f : LForm) (s : State) : Out :=
  finish s (runInstr e.val (.sdesc e f) s)

/-! ### Branches and calls (R180) -/

def execBr (e : Fin 16) (f : JForm) (s : State) : Out :=
  finish s (runInstr e.val (.br e f) s)
def execBt (e : Fin 16) (f : JForm) (s : State) : Out :=
  finish s (runInstr e.val (.bt e f) s)
def execBf (e : Fin 16) (f : JForm) (s : State) : Out :=
  finish s (runInstr e.val (.bf e f) s)
def execCall (e : Fin 16) (f : JForm) (s : State) : Out :=
  finish s (runInstr e.val (.call e f) s)
def execBe (e : Fin 16) (f : JForm) (s : State) : Out :=
  finish s (runInstr e.val (.be e f) s)
def execJr (e : Fin 16) (f : LForm) (s : State) : Out :=
  finish s (runInstr e.val (.jr e f) s)
def execCallr (e : Fin 16) (f : LForm) (s : State) : Out :=
  finish s (runInstr e.val (.callr e f) s)
def execRet (e : Fin 16) (f : LForm) (s : State) : Out :=
  finish s (runInstr e.val (.ret e f) s)

/-! ### Timers and counters (R182 to R185) -/

def execTon (e : Fin 16) (f : LForm) (s : State) : Out :=
  finish s (runInstr e.val (.ton e f) s)
def execTof (e : Fin 16) (f : LForm) (s : State) : Out :=
  finish s (runInstr e.val (.tof e f) s)
def execTp (e : Fin 16) (f : LForm) (s : State) : Out :=
  finish s (runInstr e.val (.tp e f) s)
def execCtu (e : Fin 16) (f : LForm) (s : State) : Out :=
  finish s (runInstr e.val (.ctu e f) s)
def execCtd (e : Fin 16) (f : LForm) (s : State) : Out :=
  finish s (runInstr e.val (.ctd e f) s)
def execCrst (e : Fin 16) (f : LForm) (s : State) : Out :=
  finish s (runInstr e.val (.crst e f) s)
def execCld (e : Fin 16) (f : LForm) (s : State) : Out :=
  finish s (runInstr e.val (.cld e f) s)
def execTmstart (e : Fin 16) (f : IForm) (s : State) : Out :=
  finish s (runInstr e.val (.tmstart e f) s)
def execTmstop (e : Fin 16) (f : IForm) (s : State) : Out :=
  finish s (runInstr e.val (.tmstop e f) s)

/-! ### Asynchronous sampling (R186) -/

def execTbread (e : Fin 16) (f : LForm) (s : State) : Out :=
  finish s (runInstr e.val (.tbread e f) s)
def execTbtick (e : Fin 16) (f : LForm) (s : State) : Out :=
  finish s (runInstr e.val (.tbtick e f) s)
def execRtct (e : Fin 16) (f : LForm) (s : State) : Out :=
  finish s (runInstr e.val (.rtct e f) s)
def execRtcd (e : Fin 16) (f : LForm) (s : State) : Out :=
  finish s (runInstr e.val (.rtcd e f) s)
def execLin (e : Fin 16) (f : LForm) (s : State) : Out :=
  finish s (runInstr e.val (.lin e f) s)

/-! ### Event raising (R187) -/

def execRaise (e : Fin 16) (f : IForm) (s : State) : Out :=
  finish s (runInstr e.val (.raise e f) s)
def execRaiser (e : Fin 16) (f : LForm) (s : State) : Out :=
  finish s (runInstr e.val (.raiser e f) s)
def execLogev (e : Fin 16) (f : LForm) (s : State) : Out :=
  finish s (runInstr e.val (.logev e f) s)

/-! ### Legacy operations (R188) -/

def execLdls (e : Fin 16) (f : MForm) (s : State) : Out :=
  finish s (runInstr e.val (.ldls e f) s)
def execStlq (e : Fin 16) (f : MForm) (s : State) : Out :=
  finish s (runInstr e.val (.stlq e f) s)
def execLbtst (e : Fin 16) (f : LForm) (s : State) : Out :=
  finish s (runInstr e.val (.lbtst e f) s)
def execLbput (e : Fin 16) (f : LForm) (s : State) : Out :=
  finish s (runInstr e.val (.lbput e f) s)
def execLbputq (e : Fin 16) (f : LForm) (s : State) : Out :=
  finish s (runInstr e.val (.lbputq e f) s)
def execLgon (e : Fin 16) (f : LForm) (s : State) : Out :=
  finish s (runInstr e.val (.lgon e f) s)
def execLgoff (e : Fin 16) (f : LForm) (s : State) : Out :=
  finish s (runInstr e.val (.lgoff e f) s)
def execLgcry (e : Fin 16) (f : LForm) (s : State) : Out :=
  finish s (runInstr e.val (.lgcry e f) s)
def execLgclr (e : Fin 16) (f : LForm) (s : State) : Out :=
  finish s (runInstr e.val (.lgclr e f) s)

/-! ### System (R189) -/

def execNop (e : Fin 16) (f : LForm) (s : State) : Out :=
  finish s (runInstr e.val (.nop e f) s)
def execEndAct (e : Fin 16) (f : LForm) (s : State) : Out :=
  finish s (runInstr e.val (.endAct e f) s)
def execTrap (e : Fin 16) (f : LForm) (s : State) : Out :=
  finish s (runInstr e.val (.trap e f) s)
def execRdstat (e : Fin 16) (f : LForm) (s : State) : Out :=
  finish s (runInstr e.val (.rdstat e f) s)
def execWrstat (e : Fin 16) (f : LForm) (s : State) : Out :=
  finish s (runInstr e.val (.wrstat e f) s)
def execRdfeat (e : Fin 16) (f : LForm) (s : State) : Out :=
  finish s (runInstr e.val (.rdfeat e f) s)
def execTrapi (e : Fin 16) (f : WForm) (s : State) : Out :=
  finish s (runInstr e.val (.trapi e f) s)

/-! ### The 16-bit forms (R146, R190) -/

def execCMov (e : Fin 16) (f : C2Form) (s : State) : Out :=
  finish s (runInstr e.val (.cMov e f) s)
def execCAdd (e : Fin 16) (f : C2Form) (s : State) : Out :=
  finish s (runInstr e.val (.cAdd e f) s)
def execCSub (e : Fin 16) (f : C2Form) (s : State) : Out :=
  finish s (runInstr e.val (.cSub e f) s)
def execCAnd (e : Fin 16) (f : C2Form) (s : State) : Out :=
  finish s (runInstr e.val (.cAnd e f) s)
def execCOr (e : Fin 16) (f : C2Form) (s : State) : Out :=
  finish s (runInstr e.val (.cOr e f) s)
def execCAddi (e : Fin 16) (f : C6Form) (s : State) : Out :=
  finish s (runInstr e.val (.cAddi e f) s)
def execCLdk (e : Fin 16) (f : C6Form) (s : State) : Out :=
  finish s (runInstr e.val (.cLdk e f) s)
def execCLdl (e : Fin 16) (f : C6Form) (s : State) : Out :=
  finish s (runInstr e.val (.cLdl e f) s)
def execCStl (e : Fin 16) (f : C6Form) (s : State) : Out :=
  finish s (runInstr e.val (.cStl e f) s)
def execCLds (e : Fin 16) (f : C2Form) (s : State) : Out :=
  finish s (runInstr e.val (.cLds e f) s)
def execCSts (e : Fin 16) (f : C2Form) (s : State) : Out :=
  finish s (runInstr e.val (.cSts e f) s)
def execCBr (e : Fin 16) (disp : BitVec 11) (s : State) : Out :=
  finish s (runInstr e.val (.cBr e disp) s)
def execCBt (e : Fin 16) (f : C6Form) (s : State) : Out :=
  finish s (runInstr e.val (.cBt e f) s)
def execCBf (e : Fin 16) (f : C6Form) (s : State) : Out :=
  finish s (runInstr e.val (.cBf e f) s)
def execCSysNop (e : Fin 16) (low : BitVec 6) (s : State) : Out :=
  finish s (runInstr e.val (.cSysNop e low) s)
def execCSysRet (e : Fin 16) (low : BitVec 6) (s : State) : Out :=
  finish s (runInstr e.val (.cSysRet e low) s)
def execCSysEnd (e : Fin 16) (low : BitVec 6) (s : State) : Out :=
  finish s (runInstr e.val (.cSysEnd e low) s)
def execCSysTrap (e : Fin 16) (low : BitVec 6) (s : State) : Out :=
  finish s (runInstr e.val (.cSysTrap e low) s)

end Sys2Proof.Machine
end

