-- ==== Sys2Proof/Machine/Dispatch.lean ====
section
/-! DEFINITION. One arm per command: the meaning it has in its family's file. -/

namespace Sys2Proof.Machine

def exec (i : Instr) (s : State) : Host.Outcome State Fault Refusal :=
  match i with
  | .echo r => Sys2Proof.Machine.execEcho r s
  | .getInfo r => Sys2Proof.Machine.execGetInfo r s
  | .getState r => Sys2Proof.Machine.execGetState r s
  | .handleQuery r => Sys2Proof.Machine.execHandleQuery r s
  | .handleRelease r => Sys2Proof.Machine.execHandleRelease r s
  | .handleCancel r => Sys2Proof.Machine.execHandleCancel r s
  | .resetDevice r => Sys2Proof.Machine.execResetDevice r s
  | .programLoad r => Sys2Proof.Machine.execProgramLoad r s
  | .programStart r => Sys2Proof.Machine.execProgramStart r s
  | .stopProgram r => Sys2Proof.Machine.execStopProgram r s
  | .taskConfig r => Sys2Proof.Machine.execTaskConfig r s
  | .taskStatus r => Sys2Proof.Machine.execTaskStatus r s
  | .taskSuspend r => Sys2Proof.Machine.execTaskSuspend r s
  | .taskResume r => Sys2Proof.Machine.execTaskResume r s
  | .eventTrigger r => Sys2Proof.Machine.execEventTrigger r s
  | .engineSplit r => Sys2Proof.Machine.execEngineSplit r s
  | .engineJoin r => Sys2Proof.Machine.execEngineJoin r s
  | .slotAlloc r => Sys2Proof.Machine.execSlotAlloc r s
  | .slotFree r => Sys2Proof.Machine.execSlotFree r s
  | .slotRead r => Sys2Proof.Machine.execSlotRead r s
  | .slotWrite r => Sys2Proof.Machine.execSlotWrite r s
  | .forceSet r => Sys2Proof.Machine.execForceSet r s
  | .forceClear r => Sys2Proof.Machine.execForceClear r s
  | .forceList r => Sys2Proof.Machine.execForceList r s
  | .forceClearAll r => Sys2Proof.Machine.execForceClearAll r s
  | .snapshotRead r => Sys2Proof.Machine.execSnapshotRead r s
  | .changeStage r => Sys2Proof.Machine.execChangeStage r s
  | .changeCommit r => Sys2Proof.Machine.execChangeCommit r s
  | .changeAbort r => Sys2Proof.Machine.execChangeAbort r s
  | .changeRevert r => Sys2Proof.Machine.execChangeRevert r s
  | .changeRelease r => Sys2Proof.Machine.execChangeRelease r s
  | .netConfig r => Sys2Proof.Machine.execNetConfig r s
  | .netStart r => Sys2Proof.Machine.execNetStart r s
  | .netStop r => Sys2Proof.Machine.execNetStop r s
  | .stationHaltOutputs r => Sys2Proof.Machine.execStationHaltOutputs r s
  | .netHaltAllOutputs r => Sys2Proof.Machine.execNetHaltAllOutputs r s
  | .stationAdmit r => Sys2Proof.Machine.execStationAdmit r s
  | .stationConfigure r => Sys2Proof.Machine.execStationConfigure r s
  | .stationFirmware r => Sys2Proof.Machine.execStationFirmware r s
  | .stationDiag r => Sys2Proof.Machine.execStationDiag r s
  | .stationRelease r => Sys2Proof.Machine.execStationRelease r s
  | .pairConfig r => Sys2Proof.Machine.execPairConfig r s
  | .pairSync r => Sys2Proof.Machine.execPairSync r s
  | .pairSwitchover r => Sys2Proof.Machine.execPairSwitchover r s
  | .pairLeave r => Sys2Proof.Machine.execPairLeave r s
  | .pairStatus r => Sys2Proof.Machine.execPairStatus r s
  | .timeSet r => Sys2Proof.Machine.execTimeSet r s
  | .timeGet r => Sys2Proof.Machine.execTimeGet r s
  | .timeShift r => Sys2Proof.Machine.execTimeShift r s
  | .alarmSet r => Sys2Proof.Machine.execAlarmSet r s
  | .trimCurveSet r => Sys2Proof.Machine.execTrimCurveSet r s
  | .ptpConfig r => Sys2Proof.Machine.execPtpConfig r s
  | .logRead r => Sys2Proof.Machine.execLogRead r s
  | .logExport r => Sys2Proof.Machine.execLogExport r s
  | .logClear r => Sys2Proof.Machine.execLogClear r s
  | .logMark r => Sys2Proof.Machine.execLogMark r s
  | .fwBegin r => Sys2Proof.Machine.execFwBegin r s
  | .fwData r => Sys2Proof.Machine.execFwData r s
  | .fwFinish r => Sys2Proof.Machine.execFwFinish r s
  | .fwActivate r => Sys2Proof.Machine.execFwActivate r s
  | .fwStatus r => Sys2Proof.Machine.execFwStatus r s
  | .fwRevert r => Sys2Proof.Machine.execFwRevert r s
  | .energyStatus r => Sys2Proof.Machine.execEnergyStatus r s
  | .powerCapSet r => Sys2Proof.Machine.execPowerCapSet r s
  | .holdupConfig r => Sys2Proof.Machine.execHoldupConfig r s
  | .cellConfig r => Sys2Proof.Machine.execCellConfig r s
  | .authNonce r random => Sys2Proof.Machine.execAuthNonce r random s
  | .debugUnlock r => Sys2Proof.Machine.execDebugUnlock r s
  | .fuseRead r => Sys2Proof.Machine.execFuseRead r s
  | .fuseProgram r => Sys2Proof.Machine.execFuseProgram r s
  | .keyRevoke r => Sys2Proof.Machine.execKeyRevoke r s
  | .memFill r => Sys2Proof.Machine.execMemFill r s
  | .scrubConfig r => Sys2Proof.Machine.execScrubConfig r s
  | .memTest r => Sys2Proof.Machine.execMemTest r s
  | .errStatus r => Sys2Proof.Machine.execErrStatus r s
  | .fioConfig r => Sys2Proof.Machine.execFioConfig r s
  | .fioStatus r => Sys2Proof.Machine.execFioStatus r s
  | .fioTestPulse r => Sys2Proof.Machine.execFioTestPulse r s
  | .wdgConfig r => Sys2Proof.Machine.execWdgConfig r s
  | .wdgEvidence r => Sys2Proof.Machine.execWdgEvidence r s
  | .add e f => Sys2Proof.Machine.execAdd e f s
  | .sub e f => Sys2Proof.Machine.execSub e f s
  | .mul e f => Sys2Proof.Machine.execMul e f s
  | .div e f => Sys2Proof.Machine.execDiv e f s
  | .mod e f => Sys2Proof.Machine.execMod e f s
  | .neg e f => Sys2Proof.Machine.execNeg e f s
  | .abs e f => Sys2Proof.Machine.execAbs e f s
  | .min e f => Sys2Proof.Machine.execMin e f s
  | .max e f => Sys2Proof.Machine.execMax e f s
  | .lim e f => Sys2Proof.Machine.execLim e f s
  | .addi e f => Sys2Proof.Machine.execAddi e f s
  | .muli e f => Sys2Proof.Machine.execMuli e f s
  | .sqrt e f => Sys2Proof.Machine.execSqrt e f s
  | .ln e f => Sys2Proof.Machine.execLn e f s
  | .exp e f => Sys2Proof.Machine.execExp e f s
  | .sin e f => Sys2Proof.Machine.execSin e f s
  | .cos e f => Sys2Proof.Machine.execCos e f s
  | .atan2 e f => Sys2Proof.Machine.execAtan2 e f s
  | .eq e f => Sys2Proof.Machine.execEq e f s
  | .ne e f => Sys2Proof.Machine.execNe e f s
  | .lt e f => Sys2Proof.Machine.execLt e f s
  | .le e f => Sys2Proof.Machine.execLe e f s
  | .gt e f => Sys2Proof.Machine.execGt e f s
  | .ge e f => Sys2Proof.Machine.execGe e f s
  | .unord e f => Sys2Proof.Machine.execUnord e f s
  | .ceqi e f => Sys2Proof.Machine.execCeqi e f s
  | .clti e f => Sys2Proof.Machine.execClti e f s
  | .cgti e f => Sys2Proof.Machine.execCgti e f s
  | .and e f => Sys2Proof.Machine.execAnd e f s
  | .or e f => Sys2Proof.Machine.execOr e f s
  | .xor e f => Sys2Proof.Machine.execXor e f s
  | .not e f => Sys2Proof.Machine.execNot e f s
  | .andn e f => Sys2Proof.Machine.execAndn e f s
  | .shl e f => Sys2Proof.Machine.execShl e f s
  | .shr e f => Sys2Proof.Machine.execShr e f s
  | .sar e f => Sys2Proof.Machine.execSar e f s
  | .rol e f => Sys2Proof.Machine.execRol e f s
  | .ror e f => Sys2Proof.Machine.execRor e f s
  | .popc e f => Sys2Proof.Machine.execPopc e f s
  | .clz e f => Sys2Proof.Machine.execClz e f s
  | .andi e f => Sys2Proof.Machine.execAndi e f s
  | .ori e f => Sys2Proof.Machine.execOri e f s
  | .xori e f => Sys2Proof.Machine.execXori e f s
  | .btst e f => Sys2Proof.Machine.execBtst e f s
  | .bset e f => Sys2Proof.Machine.execBset e f s
  | .bclr e f => Sys2Proof.Machine.execBclr e f s
  | .bput e f => Sys2Proof.Machine.execBput e f s
  | .mov e f => Sys2Proof.Machine.execMov e f s
  | .sel e f => Sys2Proof.Machine.execSel e f s
  | .ldi e f => Sys2Proof.Machine.execLdi e f s
  | .lui e f => Sys2Proof.Machine.execLui e f s
  | .ldd e f => Sys2Proof.Machine.execLdd e f s
  | .typeof e f => Sys2Proof.Machine.execTypeof e f s
  | .qualof e f => Sys2Proof.Machine.execQualof e f s
  | .isgood e f => Sys2Proof.Machine.execIsgood e f s
  | .flags e f => Sys2Proof.Machine.execFlags e f s
  | .isempty e f => Sys2Proof.Machine.execIsempty e f s
  | .qset e f => Sys2Proof.Machine.execQset e f s
  | .qworse e f => Sys2Proof.Machine.execQworse e f s
  | .subst e f => Sys2Proof.Machine.execSubst e f s
  | .cvt e fn f => Sys2Proof.Machine.execCvt e fn f s
  | .raws e f => Sys2Proof.Machine.execRaws e f s
  | .rawu e f => Sys2Proof.Machine.execRawu e f s
  | .sflg e f => Sys2Proof.Machine.execSflg e f s
  | .scale e f => Sys2Proof.Machine.execScale e f s
  | .ld e f => Sys2Proof.Machine.execLd e f s
  | .st e f => Sys2Proof.Machine.execSt e f s
  | .ldsA e f => Sys2Proof.Machine.execLdsA e f s
  | .stsA e f => Sys2Proof.Machine.execStsA e f s
  | .lds e f => Sys2Proof.Machine.execLds e f s
  | .sts e f => Sys2Proof.Machine.execSts e f s
  | .ldsx e f => Sys2Proof.Machine.execLdsx e f s
  | .stsx e f => Sys2Proof.Machine.execStsx e f s
  | .sdesc e f => Sys2Proof.Machine.execSdesc e f s
  | .br e f => Sys2Proof.Machine.execBr e f s
  | .bt e f => Sys2Proof.Machine.execBt e f s
  | .bf e f => Sys2Proof.Machine.execBf e f s
  | .call e f => Sys2Proof.Machine.execCall e f s
  | .be e f => Sys2Proof.Machine.execBe e f s
  | .jr e f => Sys2Proof.Machine.execJr e f s
  | .callr e f => Sys2Proof.Machine.execCallr e f s
  | .ret e f => Sys2Proof.Machine.execRet e f s
  | .ton e f => Sys2Proof.Machine.execTon e f s
  | .tof e f => Sys2Proof.Machine.execTof e f s
  | .tp e f => Sys2Proof.Machine.execTp e f s
  | .ctu e f => Sys2Proof.Machine.execCtu e f s
  | .ctd e f => Sys2Proof.Machine.execCtd e f s
  | .crst e f => Sys2Proof.Machine.execCrst e f s
  | .cld e f => Sys2Proof.Machine.execCld e f s
  | .tmstart e f => Sys2Proof.Machine.execTmstart e f s
  | .tmstop e f => Sys2Proof.Machine.execTmstop e f s
  | .tbread e f => Sys2Proof.Machine.execTbread e f s
  | .tbtick e f => Sys2Proof.Machine.execTbtick e f s
  | .rtct e f => Sys2Proof.Machine.execRtct e f s
  | .rtcd e f => Sys2Proof.Machine.execRtcd e f s
  | .lin e f => Sys2Proof.Machine.execLin e f s
  | .raise e f => Sys2Proof.Machine.execRaise e f s
  | .raiser e f => Sys2Proof.Machine.execRaiser e f s
  | .logev e f => Sys2Proof.Machine.execLogev e f s
  | .ldls e f => Sys2Proof.Machine.execLdls e f s
  | .stlq e f => Sys2Proof.Machine.execStlq e f s
  | .lbtst e f => Sys2Proof.Machine.execLbtst e f s
  | .lbput e f => Sys2Proof.Machine.execLbput e f s
  | .lbputq e f => Sys2Proof.Machine.execLbputq e f s
  | .lgon e f => Sys2Proof.Machine.execLgon e f s
  | .lgoff e f => Sys2Proof.Machine.execLgoff e f s
  | .lgcry e f => Sys2Proof.Machine.execLgcry e f s
  | .lgclr e f => Sys2Proof.Machine.execLgclr e f s
  | .nop e f => Sys2Proof.Machine.execNop e f s
  | .endAct e f => Sys2Proof.Machine.execEndAct e f s
  | .trap e f => Sys2Proof.Machine.execTrap e f s
  | .rdstat e f => Sys2Proof.Machine.execRdstat e f s
  | .wrstat e f => Sys2Proof.Machine.execWrstat e f s
  | .rdfeat e f => Sys2Proof.Machine.execRdfeat e f s
  | .trapi e f => Sys2Proof.Machine.execTrapi e f s
  | .cMov e f => Sys2Proof.Machine.execCMov e f s
  | .cAdd e f => Sys2Proof.Machine.execCAdd e f s
  | .cSub e f => Sys2Proof.Machine.execCSub e f s
  | .cAnd e f => Sys2Proof.Machine.execCAnd e f s
  | .cOr e f => Sys2Proof.Machine.execCOr e f s
  | .cAddi e f => Sys2Proof.Machine.execCAddi e f s
  | .cLdk e f => Sys2Proof.Machine.execCLdk e f s
  | .cLdl e f => Sys2Proof.Machine.execCLdl e f s
  | .cStl e f => Sys2Proof.Machine.execCStl e f s
  | .cLds e f => Sys2Proof.Machine.execCLds e f s
  | .cSts e f => Sys2Proof.Machine.execCSts e f s
  | .cBr e disp => Sys2Proof.Machine.execCBr e disp s
  | .cBt e f => Sys2Proof.Machine.execCBt e f s
  | .cBf e f => Sys2Proof.Machine.execCBf e f s
  | .cSysNop e low => Sys2Proof.Machine.execCSysNop e low s
  | .cSysRet e low => Sys2Proof.Machine.execCSysRet e low s
  | .cSysEnd e low => Sys2Proof.Machine.execCSysEnd e low s
  | .cSysTrap e low => Sys2Proof.Machine.execCSysTrap e low s
  | .ringCqEnable n ctrl => Sys2Proof.Machine.execRingCqEnable n ctrl s
  | .ringCqDisable n ctrl => Sys2Proof.Machine.execRingCqDisable n ctrl s
  | .ringKqEnable n ctrl => Sys2Proof.Machine.execRingKqEnable n ctrl s
  | .ringKqDisable n ctrl => Sys2Proof.Machine.execRingKqDisable n ctrl s
  | .ringCqPi n v => Sys2Proof.Machine.execRingCqPi n v s
  | .descriptorTake n rd => Sys2Proof.Machine.execDescriptorTake n rd s
  | .cq0DescriptorTake rd => Sys2Proof.Machine.execCq0DescriptorTake rd s
  | .ringKqHead n v => Sys2Proof.Machine.execRingKqHead n v s
  | .arm n v => Sys2Proof.Machine.execArm n v s
  | .completionInterrupt n waitedUs => Sys2Proof.Machine.execCompletionInterrupt n waitedUs s
  | .finalCompletion idx time io => Sys2Proof.Machine.execFinalCompletion idx time io s
  | .wdgService v => Sys2Proof.Machine.execWdgService v s
  | .wdgServiceCapture c => Sys2Proof.Machine.execWdgServiceCapture c s
  | .hostWatchdogExpiry c => Sys2Proof.Machine.execHostWatchdogExpiry c s
  | .statDualFaultClear v => Sys2Proof.Machine.execStatDualFaultClear v s
  | .statCalAlarmClear v => Sys2Proof.Machine.execStatCalAlarmClear v s
  | .errBucketClear v => Sys2Proof.Machine.execErrBucketClear v s
  | .intCauseClear v => Sys2Proof.Machine.execIntCauseClear v s
  | .intCtrl v => Sys2Proof.Machine.execIntCtrl v s
  | .intMask v => Sys2Proof.Machine.execIntMask v s
  | .msixTableWrite off v => Sys2Proof.Machine.execMsixTableWrite off v s
  | .statLogSeqRead => Sys2Proof.Machine.execStatLogSeqRead s
  | .sysTickLoRead => Sys2Proof.Machine.execSysTickLoRead s
  | .sysOptimeLoRead => Sys2Proof.Machine.execSysOptimeLoRead s
  | .registerWrite off size v => Sys2Proof.Machine.execRegisterWrite off size v s
  | .hostInterfaceReset => Sys2Proof.Machine.execHostInterfaceReset s
  | .dbgChallenge random => Sys2Proof.Machine.execDbgChallenge random s
  | .dbgResponse dr => Sys2Proof.Machine.execDbgResponse dr s
  | .dbgAccessRead space addr => Sys2Proof.Machine.execDbgAccessRead space addr s
  | .dbgAccessWrite space addr data => Sys2Proof.Machine.execDbgAccessWrite space addr data s
  | .dbgAccessControl space addr data => Sys2Proof.Machine.execDbgAccessControl space addr data s
  | .extest enter => Sys2Proof.Machine.execExtest enter s
  | .tapReset => Sys2Proof.Machine.execTapReset s
  | .uartRateFrame code => Sys2Proof.Machine.execUartRateFrame code s
  | .uartRateTimeout => Sys2Proof.Machine.execUartRateTimeout s
  | .vaonRise => Sys2Proof.Machine.execVaonRise s
  | .retainLost => Sys2Proof.Machine.execRetainLost s
  | .mainRailsGood => Sys2Proof.Machine.execMainRailsGood s
  | .pwrRstAssert time => Sys2Proof.Machine.execPwrRstAssert time s
  | .pwrRstRelease => Sys2Proof.Machine.execPwrRstRelease s
  | .powerFail time => Sys2Proof.Machine.execPowerFail time s
  | .mainRailTrip time => Sys2Proof.Machine.execMainRailTrip time s
  | .powerReturn time => Sys2Proof.Machine.execPowerReturn time s
  | .holdupSample senseMv time => Sys2Proof.Machine.execHoldupSample senseMv time s
  | .rideThroughExpiry time => Sys2Proof.Machine.execRideThroughExpiry time s
  | .seal time => Sys2Proof.Machine.execSeal time s
  | .boot env => Sys2Proof.Machine.execBoot env s
  | .selftest env => Sys2Proof.Machine.execSelftest env s
  | .arbitration time => Sys2Proof.Machine.execArbitration time s
  | .deviceReset => Sys2Proof.Machine.execDeviceReset s
  | .fwWatchdogExpiry pc time => Sys2Proof.Machine.execFwWatchdogExpiry pc time s
  | .serviceCoreRestart time => Sys2Proof.Machine.execServiceCoreRestart time s
  | .haltReqCapture time => Sys2Proof.Machine.execHaltReqCapture time s
  | .haltReqRelease => Sys2Proof.Machine.execHaltReqRelease s
  | .baseTick => Sys2Proof.Machine.execBaseTick s
  | .takeover time => Sys2Proof.Machine.execTakeover time s
  | .yieldPrimary time => Sys2Proof.Machine.execYieldPrimary time s
  | .handover time => Sys2Proof.Machine.execHandover time s
  | .mastershipPass => Sys2Proof.Machine.execMastershipPass s
  | .switchWindowEnd time => Sys2Proof.Machine.execSwitchWindowEnd time s
  | .freezeEnd task time => Sys2Proof.Machine.execFreezeEnd task time s
  | .preemptionStop e time => Sys2Proof.Machine.execPreemptionStop e time s
  | .budgetExpiry task time => Sys2Proof.Machine.execBudgetExpiry task time s
  | .taskTimerExpiry task time => Sys2Proof.Machine.execTaskTimerExpiry task time s
  | .commitFlush k => Sys2Proof.Machine.execCommitFlush k s
  | .verificationActivation k pass => Sys2Proof.Machine.execVerificationActivation k pass s
  | .pageFill gen page => Sys2Proof.Machine.execPageFill gen page s
  | .lineRefetch frame line ddrBad => Sys2Proof.Machine.execLineRefetch frame line ddrBad s
  | .pageRebuild gen page lineFails readBackFails => Sys2Proof.Machine.execPageRebuild gen page lineFails readBackFails s
  | .scrubRead mem addr f => Sys2Proof.Machine.execScrubRead mem addr f s
  | .bucketLeak => Sys2Proof.Machine.execBucketLeak s
  | .persistWrite => Sys2Proof.Machine.execPersistWrite s
  | .energyIntervalEnd rails senseMv time => Sys2Proof.Machine.execEnergyIntervalEnd rails senseMv time s
  | .vbatMeasure mv charge => Sys2Proof.Machine.execVbatMeasure mv charge s
  | .calendarRollover => Sys2Proof.Machine.execCalendarRollover s
  | .trimEvaluation temp => Sys2Proof.Machine.execTrimEvaluation temp s
  | .timeSetPendingLoad => Sys2Proof.Machine.execTimeSetPendingLoad s
  | .shiftHoldEnd => Sys2Proof.Machine.execShiftHoldEnd s
  | .nonceExpiry time => Sys2Proof.Machine.execNonceExpiry time s
  | .grantExpiry time => Sys2Proof.Machine.execGrantExpiry time s
  | .optimeSave time => Sys2Proof.Machine.execOptimeSave time s
  | .eventRecordWrite => Sys2Proof.Machine.execEventRecordWrite s
  | .repeatUpdate => Sys2Proof.Machine.execRepeatUpdate s
  | .clearedOverwrite => Sys2Proof.Machine.execClearedOverwrite s
  | .inputFrame port f => Sys2Proof.Machine.execInputFrame port f s
  | .inputCutoff time => Sys2Proof.Machine.execInputCutoff time s
  | .ringBroken port => Sys2Proof.Machine.execRingBroken port s
  | .portLinkDown port => Sys2Proof.Machine.execPortLinkDown port s
  | .scheduleSwitch => Sys2Proof.Machine.execScheduleSwitch s
  | .ptpMessage port f offsetNs => Sys2Proof.Machine.execPtpMessage port f offsetNs s
  | .delayReq port f => Sys2Proof.Machine.execDelayReq port f s
  | .timebaseHoldover => Sys2Proof.Machine.execTimebaseHoldover s
  | .timebaseStep => Sys2Proof.Machine.execTimebaseStep s
  | .ppsInEdge offsetNs => Sys2Proof.Machine.execPpsInEdge offsetNs s
  | .announce port f => Sys2Proof.Machine.execAnnounce port f s
  | .answer port f => Sys2Proof.Machine.execAnswer port f s
  | .notify port f => Sys2Proof.Machine.execNotify port f s
  | .sessionAnswerTimeout station => Sys2Proof.Machine.execSessionAnswerTimeout station s
  | .sessionWaitTimeout station => Sys2Proof.Machine.execSessionWaitTimeout station s
  | .probeTimeout station => Sys2Proof.Machine.execProbeTimeout station s
  | .verificationRepeat station => Sys2Proof.Machine.execVerificationRepeat station s
  | .stationReturnTimeout station => Sys2Proof.Machine.execStationReturnTimeout station s
  | .status h role state flags linkMajor lowestMissing => Sys2Proof.Machine.execStatus h role state flags linkMajor lowestMissing s
  | .tickStatus h serial linkMajor linkMinor lastApplied limitKib offsetNs missed => Sys2Proof.Machine.execTickStatus h serial linkMajor linkMinor lastApplied limitKib offsetNs missed s
  | .delta h r => Sys2Proof.Machine.execDelta h r s
  | .deltaEnd h records bytes => Sys2Proof.Machine.execDeltaEnd h records bytes s
  | .relayDown h port f => Sys2Proof.Machine.execRelayDown h port f s
  | .relayUp h port f => Sys2Proof.Machine.execRelayUp h port f s
  | .bulk h b => Sys2Proof.Machine.execBulk h b s
  | .bulkAck h b => Sys2Proof.Machine.execBulkAck h b s
  | .notice h k holdFrom time => Sys2Proof.Machine.execNotice h k holdFrom time s
  | .selvedgeLinkDown time => Sys2Proof.Machine.execSelvedgeLinkDown time s
  | .laneLoss lane => Sys2Proof.Machine.execLaneLoss lane s
  | .peerAliveDecode v time => Sys2Proof.Machine.execPeerAliveDecode v time s
  | .peerFault low => Sys2Proof.Machine.execPeerFault low s
  | .syncingTimeout => Sys2Proof.Machine.execSyncingTimeout s
  | .syncLinkTimeout => Sys2Proof.Machine.execSyncLinkTimeout s
  | .fieldLinkFrame time => Sys2Proof.Machine.execFieldLinkFrame time s
  | .fieldLinkLost time => Sys2Proof.Machine.execFieldLinkLost time s
  | .fieldLinkUp => Sys2Proof.Machine.execFieldLinkUp s
  | .fieldSample x => Sys2Proof.Machine.execFieldSample x s
  | .filterChange ch compB => Sys2Proof.Machine.execFilterChange ch compB s
  | .wireBreak ch broken => Sys2Proof.Machine.execWireBreak ch broken s
  | .fieldSupply group cond => Sys2Proof.Machine.execFieldSupply group cond s
  | .outputShutdown ch => Sys2Proof.Machine.execOutputShutdown ch s
  | .readbackFail ch => Sys2Proof.Machine.execReadbackFail ch s
  | .testPulse ch offRead onRead disturbed => Sys2Proof.Machine.execTestPulse ch offRead onRead disturbed s
  | .memTestUnit ce fails => Sys2Proof.Machine.execMemTestUnit ce fails s
  | .fuseBit takes => Sys2Proof.Machine.execFuseBit takes s
  | .tracerCopy addr => Sys2Proof.Machine.execTracerCopy addr s
  | .programInstall time => Sys2Proof.Machine.execProgramInstall time s
  | .changeStageInstall time => Sys2Proof.Machine.execChangeStageInstall time s
  | .urgCommand v time => Sys2Proof.Machine.execUrgCommand v time s
  | .portLinkUp port => Sys2Proof.Machine.execPortLinkUp port s
  | .laneLock lane => Sys2Proof.Machine.execLaneLock lane s

end Sys2Proof.Machine
end

