-- ==== Sys2Proof/Machine/Idle.lean ====
section
/-! DEFINITION. What the block does while no command waits. -/

namespace Sys2Proof.Machine

/-- One tick of the always-on clock (R395; log entry 2). -/
def idle (s : State) : Out := finish s (aonTick 0 s)

end Sys2Proof.Machine
end

