-- ==== Sys2Proof/WellFormed.lean ====
section
/-! DEFINITION. Which commands are well formed: what a host, a station, a partner or a pin can put before the block at all. The
meanings do not rely on it: they answer ill-formed host commands as R45 says. -/

namespace Sys2Proof.WellFormed

/-- A descriptor as the rings can carry it (R32 to R35): eight-bit count, 48-bit address, sixteen-bit length, whole entries of
parameters, an authorization block of 128 bytes exactly when auth_attached is 1, and an input payload no longer than
payload_len units. -/
def request (r : Request) : Bool :=
  decide (r.count < 256) && decide (r.addr < 2 ^ 48) && decide (r.len < 2 ^ 16) &&
  (if r.flags.getLsbD 1 then r.auth.length == 128 else r.auth.isEmpty) &&
  r.params.length % 64 == 48 && decide (r.params.length ≤ 496) && decide (r.payload.length ≤ 64 * r.len)

/-- Descriptor entries that the ZPX reads: each of 64 bytes. -/
def hostRead (h : HostRead) : Bool := h.entries.all (fun e => e.length == 64)

/-- A frame on a port (R241): at most 1,536 bytes, an EtherType of 16 bits, a VLAN identifier of 12. -/
def frame (f : NetFrame) : Bool :=
  decide (f.len ≤ 1536) && decide (f.etherType < 65536) && decide (f.bytes.length ≤ 1518) &&
  (match f.vid with
    | some v => decide (v < 4096)
    | none => true)

/-- A Selvedge header (R327). -/
def header (h : SelHeader) : Bool := decide (h.epoch < 2 ^ 32) && decide (h.lseq < 2 ^ 32)

/-- A register access (R531): within 64 KiB. -/
def offset (off : Nat) : Bool := decide (off < 65536)

/-- A sample of the field die carries 32 currents (R494). -/
def sample (x : FieldSample) : Bool := x.currents.length == 32

/-- The request of a host command, if the command carries one. -/
def requestOf : Instr → Option Request
  | .echo r | .getInfo r | .getState r | .handleQuery r | .handleRelease r | .handleCancel r | .resetDevice r
  | .programLoad r | .programStart r | .stopProgram r | .taskConfig r | .taskStatus r | .taskSuspend r | .taskResume r
  | .eventTrigger r | .engineSplit r | .engineJoin r | .slotAlloc r | .slotFree r | .slotRead r | .slotWrite r
  | .forceSet r | .forceClear r | .forceList r | .forceClearAll r | .snapshotRead r | .changeStage r | .changeCommit r
  | .changeAbort r | .changeRevert r | .changeRelease r | .netConfig r | .netStart r | .netStop r
  | .stationHaltOutputs r | .netHaltAllOutputs r | .stationAdmit r | .stationConfigure r | .stationFirmware r
  | .stationDiag r | .stationRelease r | .pairConfig r | .pairSync r | .pairSwitchover r | .pairLeave r | .pairStatus r
  | .timeSet r | .timeGet r | .timeShift r | .alarmSet r | .trimCurveSet r | .ptpConfig r | .logRead r | .logExport r
  | .logClear r | .logMark r | .fwBegin r | .fwData r | .fwFinish r | .fwActivate r | .fwStatus r | .fwRevert r
  | .energyStatus r | .powerCapSet r | .holdupConfig r | .cellConfig r | .authNonce r _ | .debugUnlock r | .fuseRead r
  | .fuseProgram r | .keyRevoke r | .memFill r | .scrubConfig r | .memTest r | .errStatus r | .fioConfig r
  | .fioStatus r | .fioTestPulse r | .wdgConfig r | .wdgEvidence r => some r
  | _ => none

/-- The frame of a network event, if the event carries one. -/
def frameOf : Instr → Option NetFrame
  | .inputFrame _ f | .ptpMessage _ f _ | .delayReq _ f | .announce _ f | .answer _ f | .notify _ f => some f
  | _ => none

/-- The header of a Selvedge event, if the event carries one. -/
def headerOf : Instr → Option SelHeader
  | .status h _ _ _ _ _ | .tickStatus h _ _ _ _ _ _ _ | .delta h _ | .deltaEnd h _ _ | .relayDown h _ _ | .relayUp h _ _
  | .bulk h _ | .bulkAck h _ | .notice h _ _ _ => some h
  | _ => none

/-- A command is well formed. -/
def command (c : Instr) : Bool :=
  (match requestOf c with
    | some r => request r
    | none => true) &&
  (match frameOf c with
    | some f => frame f
    | none => true) &&
  (match headerOf c with
    | some h => header h
    | none => true) &&
  (match c with
    | .descriptorTake _ rd | .cq0DescriptorTake rd => hostRead rd
    | .registerWrite off _ _ => offset off
    | .msixTableWrite off _ => decide (off < 2048)
    | .dbgResponse dr => dr.length == 136
    | .fieldSample x => sample x
    | .energyIntervalEnd rails _ _ => rails.length == 6
    | .wdgServiceCapture c | .hostWatchdogExpiry c => decide (c < 2 ^ 64)
    | _ => true)

end Sys2Proof.WellFormed
end

