-- ==== Sys2Proof/Safety.lean ====
section
/-! DEFINITION. What counts as a good state and a safe run, and the terms that claims use: the shapes of the tables, the canonical
form of the sparse memories, when a host command is carried out, and when an engine carries out an instruction on its own. -/

namespace Sys2Proof.Machine

/-- Data memory and the legacy area are in canonical form. -/
def Memory.wf (m : Memory) : Bool := sparseWf TWord.empty m.data && sparseWf 0 m.legacy

/-- The live bank is in canonical form. -/
def Image.wf (i : Image) : Bool := sparseWf TWord.empty i.live

end Sys2Proof.Machine

namespace Sys2Proof.Safety

open Sys2Proof.Machine

/-- The fixed tables have their sizes: 64 rings of each kind, 64 tasks, 16 engines, 8 pairs, 4 ports, 32 channels. -/
def shapes (s : State) : Bool :=
  s.host.cq.length == 64 && s.host.kq.length == 64 && s.scan.tasks.length == 64 && s.scan.engines.length == 16 &&
    s.scan.pairs.length == 8 && s.net.ports.length == 4 && s.fio.ch.length == 32

/-- The sparse memories are in canonical form. -/
def memories (s : State) : Bool :=
  s.img.wf && s.mem.wf

/-- A run of k steps is safe when no step stops with a fault or a refusal. -/
def safeRun : Nat → State → Bool
  | 0, _ => true
  | k + 1, s =>
    match step s with
    | .next t => safeRun k t
    | _ => false

/-- t with the waiting commands of s: what a command that leaves t answers. -/
def keep (s t : State) : State := { t with pending := s.pending }

/-! ### Host commands -/

/-- The state in which the last checks of R45 judge command c: the request's time, and the nonce used where a token was asked for
(R37). -/
def judged (c : Cmd) (r : Request) (s : State) : State :=
  if !urgentPath r.origin && authNeeded c r (advance r.time s) then useNonce (advance r.time s) else advance r.time s

/-- The state on which the effect of command c runs when no check refuses it: a ring's command has the entry of its completion ring
reserved (R40). -/
def begins (c : Cmd) (r : Request) (s : State) : State :=
  if urgentPath r.origin then advance r.time s else reserve r.origin (judged c r s)

/-- The path of a request takes commands at this instant: it is served (R61), no switch window is open but for the output halt
(R229), and the opcode belongs to it (R54, R492). -/
def pathTakes (c : Cmd) (r : Request) (s : State) : Bool :=
  served r.origin s && (s.chg.window.isNone || c.op == 0x400A) && (!urgentPath r.origin || urgentOps.contains c.op) &&
    (r.origin != .uart || s.dev.st == .recovery || uartOps.contains c.op)

/-- The token that a request carries is the one it needs, or it needs none (R35, R463). -/
def authorized (c : Cmd) (r : Request) (s : State) : Bool :=
  !authNeeded c r s ||
    (hasAuth r && !tokenFails s c.op r.params r.auth (if byPointer r then some r.payload else none))

/-- No check of R45 refuses the request. -/
def accepted (c : Cmd) (r : Request) (s : State) : Bool :=
  let u := advance r.time s
  pathTakes c r u && (judgeEarly c r u).isNone &&
    (urgentPath r.origin || (authorized c r u && (judgeLate c r (judged c r s)).isNone))

/-- Command i, accepted as request r of c, makes the answer and the state that `out` gives. -/
def Runs (c : Cmd) (r : Request) (i : Instr) (out : State → Answer × State) : Prop :=
  ∀ s, accepted c r s = true →
    exec i s = .next (keep s (answer r (out (begins c r s)).1 (out (begins c r s)).2))

/-! ### Synna Code -/

/-- The engine that executes a Synna Code instruction; none for any other command. -/
def engineOf (i : Instr) : Option (Fin 16) :=
  match i with
  | .add e _ | .sub e _ | .mul e _ | .div e _ | .mod e _ | .neg e _ | .abs e _ | .min e _ | .max e _ | .lim e _
  | .addi e _ | .muli e _ | .sqrt e _ | .ln e _ | .exp e _ | .sin e _ | .cos e _ | .atan2 e _ | .eq e _ | .ne e _
  | .lt e _ | .le e _ | .gt e _ | .ge e _ | .unord e _ | .ceqi e _ | .clti e _ | .cgti e _ | .and e _ | .or e _
  | .xor e _ | .not e _ | .andn e _ | .shl e _ | .shr e _ | .sar e _ | .rol e _ | .ror e _ | .popc e _ | .clz e _
  | .andi e _ | .ori e _ | .xori e _ | .btst e _ | .bset e _ | .bclr e _ | .bput e _ | .mov e _ | .sel e _ | .ldi e _
  | .lui e _ | .ldd e _ | .typeof e _ | .qualof e _ | .isgood e _ | .flags e _ | .isempty e _ | .qset e _
  | .qworse e _ | .subst e _ | .raws e _ | .rawu e _ | .sflg e _ | .scale e _ | .ld e _ | .st e _ | .ldsA e _
  | .stsA e _ | .lds e _ | .sts e _ | .ldsx e _ | .stsx e _ | .sdesc e _ | .br e _ | .bt e _ | .bf e _ | .call e _
  | .be e _ | .jr e _ | .callr e _ | .ret e _ | .ton e _ | .tof e _ | .tp e _ | .ctu e _ | .ctd e _ | .crst e _
  | .cld e _ | .tmstart e _ | .tmstop e _ | .tbread e _ | .tbtick e _ | .rtct e _ | .rtcd e _ | .lin e _ | .raise e _
  | .raiser e _ | .logev e _ | .ldls e _ | .stlq e _ | .lbtst e _ | .lbput e _ | .lbputq e _ | .lgon e _ | .lgoff e _
  | .lgcry e _ | .lgclr e _ | .nop e _ | .endAct e _ | .trap e _ | .rdstat e _ | .wrstat e _ | .rdfeat e _
  | .trapi e _ | .cMov e _ | .cAdd e _ | .cSub e _ | .cAnd e _ | .cOr e _ | .cAddi e _ | .cLdk e _ | .cLdl e _
  | .cStl e _ | .cLds e _ | .cSts e _ | .cBr e _ | .cBt e _ | .cBf e _ | .cSysNop e _ | .cSysRet e _ | .cSysEnd e _
  | .cSysTrap e _ => some e
  | .cvt e _ _ => some e
  | _ => none

/-- The state in which engine e begins an instruction: it has no result of an operation and no word in its commit
buffer yet. -/
def started (e : Nat) (s : State) : State := onEng e (fun g => { g with results := [], written := 0 }) s

/-- Engine e, alone and not as half of a pair, runs task n and can fetch instruction i under the view v: no debug halt, the page on
the task's list and resident, a sound context, the code at the program counter spelling i, its lines sound (R141, R148, R199, R200,
R202, R417, R467). -/
def Alone (i : Instr) (e n : Nat) (v : View) (s : State) : Prop :=
  mayBegin s e = true ∧ (getEng s e).task = some n ∧ (getTask s n).sched.dual = false ∧
    viewOf (started e s) e = some v ∧ v.d.pages.contains (v.g.pc / 4096) = true ∧ pageIn s (v.g.pc / 4096) = true ∧
    v.g.ctxBad = false ∧ codeAt s e v.g.pc = some i ∧ fetchPasses s v.g.pc = true

/-- Engine e completes instruction i with effect f. -/
def Completes (i : Instr) (e n : Nat) (f : Effect) (s : State) : Prop :=
  exec i s = .next (keep s (complete false n e (lengthOf i) f (started e s)))

/-- Engine e traps under END (R150): the activation of task n ends. -/
def Traps (i : Instr) (e n cause user cycles : Nat) (s : State) : Prop :=
  exec i s = .next (keep s (trapEnd n e cause user (coreUnits s n cycles) (started e s)))

/-- Engine e gives register d the result of an operation on the words ws: the result word, or what a data cause does under its
policy (R150, R151). -/
def Gives (i : Instr) (e n : Nat) (v : View) (d : Fin 32) (qb : Bool) (ws : List TWord) (res : Res)
    (cycles : BitVec 4 → Nat) (s : State) : Prop :=
  match res with
  | .ok t p c => Completes i e n { dst := some (d.val, resultWord qb ws t p), carry := c, cycles := cycles t } s
  | .fail cause t p =>
    if marks v cause then
      Completes i e n { dst := some (d.val, markWord ws t p), marked := some cause, cycles := cycles t + 2 } s
    else Traps i e n cause 0 (cycles t) s

/-- The state after operation op of an instruction of task n on engine e, its result kept for the instruction (R301). -/
def afterOp (n e : Nat) (op : XOp) (s : State) : State :=
  onEng e (fun g => { g with clk := g.clk + 10 * (perform n e op s).2.1 })
    (pushResult e (perform n e op s).1 (perform n e op s).2.2)

end Sys2Proof.Safety
end

