-- ==== Sys2Proof/Certificates/Slice0/Obligations.lean ====
section
/-! DEFINITION. The statements for the provers. Each says which rules of spec/ it follows; `Runs`, `Completes`, `Traps`, `Gives`,
`Alone`, `accepted`, `begins`, `started`, `afterOp` and `keep` are those of Safety.lean. -/

open Sys2Proof
open Sys2Proof.Machine
open Sys2Proof.Safety

/-! ### The block -/

/-- A step takes the command at the front of the queue and runs its meaning with the queue's rest. -/
def Obligations.StepRunsFrontCommand : Prop :=
  ∀ (c : Instr) (rest : List Instr) (s : State), s.pending = c :: rest → step s = exec c { s with pending := rest }

/-- No command stops the block, and a step takes exactly one command out of the queue, or none out of an empty one.
Every step keeps the queue well formed: from any state whose waiting commands are all well formed, it leads to such a state. -/
def Obligations.EveryStepConsumesOneCommand : Prop :=
  (∀ s : State, ∃ t, step s = .next t ∧ t.pending = s.pending.tail) ∧
  (∀ s t : State, s.pending.all WellFormed.command = true → step s = .next t → t.pending.all WellFormed.command = true)

/-- On an empty queue the step is one tick of the always-on clock: it draws no free value and changes nothing but the calendar,
the event record, the alarm's cause bit and its interrupt. The tick on an empty queue is the model's choice (log entry 2). -/
def Obligations.IdleStepOnlyTicksCalendar : Prop :=
  ∀ s : State, s.pending = [] → ∃ t, step s = .next t ∧ t.pending = [] ∧ t.host = s.host ∧ t.dev = s.dev ∧ t.img = s.img ∧
    t.chg = s.chg ∧ t.mem = s.mem ∧ t.scan = s.scan ∧ t.net = s.net ∧ t.pair = s.pair ∧ t.energy = s.energy ∧
    t.integ = s.integ ∧ t.wdg = s.wdg ∧ t.sec = s.sec ∧ t.fw = s.fw ∧ t.fio = s.fio ∧ t.free = s.free

/-- What reset leaves: BOOT and SOLO (R58, R59), every ring disabled with its phase at 1 and its count threshold at 1 (R26), a
free image in one run of order 18 (R77), all pairs SPLIT (R298), all tasks DISABLED (R123), the calendar at Saturday 2000-01-01
00:00:00 and not valid (R393, R405), RETAIN_LOST (R373), floor 3 and the hold-up parameters of R376, the scrub periods of R421,
UART rate 0 (R10), and no command waiting. -/
def Obligations.ResetStateHoldsSpecValues : Prop :=
  State.reset.dev.st = .boot ∧ State.reset.dev.role = .solo ∧ State.reset.dev.retainLost = true ∧
    (∀ n < 64, (getCq State.reset n).enable = false ∧ (getKq State.reset n).enable = false ∧
      (getKq State.reset n).phase = true ∧ (getKq State.reset n).irqCount = 1) ∧
    State.reset.img.free = [(0, 18)] ∧ State.reset.img.forces = [] ∧
    (∀ n < 64, (getTask State.reset n).st = .disabled) ∧ (∀ k < 8, getPair State.reset k = .split) ∧
    State.reset.cal.fields = ⟨0x00, 0x00, 0x00, 0x6, 0x01, 0x01, 0x00, 0x20⟩ ∧ State.reset.cal.valid = false ∧
    State.reset.energy.floor = 3 ∧ State.reset.energy.cap = 0 ∧ State.reset.energy.limit = 4096 ∧
    State.reset.energy.cfg = ⟨0, 1000, 50, 250, 0, 0, 4, 100⟩ ∧ State.reset.integ.periods = [10, 10, 3600, 86400] ∧
    State.reset.fw.uartRate = 0 ∧ State.reset.regs.mask = 0 ∧ State.reset.regs.cause = 0 ∧ State.reset.pending = []

/-- The fixed tables keep their sizes and the sparse memories (live bank, data memory, legacy area) their canonical form, from
every state that has them and through every command and every idle step. -/
def Obligations.TablesAndMemoriesKeepForm : Prop :=
  ∀ s t : State, shapes s = true → memories s = true → step s = .next t → shapes t = true ∧ memories t = true

/-- The reset state has the tables' sizes and the memories' canonical form. -/
def Obligations.ResetHasTablesAndMemories : Prop := shapes State.reset = true ∧ memories State.reset = true

/-- A sparse memory: a write keeps the canonical form, reads back, and leaves every other key as it was; so equal memories are
equal lists. -/
def Obligations.SparseWriteReadsBack : Prop :=
  ∀ (l : List (Nat × TWord)) (a : Nat) (w : TWord), sparseWf TWord.empty l = true →
    sparseWf TWord.empty (writeAt TWord.empty l a w) = true ∧ readAt TWord.empty (writeAt TWord.empty l a w) a = w ∧
    (∀ b, b ≠ a → readAt TWord.empty (writeAt TWord.empty l a w) b = readAt TWord.empty l b) ∧
    (∀ m, sparseWf TWord.empty m = true → (∀ b, readAt TWord.empty l b = readAt TWord.empty m b) → l = m)

/-! ### How host commands are judged (02, 03) -/

/-- The checks of R45 in their order, for a command whose path takes it: a malformed descriptor, then the device state, then the
role, then the parameter ranges; each refusal is the command's answer and changes nothing else (R67), but that a range check
which ends in AUTH_FAILED writes its record with the key slot the payload names. -/
def Obligations.ChecksRefuseInOrder : Prop :=
  ∀ (c : Cmd) (r : Request) (s : State), pathTakes c r (advance r.time s) = true →
    (structureOk c r (advance r.time s) = false →
      serve c r s = answer r { status := stBadParam } (advance r.time s)) ∧
    (structureOk c r (advance r.time s) = true → stateOk c r (advance r.time s) = false →
      serve c r s = answer r { status := stState, result := stateRole s } (advance r.time s)) ∧
    (structureOk c r (advance r.time s) = true → stateOk c r (advance r.time s) = true → legalRole c.op s.dev.role = false →
      serve c r s = answer r { status := stRole, result := stateRole s } (advance r.time s)) ∧
    (∀ a, structureOk c r (advance r.time s) = true → stateOk c r (advance r.time s) = true →
      legalRole c.op s.dev.role = true → c.range r (advance r.time s) = some a →
      serve c r s = answer r a
        (if a.status = stAuthFailed then recordAuthFailed (byteAt r.payload 11) c.op (advance r.time s) else advance r.time s))

/-- Authorization (R35, R37, R463) off the urgent path: a command that needs a token and carries none gives AUTH_REQUIRED; one
whose token fails gives AUTH_FAILED with its record; the nonce is used up exactly by a token that verifies, whatever the command
then answers. -/
def Obligations.AuthorizationUsesNonceOnce : Prop :=
  ∀ (c : Cmd) (r : Request) (s : State), urgentPath r.origin = false → pathTakes c r (advance r.time s) = true →
    judgeEarly c r (advance r.time s) = none → authNeeded c r (advance r.time s) = true →
    (hasAuth r = false → serve c r s = answer r { status := stAuthRequired } (advance r.time s)) ∧
    (hasAuth r = true → authorized c r (advance r.time s) = false →
      serve c r s = answer r { status := stAuthFailed }
        (recordAuthFailed (byteAt r.auth 0) c.op (advance r.time s))) ∧
    (∀ a, authorized c r (advance r.time s) = true → judgeLate c r (judged c r s) = some a →
      serve c r s = answer r a (judged c r s)) ∧
    (authorized c r (advance r.time s) = true → judgeLate c r (judged c r s) = none →
      serve c r s = answer r (c.effect r (begins c r s)).1 (c.effect r (begins c r s)).2) ∧
    (judged c r s).sec.nonce = none ∧ (begins c r s).sec.nonce = none

/-- The urgent path (R53, R54): through CQ0 or URG_COMMAND, an opcode outside the five gives BAD_OPCODE, and the five are judged
without the steps for authorization and resources. -/
def Obligations.UrgentPathServesFiveOpcodes : Prop :=
  ∀ (c : Cmd) (r : Request) (s : State), urgentPath r.origin = true → served r.origin (advance r.time s) = true →
    s.chg.window = none →
    (urgentOps.contains c.op = false → serve c r s = answer r { status := stBadOpcode } (advance r.time s)) ∧
    (urgentOps.contains c.op = true → judgeEarly c r (advance r.time s) = none →
      serve c r s = answer r (c.effect r (advance r.time s)).1 (c.effect r (advance r.time s)).2)

/-- A served ring command's answer is one completion entry: with room in its completion ring the entry goes to tail with the
ring's phase, tail moves on by one, and the phase turns where it wraps (R38, R39); a ring of CQ1 to CQ63 whose completion ring
has no room, since it has been disabled, holds the completion back for that completion ring (R28). -/
def Obligations.AnswerWritesOneCompletion : Prop :=
  ∀ (n : Nat) (c : Completion) (s : State), n < 64 → s.host.kq.length = 64 → s.host.cq.length = 64 → (getCq s n).kq < 64 →
    ((getKq s (getCq s n).kq).room = true →
      let k := (getCq s n).kq
      let q := getKq s k
      let q' := getKq (completeN n c s) k
      look q'.mem q.tail = some (q.phase, c) ∧ q'.tail = (q.tail + 1) % q.size ∧
        q'.phase = (if (q.tail + 1) % q.size = 0 then !q.phase else q.phase) ∧ q'.head = q.head ∧
        (∀ j, j ≠ q.tail → look q'.mem j = look q.mem j)) ∧
    ((getKq s (getCq s n).kq).room = false →
      (completeN n c s).host.heldImmediate = s.host.heldImmediate ++ [(n, (getCq s n).kq, c)] ∧
      (completeN n c s).host.kq = s.host.kq) ∧
    (completeN n c s).host.reserved = none

/-! ### What the host commands do, by class -/

/-- ECHO returns parameter bytes 16 to 31; GET_INFO and GET_STATE return the module's data; the handle commands query, free and
cancel an operation, and answer STALE_HANDLE for a handle that is not PENDING or DONE; RESET_DEVICE returns the former restart
mode, sets the new one, and schedules a reset of scope 1 to 3 for 20 µs later (R49 to R52, R69, R389). -/
def Obligations.CoreCommandsRun : Prop :=
  ∀ r : Request,
    Runs cmdEcho r (.echo r) (fun u => ({ status := stOk, result := sliceZ (pSlice r 16 32) 0 16 }, u)) ∧
    Runs cmdGetInfo r (.getInfo r) (fun u => ({ status := stOk, result := infoResult u }, u)) ∧
    Runs cmdGetState r (.getState r) (fun u => ({ status := stOk, result := stateResult u }, u)) ∧
    Runs cmdHandleQuery r (.handleQuery r) (fun u =>
      match findOp u (pField r 16 4) with
      | some o => (queryAnswer (pField r 16 4) o, u)
      | none => ({ status := stStaleHandle, handle := pField r 16 4 }, u)) ∧
    Runs cmdHandleRelease r (.handleRelease r) (fun u =>
      match findOp u (pField r 16 4) with
      | some o =>
        if o.done then ({ status := stOk, handle := pField r 16 4 }, releaseHandle (pField r 16 4 % 4096) u)
        else ({ status := stBusy, handle := pField r 16 4 }, u)
      | none => ({ status := stStaleHandle, handle := pField r 16 4 }, u)) ∧
    Runs cmdHandleCancel r (.handleCancel r) (fun u =>
      match findOp u (pField r 16 4) with
      | some o =>
        ({ status := stOk, handle := pField r 16 4, result := [b8 (cancelOutcome u o)] },
          if o.done then u else onOp (pField r 16 4 % 4096) (fun o => { o with cancel := some (cancelOutcome u o) }) u)
      | none => ({ status := stStaleHandle, handle := pField r 16 4 }, u)) ∧
    Runs cmdResetDevice r (.resetDevice r) (fun u =>
      ({ status := stOk, result := [b8 u.dev.restartMode] },
        { u with dev := { u.dev with
            restartMode := if pByte r 17 = 0xFF then u.dev.restartMode else pByte r 17
            resetScope := if pByte r 16 = 0 then u.dev.resetScope else some (pByte r 16)
            resetDue := if pByte r 16 = 0 then u.dev.resetDue else u.dev.now + 120000 } }))

/-- PROGRAM_LOAD and the pair commands begin long operations; PROGRAM_START names the boundary two after the tick in progress;
STOP_PROGRAM stops; TASK_CONFIG puts the record in force; TASK_STATUS returns the task's data; TASK_SUSPEND, TASK_RESUME and
EVENT_TRIGGER act on tasks and return what they met (R126 to R134, R318, R319). -/
def Obligations.TaskCommandsRun : Prop :=
  ∀ r : Request,
    Runs cmdProgramLoad r (.programLoad r) (fun u => accept 0x1001 r (2 * kib (loadLength r)) [] u) ∧
    Runs cmdProgramStart r (.programStart r) (fun u =>
      ({ status := stOk, result := leBytes 4 (u.dev.tick + 2) }, startProgram (startMode r) u)) ∧
    Runs cmdStopProgram r (.stopProgram r) (fun u => ({ status := stOk }, stopProgram u)) ∧
    Runs cmdTaskConfig r (.taskConfig r) (fun u =>
      ({ status := stOk },
        mirror (.schedRec (pByte r 16) (parseSched (reqSched r)))
          (onTask (pByte r 16) (fun t =>
            { t with
              sched := parseSched (reqSched r)
              st := if (parseSched (reqSched r)).kind = 0 then .disabled
                else if t.st = .disabled then initialState (parseSched (reqSched r)) else t.st
              latch := none, coalesced := 0, timer := none }) u))) ∧
    Runs cmdTaskStatus r (.taskStatus r) (fun u =>
      let t := getTask u (pByte r 16)
      let p := if byPointer r then putPayload r (taskRecord t) u else u
      ({ status := stOk, result := [b8 t.st.code, 0, 0, 0] ++ fields [(4, t.skips), (4, t.releases), (4, t.eMax)] },
        if bitOf (pByte r 17) 0 then onTask (pByte r 16) clearTaskCounters p else p)) ∧
    Runs cmdTaskSuspend r (.taskSuspend r) (fun u =>
      ({ status := stOk, result := leBytes 8 (eachTask (pField r 16 8) (fun _ t => suspendTask t) u).1 },
        (eachTask (pField r 16 8) (fun _ t => suspendTask t) u).2)) ∧
    Runs cmdTaskResume r (.taskResume r) (fun u =>
      ({ status := stOk, result := leBytes 8 (eachTask (pField r 16 8) resumeTask u).1 },
        (eachTask (pField r 16 8) resumeTask u).2)) ∧
    Runs cmdEventTrigger r (.eventTrigger r) (fun u =>
      let x := fireTrigger (pByte r 16) 5 u.dev.now (.mk0 Ty.word (BitVec.ofNat 32 (pField r 20 4))) u
      ({ status := stOk, result := [b8 x.1] }, settle x.2)) ∧
    Runs cmdEngineSplit r (.engineSplit r) (fun u =>
      let a := accept 0x1009 r 1 [flag (getPair u (reqPair r) == .split) 0] u
      (a.1, if getPair u (reqPair r) = .joined then setPair (reqPair r) .splitting a.2 else a.2)) ∧
    Runs cmdEngineJoin r (.engineJoin r) (fun u =>
      let a := accept 0x100A r 1 [flag (getPair u (reqPair r) == .joined) 0] u
      (a.1, if getPair u (reqPair r) = .split then setPair (reqPair r) .joining a.2 else a.2))

/-- The slot commands (R79, R80, R91 to R93, R100 to R103). -/
def Obligations.SlotCommandsRun : Prop :=
  ∀ r : Request,
    Runs cmdSlotAlloc r (.slotAlloc r) (fun u =>
      match allocTarget r u with
      | none => (allocRefusal u, u)
      | some (b, l) =>
        ({ status := stOk, result := leBytes 4 b },
          placeDescs b (allocDescs r)
            (mirror (.allocRun b (pByte r 16))
              (onImg (fun i => { i with free := l, runs := insertAt i.runs b (pByte r 16) }) u)))) ∧
    Runs cmdSlotFree r (.slotFree r) (fun u =>
      ({ status := stOk, result := [b8 (mergedOrder u (pField r 20 4) (pByte r 16))] },
        freeSlots (pField r 20 4) (pByte r 16) u)) ∧
    Runs cmdSlotRead r (.slotRead r) (fun u =>
      placeOutput r
        (((List.range (pField r 20 4)).map (pField r 16 4 + ·)).flatMap (fun i =>
          match pByte r 24 with
          | 0 => entry (effWord u i) 0
          | 1 => entry (liveWord u i) 0
          | _ => descBytes (descOf u i) (forceOf u i).isSome)) u) ∧
    Runs cmdSnapshotRead r (.snapshotRead r) (fun u =>
      placeOutput r (((List.range (pField r 20 4)).map (pField r 16 4 + ·)).flatMap (fun i =>
        entry (snapEntry u i).1 (tickTail (snapEntry u i).2))) u) ∧
    Runs cmdSlotWrite r (.slotWrite r) (fun u =>
      ({ status := stOk }, settle (withTriggers [pField r 16 4] (setLive (pField r 16 4) (reqWord r)) u))) ∧
    Runs cmdForceSet r (.forceSet r) (fun u =>
      let t := settle (withTriggers [pField r 16 4] (setForce (pField r 16 4) (reqWord r)) u)
      ({ status := stOk,
         result := [b8 (if (forceOf u (pField r 16 4)).isSome then 1 else 0), 0, 0, 0] ++ leBytes 2 t.img.forces.length }, t)) ∧
    Runs cmdForceClear r (.forceClear r) (fun u =>
      let t := settle (withTriggers [pField r 16 4] (clearForce 2 (pField r 16 4)) u)
      ({ status := stOk,
         result := [b8 (if (forceOf u (pField r 16 4)).isSome then 1 else 0), 0, 0, 0] ++ leBytes 2 t.img.forces.length }, t)) ∧
    Runs cmdForceList r (.forceList r) (fun u =>
      let l := (u.img.forces.drop (pField r 16 2)).take (4 * r.len)
      ({ status := stOk, result := leBytes 2 l.length ++ leBytes 2 u.img.forces.length },
        putPayload r (l.flatMap forceEntry) u)) ∧
    Runs cmdForceClearAll r (.forceClearAll r) (fun u =>
      ({ status := stOk, result := leBytes 2 u.img.forces.length },
        settle (withTriggers (u.img.forces.map (·.slot)) (clearForces (if urgentPath r.origin then 1 else 0)) u)))

/-- The commands of an online change: staging begins, an attempt begins, the staged or the retained generation goes (R218, R224,
R230 to R232). -/
def Obligations.ChangeCommandsRun : Prop :=
  ∀ r : Request,
    Runs cmdChangeStage r (.changeStage r) (fun u =>
      let a := accept 0x3001 r (2 * kib (stageImage r + stageMap r) + kib (stageImage r)) [] u
      (a.1, onChg (fun c => { c with busySlots := [] }) a.2)) ∧
    Runs cmdChangeCommit r (.changeCommit r) (beginAttempt false 0x3002 r) ∧
    Runs cmdChangeAbort r (.changeAbort r) (fun u =>
      ({ status := stOk }, mirrorGenerations (enterOrReturn .run (discardStaged 0 u)))) ∧
    Runs cmdChangeRevert r (.changeRevert r) (fun u => beginAttempt true 0x3004 r (dropForces (revertForces u) u)) ∧
    Runs cmdChangeRelease r (.changeRelease r) (fun u =>
      let n := match u.chg.retained with
        | some b => (runSlots (releasedRuns b), (privatePages u b.prog).length)
        | none => (0, 0)
      ({ status := stOk, result := leBytes 4 n.1 ++ leBytes 2 n.2 }, releaseRetained u))

/-- The network commands (R259 to R266).
The station commands begin their long operations; STATION_RELEASE releases the station at once (R281 to R286, R293 to
R297). -/
def Obligations.NetworkAndStationCommandsRun : Prop :=
  ∀ r : Request,
    Runs cmdNetConfig r (.netConfig r) (fun u => accept 0x4001 r (draw 32 u).1.toNat [] (draw 32 u).2) ∧
    Runs cmdNetStart r (.netStart r) (fun u =>
      if u.net.running then ({ status := stOk, result := leBytes 4 u.net.firstCycle }, u)
      else
        ({ status := stOk, result := leBytes 4 (u.dev.tick + 1) },
          mirror (.network true (u.dev.tick + 1)) (onNet (fun n =>
            { n with running := true, firstCycle := u.dev.tick + 1
                     ports := n.ports.map (fun p =>
                       { p with fcs := 0, foreign := 0, late := 0, overflow := 0, duplicate := 0, missing := 0 }) }) u))) ∧
    Runs cmdNetStop r (.netStop r) (fun u =>
      let v := endConfigureHalt u
      if u.net.cycling then
        ({ status := stOk, result := leBytes 4 u.dev.tick },
          mirror (.network false u.net.firstCycle) (onNet (fun n => { n with running := false }) v))
      else
        ({ status := stOk, result := leBytes 4 (draw 32 v).1.toNat },
          mirror (.network false u.net.firstCycle) (onNet (fun n => { n with running := false }) (draw 32 v).2))) ∧
    Runs cmdNetHaltAllOutputs r (.netHaltAllOutputs r) (fun u => ({ status := stOk }, haltOutputs u)) ∧
    Runs cmdStationHaltOutputs r (.stationHaltOutputs r) (fun u =>
      let a := haltStation r
      let halt := pByte r 18 == 0
      ({ status := stOk, result := [b8 (if u.net.haltBits.contains a = halt then 1 else 0)] },
        if u.net.haltBits.contains a = halt then u
        else mirror (.haltBit a halt) (onNet (fun n =>
          if halt then { n with haltBits := insertNat n.haltBits a, haltBitsLatched := insertNat n.haltBitsLatched a }
          else { n with haltBits := n.haltBits.filter (· != a) }) u))) ∧
    Runs cmdStationAdmit r (.stationAdmit r) (fun u =>
      accept 0x4004 r 4 [] (if bitOf (pByte r 18) 0 then releaseStation (reqStation r) true u else u)) ∧
    Runs cmdStationConfigure r (.stationConfigure r) (fun u => accept 0x4005 r ((pField r 20 4 + 1023) / 1024) [0, 1] u) ∧
    Runs cmdStationFirmware r (.stationFirmware r) (fun u =>
      let n := (pField r 20 4 + 1023) / 1024
      accept 0x4006 r (if bitOf (pByte r 18) 2 then 2 * n else n) [0, 0] u) ∧
    Runs cmdStationDiag r (.stationDiag r) (fun u => accept 0x4007 r 1 [0xFF, 0] u) ∧
    Runs cmdStationRelease r (.stationRelease r) (fun u =>
      ({ status := stOk, result := [b8 (reqState r u).code] },
        if reqState r u = .absent ∧ (stationOp u (reqStation r)).isNone then u else releaseStation (reqStation r) false u))

/-- The pair commands (R342, R347 to R352). -/
def Obligations.PairCommandsRun : Prop :=
  ∀ r : Request,
    Runs cmdPairConfig r (.pairConfig r) (fun u =>
      ({ status := stOk, result := [b8 (flag u.pair.sideB 0), b8 (lanesUp u), b8 u.pair.line] },
        mirror (.pairConfig (pByte r 16) (bitOf (pByte r 17) 0) (bitOf (pByte r 17) 1)) (onPair (fun p =>
          { p with ports := BitVec.ofNat 4 (pByte r 16), member := bitOf (pByte r 17) 0, autoResync := bitOf (pByte r 17) 1,
                   partnerSerial := pField r 20 4 }) u))) ∧
    Runs cmdPairSync r (.pairSync r) (fun u =>
      let i := headIndex (draw 32 u).2
      let a := accept 0x5002 r (draw 32 u).1.toNat [] (draw 32 u).2
      (a.1,
        if syncReceive r then onPair (fun p => { p with awaiting := true, syncHandle := some i }) a.2
        else beginSync (some i) (if syncReset r then resetEpoch a.2 else a.2))) ∧
    Runs cmdPairSwitchover r (.pairSwitchover r) (fun u =>
      ({ status := stOk, result := [b8 (switchoverCommand (pByte r 16) u).1] }, (switchoverCommand (pByte r 16) u).2)) ∧
    Runs cmdPairLeave r (.pairLeave r) (fun u =>
      ({ status := stOk, result := [b8 u.dev.role.code] }, leaveAsPartner (endSync stTimeout (sendNotice .leave 0 u)))) ∧
    Runs cmdPairStatus r (.pairStatus r) (fun u =>
      ({ status := stOk,
         result := fields [(1, u.dev.role.code), (1, partnerCode u), (1, pairFlags u), (1, u.pair.syncPhase),
           (4, u.pair.epoch), (4, u.pair.partnerEpoch), (2, u.pair.deltaKib), (2, u.pair.deltaMax)] },
        if bitOf (pByte r 16) 0 then onPair (fun p => { p with deltaMax := 0 }) u else u))

/-- The calendar and timebase commands (R406 to R411, R258). -/
def Obligations.TimeCommandsRun : Prop :=
  ∀ r : Request,
    Runs cmdTimeSet r (.timeSet r) (fun u =>
      ({ status := stOk, result := [b8 (pByte r 26), b8 (timeFlags u)] },
        if pByte r 26 = 0 then loadCalendar (fieldsOf (pSlice r 16 24)) (pField r 24 2) u
        else onCal (fun c => { c with pendingSet := some (fieldsOf (pSlice r 16 24)) }) u)) ∧
    Runs cmdTimeGet r (.timeGet r) (fun u =>
      let ns := (latchNs u).1
      ({ status := stOk, result := fieldBytes u.cal.fields ++ leBytes 2 u.cal.subsec ++ [b8 (timeFlags u), 0] ++
          leBytes 4 (ns / 1000 % 2 ^ 32) },
        if byPointer r then
          putPayload r (sliceZ (leBytes 8 (ns / 1000000000) ++ leBytes 4 (ns % 1000000000) ++
            leBytes 2 (ofSigned 2 u.cal.n) ++ leBytes 2 (ofSigned 2 u.cal.temp) ++ [b8 (flag u.cal.hostCurve 0)]) 0 32)
            (latchNs u).2
        else (latchNs u).2)) ∧
    Runs cmdTimeShift r (.timeShift r) (fun u =>
      let v := logFw 0x6002 (fields [(2, pField r 16 2), (1, pByte r 18)]) u
      ({ status := stOk },
        if pByte r 18 = 0 then aonTick (pField r 16 2) v else onCal (fun c => { c with hold := pField r 16 2 }) v)) ∧
    Runs cmdAlarmSet r (.alarmSet r) (fun u =>
      let a := alarmOf u (pByte r 16)
      ({ status := stOk, result := [b8 (flag a.enable 0 + flag a.oneShot 1), a.mask] },
        onAlarm (pByte r 16) (fun a =>
          { value := fieldsOf (pSlice r 20 28), mask := b8 (pByte r 18), enable := bitOf (pByte r 17) 0,
            oneShot := bitOf (pByte r 17) 1, flag := a.flag && !bitOf (pByte r 17) 2, inRetain := a.inRetain }) u)) ∧
    Runs cmdTrimCurveSet r (.trimCurveSet r) (fun u =>
      let host := pByte r 22 == 0
      let k := if host then reqCurve r else factoryCurve u
      ({ status := stOk,
         result := leBytes 2 (ofSigned 2 (trimN k.1 k.2.1 k.2.2 u.cal.temp)) ++ leBytes 2 (ofSigned 2 u.cal.temp) },
        onCal (fun c => { c with mramCurve := if host then some k else none }) (setCurve host k u))) ∧
    Runs cmdPtpConfig r (.ptpConfig r) (fun u =>
      ({ status := stOk, result := [b8 u.net.tb.code, b8 u.net.source] },
        mirror (.ptp (pByte r 16) (pByte r 17) (pByte r 18) (pField r 20 4))
          (onNet (fun n =>
            { n with source := pByte r 16, tlPort := pByte r 17, domain := pByte r 18, threshold := pField r 20 4
                     ppsSeconds := pField r 24 8, goodMeasures := 0, stepOffset := 0, stepDue := false
                     freq := if pByte r 16 = 0 then 0 else n.freq
                     tb := if pByte r 16 = 0 then .free else .acquiring }) u)))

/-- The commands of the event record (R450 to R453).
The firmware commands (R484 to R489). -/
def Obligations.LogAndFirmwareCommandsRun : Prop :=
  ∀ r : Request,
    Runs cmdLogRead r (.logRead r) (fun u =>
      let a := pField r 16 6
      let l := (recordsFrom u a (newestSeq u)).take r.len
      ({ status := stOk,
         result := fields [(6, ((l.head?).map (·.seq)).getD 0), (2, l.length), (6, newestSeq u),
           (1, flag (a != 0 && decide (a < oldestSeq u)) 0 + flag l.isEmpty 1)] },
        putPayload r (l.flatMap recordBytes) u)) ∧
    Runs cmdLogExport r (.logExport r) (fun u =>
      let l := recordsFrom u (pField r 16 6) (if pField r 22 6 = 0 then newestSeq u else pField r 22 6)
      accept 0x7002 { r with object := l.flatMap recordBytes } l.length (l.map (·.seq)) u) ∧
    Runs cmdLogClear r (.logClear r) (fun u =>
      let old := (readable u).map (·.seq)
      let e := eventOf 0x7001 ([b8 (if hasAuth r then byteAt r.auth 0 else 0xFF), 0, 0, 0] ++
        fields [(4, old.length), (6, oldestSeq u)]) true u
      let x := writeEvent e (writeRepeat u)
      ({ status := stOk, result := fields [(6, x.1), (2, 0), (4, old.length)] },
        onLog (fun l => { l with cleared := x.1, toErase := l.toErase ++ old }) x.2)) ∧
    Runs cmdLogMark r (.logMark r) (fun u =>
      let v := logFw 0x7002 (sliceZ (pSlice r 16 40) 0 24) u
      if decide (256 ≤ u.log.queue.length) then ({ status := stOk }, v)
      else match lastMarkAt v.log.queue with
        | some k => ({ status := stOk, result := leBytes 6 (newestSeq (takeEvents (k + 1) v)) }, takeEvents (k + 1) v)
        | none => ({ status := stOk }, v)) ∧
    Runs cmdFwBegin r (.fwBegin r) (fun u =>
      let a := accept 0x8001 r 3 [(beginBank r u).getD 0] u
      (a.1, beginUpdate r ((beginBank r u).getD 0) a.2)) ∧
    Runs cmdFwData r (.fwData r) (fun u =>
      if pField r 16 2 < u.fw.updNext then ({ status := stOk, result := leBytes 2 u.fw.updNext }, u)
      else accept 0x8002 r 1 [] (onFw (fun f => { f with upd := 1 }) u)) ∧
    Runs cmdFwFinish r (.fwFinish r) (fun u =>
      let a := accept 0x8003 r u.fw.updN [] (onFw (fun f => { f with upd := 1 }) u)
      (a.1, waitHere (headIndex u) a.2)) ∧
    Runs cmdFwActivate r (.fwActivate r) (fun u => beginActivate 0x8004 r u.fw.updBank u) ∧
    Runs cmdFwStatus r (.fwStatus r) (fun u => ({ status := stOk, result := fwStatusResult u }, u)) ∧
    Runs cmdFwRevert r (.fwRevert r) (fun u => beginActivate 0x8006 r (targetBank u) u)

/-- The security commands (R472 to R477). -/
def Obligations.SecurityCommandsRun : Prop :=
  ∀ (r : Request) (random : BitVec 128),
    Runs (cmdAuthNonce random) r (.authNonce r random) (fun u =>
      ({ status := stOk, result := nonceBytes random }, issueNonce random u)) ∧
    Runs cmdDebugUnlock r (.debugUnlock r) (fun u =>
      if unlockGrant r = 0 then (unlockAnswer 2 (closeGrant u), closeGrant u)
      else if debugLevel u = 0 then (unlockAnswer 1 u, u)
      else
        let t := newGrant (bitOf (unlockGrant r) 0) (bitOf (unlockGrant r) 1) (unlockTime r) u
        (unlockAnswer 0 t, t)) ∧
    Runs cmdFuseRead r (.fuseRead r) (fun u =>
      let b := (List.range (pByte r 18)).flatMap (fun i => leBytes 4 (fuseWord u (pByte r 17 + i)).toNat)
      if pByte r 16 = 1 then ({ status := stOk, result := fuseSummary u }, u)
      else if pByte r 18 ≤ 4 then ({ status := stOk, result := b }, u) else ({ status := stOk }, putPayload r b u)) ∧
    Runs cmdFuseProgram r (.fuseProgram r) (fun u =>
      let l := bitsToBlow r u
      let a := accept 0xA005 r l.length (0 :: l) u
      (a.1, onOp (headIndex u) (fun o => { o with past := true }) a.2)) ∧
    Runs cmdKeyRevoke r (.keyRevoke r) (fun u =>
      let b := 32 + 8 * pByte r 16 + 2 * pByte r 17
      ({ status := stOk, result := [b8 (slotState u (pByte r 16) (pByte r 17))] },
        if slotState u (pByte r 16) (pByte r 17) = 1 then
          logFw 0xA004 (fields [(1, pByte r 17), (4, (draw 32 u).1.toNat)]) (blowBit (b + 1) (blowBit b (draw 32 u).2))
        else u))

/-- The energy commands (R374 to R377).
The memory integrity commands (R422 to R427). -/
def Obligations.EnergyAndIntegrityCommandsRun : Prop :=
  ∀ r : Request,
    Runs cmdEnergyStatus r (.energyStatus r) (fun u =>
      let p := if byPointer r then putPayload r (energyRecord u.energy) u else u
      ({ status := stOk, result := energyResult u },
        if bitOf (pByte r 16) 0 then
          onEnergy (fun e => { e with stalls := 0, returns := 0, stage2s := 0, overIntervals := 0, drawn := 0 }) p
        else p)) ∧
    Runs cmdPowerCapSet r (.powerCapSet r) (fun u =>
      ({ status := stOk, result := leBytes 2 u.energy.cap ++ [b8 u.energy.floor] },
        onEnergy (fun e => { e with cap := pField r 16 2, floor := pByte r 18, cls := min e.cls (pByte r 18) }) u)) ∧
    Runs cmdHoldupConfig r (.holdupConfig r) (fun u =>
      let t := configureHoldup (reqHoldup r) (bitOf (pByte r 32) 0) u
      ({ status := stOk, result := fields [(2, t.energy.limit / 1024), (2, 0), (4, t.energy.avail / 1000000)] }, t)) ∧
    Runs cmdCellConfig r (.cellConfig r) (fun u =>
      let fresh := bitOf (pByte r 18) 0
      let v := onEnergy (fun e =>
        { e with capacity := pField r 16 2, lowPct := pByte r 19, drawn := if fresh then 0 else e.drawn,
                 cellUnknown := e.cellUnknown && !fresh, cellLow := e.cellLow && !fresh,
                 cellAbsent := if fresh then decide (e.vbat < 1800) else e.cellAbsent }) u
      ({ status := stOk, result := fields [(4, u.energy.drawn / 100), (2, cellPermille v.energy)] },
        if bitOf (pByte r 18) 1 then onDev (fun d => { d with retainLost := false }) v else v)) ∧
    Runs cmdMemFill r (.memFill r) (fun u => accept 0xB001 r (fillWords r) [] u) ∧
    Runs cmdScrubConfig r (.scrubConfig r) (fun u =>
      let set := fun (v : State) => onInteg (fun i =>
        { i with periods := (List.range 4).map (fun g => if reqPeriod r g = 0 then nth 0 i.periods g else reqPeriod r g) }) v
      if reqBurst r then
        let d := draw 32 (onInteg (fun i => { i with burstUe := false }) (set u))
        let a := accept 0xB002 r d.1.toNat [] d.2
        ({ a.1 with result := leBytes 4 u.integ.passes }, waitHere (headIndex d.2) a.2)
      else ({ status := stOk, result := leBytes 4 u.integ.passes }, set u)) ∧
    Runs cmdMemTest r (.memTest r) (fun u =>
      let a := accept 0xB003 r (testCount r) [0, 0, 0, 0] (onInteg (fun i => { i with level := 0 }) u)
      (a.1, waitHere (headIndex u) a.2)) ∧
    Runs cmdErrStatus r (.errStatus r) (fun u =>
      ({ status := stOk, result := fields [(4, errCeCount u), (4, errUeCount u), (4, errBucket u), (4, errLast u)] },
        clearBucket (bitOf (pByte r 16) 0) u))

/-- The field commands (R508 to R510) and the watchdog commands (R439, R440). -/
def Obligations.FieldAndWatchdogCommandsRun : Prop :=
  ∀ r : Request,
    Runs cmdFioConfig r (.fioConfig r) (fun u =>
      let t := (List.range 32).foldl (fun t c => configureChannel r c t) u
      ({ status := stOk, result := leBytes 4 (((List.range 32).map (fun c => flag (channelChanges r u c) c)).sum) },
        mirror (channelObject t) t)) ∧
    Runs cmdFioStatus r (.fioStatus r) (fun u =>
      ({ status := stOk,
         result := fields [(4, statFioIn u), (4, statFio u), (4, statFioFault u),
           (4, ((List.range 32).map (fun c => flag (abDiffer c (getCh u c)) c)).sum)] },
        if byPointer r then putPayload r ((List.range 32).flatMap (channelRecord u)) u else u)) ∧
    Runs cmdFioTestPulse r (.fioTestPulse r) (fun u =>
      let a := accept 0xC003 r (pulseChannels r).length [0, 0, 0, 0] u
      (a.1, onFio (fun f => { f with test := some (headIndex u, pulseChannels r, none) }) a.2)) ∧
    Runs cmdWdgConfig r (.wdgConfig r) (fun u =>
      ({ status := stOk,
         result := [b8 (flag u.wdg.enabled 0 + flag u.wdg.locked 1), 0, 0, 0] ++ leBytes 4 (wdogNow u - u.wdg.s) },
        wdgSet r u)) ∧
    Runs cmdWdgEvidence r (.wdgEvidence r) (fun u =>
      ({ status := stOk, result := evidenceBytes (evidenceOf u (pByte r 16)) },
        if bitOf (pByte r 17) 0 then
          logFw 0xD004 (fields [(1, pByte r 16), (2, (evidenceOf u (pByte r 16)).count)]) (putEvidence (pByte r 16) Evidence.reset u)
        else u))

/-! ### Host rules stated whole -/

/-- R50: HANDLE_RELEASE of a DONE handle completes with OK and frees the index; of a PENDING handle it completes with BUSY and has
no effect. -/
def Obligations.HandleReleaseFreesDoneHandle : Prop :=
  ∀ (r : Request) (s : State) (o : LongOp), accepted cmdHandleRelease r s = true →
    findOp (advance r.time s) (pField r 16 4) = some o →
    (o.done = true → ∃ t, exec (.handleRelease r) s = .next (keep s (answer r { status := 0x00, handle := pField r 16 4 } t)) ∧
      (pField r 16 4 % 4096) ∈ t.host.freed ∧
      t = onHost (fun h =>
        { h with ops := erase h.ops (pField r 16 4 % 4096), freed := h.freed ++ [pField r 16 4 % 4096],
                 heldFinals := h.heldFinals.filter (fun e => !(e.1 == pField r 16 4 % 4096)) }) (begins cmdHandleRelease r s)) ∧
    (o.done = false →
      exec (.handleRelease r) s = .next (keep s (answer r { status := 0x14, handle := pField r 16 4 } (begins cmdHandleRelease r s))))

/-- R101: FORCE_CLEAR removes the slot's entry and completes with OK; byte 0 tells whether there was one, without which the table
and the event record stay as they are; a slot index of 262,144 or more is BAD_PARAM. -/
def Obligations.ForceClearRemovesEntry : Prop :=
  ∀ (r : Request) (s : State),
    (accepted cmdForceClear r s = true → pField r 16 4 < 262144 ∧
      ∃ t, exec (.forceClear r) s = .next (keep s (answer r
          { status := 0x00,
            result := [if (forceOf s (pField r 16 4)).isSome then 1 else 0, 0, 0, 0] ++ leBytes 2 t.img.forces.length } t)) ∧
        t = settle (withTriggers [pField r 16 4] (clearForce 2 (pField r 16 4)) (begins cmdForceClear r s)) ∧
        (∀ u, forceOf (clearForce 2 (pField r 16 4) u) (pField r 16 4) = none ∧
          (∀ a, a ≠ pField r 16 4 → forceOf (clearForce 2 (pField r 16 4) u) a = forceOf u a) ∧
          ((forceOf u (pField r 16 4)).isNone → clearForce 2 (pField r 16 4) u = u))) ∧
    (pathTakes cmdForceClear r (advance r.time s) = true → structureOk cmdForceClear r (advance r.time s) = true →
      stateOk cmdForceClear r (advance r.time s) = true → legalRole 0x2006 s.dev.role = true → 262144 ≤ pField r 16 4 →
      exec (.forceClear r) s = .next (keep s (answer r { status := 0x11 } (advance r.time s))))

/-- R440: WDG_EVIDENCE refuses a watchdog number above 2 with BAD_PARAM; it returns the record as it stands, and with clear set
the record is then 0 in every word and an event names the watchdog and its former count. -/
def Obligations.WatchdogEvidenceReadsThenClears : Prop :=
  ∀ (r : Request) (s : State),
    (accepted cmdWdgEvidence r s = true → pByte r 16 ≤ 2 ∧
      ∃ t, exec (.wdgEvidence r) s =
          .next (keep s (answer r { status := 0x00, result := evidenceBytes (evidenceOf s (pByte r 16)) } t)) ∧
        (bitOf (pByte r 17) 0 = false → t = begins cmdWdgEvidence r s) ∧
        (bitOf (pByte r 17) 0 = true →
          evidenceOf t (pByte r 16) = ⟨0, 0, 0, 0, 0⟩ ∧
          (∀ n, n ≤ 2 → n ≠ pByte r 16 → evidenceOf t n = evidenceOf s n) ∧
          t = logFw 0xD004 (fields [(1, pByte r 16), (2, (evidenceOf s (pByte r 16)).count)])
            (putEvidence (pByte r 16) ⟨0, 0, 0, 0, 0⟩ (begins cmdWdgEvidence r s)))) ∧
    (pathTakes cmdWdgEvidence r (advance r.time s) = true → structureOk cmdWdgEvidence r (advance r.time s) = true →
      stateOk cmdWdgEvidence r (advance r.time s) = true → 2 < pByte r 16 →
      exec (.wdgEvidence r) s = .next (keep s (answer r { status := 0x11 } (advance r.time s))))

/-- R409: TIME_SHIFT with an n of 0 or above 32,767, or a direction above 1, is BAD_PARAM; while a hold lasts it is BUSY. -/
def Obligations.TimeShiftRefusals : Prop :=
  ∀ (r : Request) (s : State), pathTakes cmdTimeShift r (advance r.time s) = true →
    structureOk cmdTimeShift r (advance r.time s) = true → stateOk cmdTimeShift r (advance r.time s) = true →
    ((pField r 16 2 = 0 ∨ 32767 < pField r 16 2 ∨ 1 < pByte r 18) →
      exec (.timeShift r) s = .next (keep s (answer r { status := 0x11 } (advance r.time s)))) ∧
    (1 ≤ pField r 16 2 → pField r 16 2 ≤ 32767 → pByte r 18 ≤ 1 → urgentPath r.origin = false → 0 < s.cal.hold →
      exec (.timeShift r) s = .next (keep s (answer r { status := 0x14 } (advance r.time s))))

/-! ### Synna Code: one engine and one instruction (06, 12) -/

/-- An engine on its own carries out an instruction by its plan: with everything it needs at hand it completes, or ends the
activation, or traps under END; the plan of an instruction depends on what the engine sees and on nothing else. -/
def Obligations.EngineCarriesOutPlan : Prop :=
  ∀ (i : Instr) (e : Fin 16) (n : Nat) (v : View) (s : State), engineOf i = some e → Alone i e.val n v s →
    (∀ f, sncPlan i v = .done f → f.ends = false → Completes i e.val n f s) ∧
    (∀ f, sncPlan i v = .done f → f.ends = true →
      exec i s = .next (keep s (settle (endActivation n none (complete false n e.val (lengthOf i) f (started e.val s)))))) ∧
    (∀ c u cy, sncPlan i v = .stop c u cy → Traps i e.val n c u cy s) ∧
    (∀ op w f, sncPlan i v = .need op → viewOf (afterOp n e.val op (started e.val s)) e.val = some w →
      fetched i w = .done f → f.ends = false →
      exec i s = .next (keep s (complete false n e.val (lengthOf i) f (afterOp n e.val op (started e.val s)))))

/-- The encodings of Synna Code (R141 to R146, R164): every Synna Code instruction has a word, with every operand at every value that
its format admits, and decodes from it; a word that decodes is the word of the instruction that it spells (of a 16-bit form the first
parcel); and bit 31 of the word says which form it is. -/
def Obligations.CodeWordsRoundTrip : Prop :=
  (∀ (i : Instr) (e : Fin 16), engineOf i = some e → ∃ w, encodeSnc i = some (e, w)) ∧
  (∀ (i : Instr) (e : Fin 16) (w : BitVec 32), encodeSnc i = some (e, w) → decodeSnc e w = some i) ∧
  (∀ (i : Instr) (e : Fin 16) (w : BitVec 32), decodeSnc e w = some i →
    (w.getLsbD 31 = true ∨ w.extractLsb' 0 16 = 0 → encodeSnc i = some (e, w)) ∧ shortForm i = !w.getLsbD 31)

/-- What the fetch refuses (R141, R145, R146, R148, R164, R200, R417), for every instruction: off the task's page list a CODE trap,
then a damaged context POISON, then code that spells no instruction, or 32 bits across a page boundary, ILLEGAL, each before any
effect of the instruction; and an engine executes nothing but what the code at its program counter spells, from lines that pass their
check.
An engine that runs nothing, that debug holds, or that belongs to a STANDBY executes nothing: the state stays as it is. -/
def Obligations.FetchTrapsOrExecutesNothing : Prop :=
  (∀ (i : Instr) (e : Fin 16) (n : Nat) (v : View) (s : State), engineOf i = some e → mayBegin s e.val = true →
    (getEng s e.val).task = some n → (getTask s n).sched.dual = false → viewOf (started e.val s) e.val = some v →
    (v.d.pages.contains (v.g.pc / 4096) = false → Traps i e.val n 0x2 0 1 s) ∧
    (v.d.pages.contains (v.g.pc / 4096) = true → pageIn s (v.g.pc / 4096) = true →
      (fetchPasses s v.g.pc = false → exec i s = .next s) ∧
      (fetchPasses s v.g.pc = true →
        (∀ j, codeAt s e.val v.g.pc = some j → j ≠ i → exec i s = .next s) ∧
        (v.g.ctxBad = true → (codeAt s e.val v.g.pc = some i ∨ codeAt s e.val v.g.pc = none) → Traps i e.val n 0x3 0 1 s) ∧
        (v.g.ctxBad = false → codeAt s e.val v.g.pc = none → Traps i e.val n 0x1 0 1 s))) ∧
    ((fetchWord s v.g.pc).getLsbD 31 = true → v.g.pc % 4096 = 4094 → codeAt s e.val v.g.pc = none)) ∧
  (∀ (i : Instr) (e : Fin 16) (s : State), engineOf i = some e →
    ((getEng s e.val).task = none ∨ (getEng s e.val).halted = true ∧ (getEng s e.val).stepOne = false ∨
      s.dev.role = .standby) →
    exec i s = .next s)

/-- Frame of an instruction that only writes registers and flags of its engine: every other engine, every task, the image, data
memory, the legacy area, the event record, the energy ledger and every other part of the state stay as they are, and in the engine
every register but the destination and, where it links, G31. A MARK is the exception: its first one in an activation writes its
record (R150). -/
def Obligations.RegisterInstructionFrame : Prop :=
  ∀ (i : Instr) (e : Fin 16) (n : Nat) (v : View) (f : Effect) (s : State), engineOf i = some e → Alone i e.val n v s →
    sncPlan i v = .done f → f.ends = false → f.data = [] → f.marked = none →
    ∃ t, exec i s = .next t ∧
      t = { s with scan := { s.scan with engines := t.scan.engines } } ∧
      t.scan.engines.length = s.scan.engines.length ∧
      (∀ d, d ≠ e.val → getEng t d = getEng s d) ∧
      (getEng t e.val).task = (getEng s e.val).task ∧
      (∀ k, k < 32 → (∀ w, f.dst ≠ some (k, w)) → (f.link = none ∨ k ≠ 31) →
        nth TWord.empty (getEng t e.val).regs k = nth TWord.empty (getEng s e.val).regs k) ∧
      (∀ a, (∀ w, f.loc ≠ some (a, w)) → look (getEng t e.val).loc a = look (getEng s e.val).loc a) ∧
      (getEng t e.val).markCount = (getEng s e.val).markCount ∧ (getEng t e.val).lastMark = (getEng s e.val).lastMark ∧
      (f.lgc = none → (getEng t e.val).lgc = (getEng s e.val).lgc) ∧
      (f.carry = false → f.clearCarry = false → (getEng t e.val).lgcCarry = (getEng s e.val).lgcCarry)

/-- A pair's engine at an instruction that compares nothing and stores nothing completes it in its own engine; what both engines
have issued is then resolved (R299, R301). -/
def Obligations.PairedEngineCompletesInLockstep : Prop :=
  ∀ (i : Instr) (e : Fin 16) (n : Nat) (v : View) (f : Effect) (s : State), engineOf i = some e → mayBegin s e.val = true →
    (getEng s e.val).task = some n → (getTask s n).sched.dual = true → viewOf (started e.val s) e.val = some v →
    v.d.pages.contains (v.g.pc / 4096) = true → pageIn s (v.g.pc / 4096) = true → codeAt s e.val v.g.pc = some i →
    fetchPasses s v.g.pc = true → fetched i v = .done f → f.ends = false → f.marked = none → f.data = [] →
    exec i s = .next (keep s (resolveAll n (e.val / 2) 16 (complete true n e.val (lengthOf i) f (started e.val s))))

/-! ### Synna Code: what each family does (07) -/

/-- Two register operands: the result of op on them under R149's order (POISON first), to register d. -/
def Claims.Two (mk : Fin 16 → LForm → Instr) (op : Bool → TWord → TWord → Res) (cycles : BitVec 4 → Nat) : Prop :=
  ∀ (e : Fin 16) (f : LForm) (n : Nat) (v : View) (s : State), Alone (mk e f) e.val n v s →
    lBad f true 0 true true true = false → poisonous (reg v f.a) = false → poisonous (reg v f.b) = false →
    Gives (mk e f) e.val n v f.d f.qb [reg v f.a, reg v f.b] (op v.g.lgc (reg v f.a) (reg v f.b)) cycles s

/-- One register operand. -/
def Claims.One (mk : Fin 16 → LForm → Instr) (op : Bool → TWord → Res) (cycles : BitVec 4 → Nat) : Prop :=
  ∀ (e : Fin 16) (f : LForm) (n : Nat) (v : View) (s : State), Alone (mk e f) e.val n v s →
    lBad f true 0 true true false = false → poisonous (reg v f.a) = false →
    Gives (mk e f) e.val n v f.d f.qb [reg v f.a] (op v.g.lgc (reg v f.a)) cycles s

/-- Register d as a third operand. -/
def Claims.Three (mk : Fin 16 → LForm → Instr) (op : Bool → TWord → TWord → TWord → Res) (cycles : BitVec 4 → Nat) : Prop :=
  ∀ (e : Fin 16) (f : LForm) (n : Nat) (v : View) (s : State), Alone (mk e f) e.val n v s →
    lBad f true 0 true true true = false → poisonous (reg v f.d) = false → poisonous (reg v f.a) = false →
    poisonous (reg v f.b) = false →
    Gives (mk e f) e.val n v f.d f.qb [reg v f.d, reg v f.a, reg v f.b]
      (op v.g.lgc (reg v f.d) (reg v f.a) (reg v f.b)) cycles s

/-- A register and a signed 15-bit immediate. -/
def Claims.Immediate (mk : Fin 16 → IForm → Instr) (op : Bool → Word → TWord → Res) (cycles : Nat) : Prop :=
  ∀ (e : Fin 16) (f : IForm) (n : Nat) (v : View) (s : State), Alone (mk e f) e.val n v s → poisonous (reg v f.a) = false →
    Gives (mk e f) e.val n v f.d false [reg v f.a] (op v.g.lgc (f.imm.signExtend 32) (reg v f.a)) (fun _ => cycles) s

/-- Arithmetic (R168 to R172): each instruction gives d the result of its operation, in every accepted type, legacy mode or not,
with the cycle counts of R168. -/
def Obligations.ArithmeticInstructionsRun : Prop :=
  Claims.Two .add aluAdd (cyc 1 3) ∧ Claims.Two .sub aluSub (cyc 1 3) ∧ Claims.Two .mul aluMul (cyc 3 4) ∧
  Claims.Two .div aluDiv (cyc 18 14) ∧ Claims.Two .mod aluMod (cyc 18 18) ∧ Claims.One .neg aluNeg (cyc 1 1) ∧
  Claims.One .abs aluAbs (cyc 1 1) ∧ Claims.Two .min aluMin (cyc 1 2) ∧ Claims.Two .max aluMax (cyc 1 2) ∧
  Claims.Three .lim aluLim (cyc 2 3) ∧ Claims.Immediate .addi aluAddi 1 ∧ Claims.Immediate .muli aluMuli 3 ∧
  Claims.One .sqrt (fun _ => aluReal1 fSqrt) (fun _ => 16) ∧ Claims.One .ln (fun _ => aluReal1 fLn) (fun _ => 40) ∧
  Claims.One .exp (fun _ => aluReal1 fExpE) (fun _ => 40) ∧ Claims.One .sin (fun _ => aluReal1 fSin) (fun _ => 48) ∧
  Claims.One .cos (fun _ => aluReal1 fCos) (fun _ => 48) ∧ Claims.Two .atan2 (fun _ => aluAtan2) (fun _ => 56)

/-- Integer arithmetic outside legacy mode (R168, R169): on two INT operands of any quality, ADD, SUB and MUL give the exact
result where it fits in 32 bits and OVERFLOW where it does not; DIV truncates towards zero, MOD takes the dividend's sign, and
both give DIVIDE by zero; NEG and ABS give OVERFLOW on the most negative number; MIN and MAX give the smaller and the larger. -/
def Obligations.IntegerArithmeticIsExact : Prop :=
  ∀ a b : TWord, a.ty = Ty.int → b.ty = Ty.int →
    (∀ x : Int, x = a.payload.toInt + b.payload.toInt →
      aluAdd false a b = if -2147483648 ≤ x ∧ x ≤ 2147483647 then .ok Ty.int (BitVec.ofInt 32 x) false
        else .fail cOverflow Ty.int (if 0 < x then 0x7FFFFFFF else 0x80000000)) ∧
    (∀ x : Int, x = a.payload.toInt - b.payload.toInt →
      aluSub false a b = if -2147483648 ≤ x ∧ x ≤ 2147483647 then .ok Ty.int (BitVec.ofInt 32 x) false
        else .fail cOverflow Ty.int (if 0 < x then 0x7FFFFFFF else 0x80000000)) ∧
    (∀ x : Int, x = a.payload.toInt * b.payload.toInt →
      aluMul false a b = if -2147483648 ≤ x ∧ x ≤ 2147483647 then .ok Ty.int (BitVec.ofInt 32 x) false
        else .fail cOverflow Ty.int (if 0 < x then 0x7FFFFFFF else 0x80000000)) ∧
    (b.payload = 0 → aluDiv false a b = .fail cDivide Ty.int (divideMark a.payload.toInt) ∧
      aluMod false a b = .fail cDivide Ty.int (divideMark a.payload.toInt)) ∧
    (b.payload ≠ 0 → ∃ q m : Int, q * b.payload.toInt + m = a.payload.toInt ∧ m.natAbs < b.payload.toInt.natAbs ∧
      (0 ≤ a.payload.toInt → 0 ≤ m) ∧ (a.payload.toInt ≤ 0 → m ≤ 0) ∧
      aluDiv false a b = (if q ≤ 2147483647 then .ok Ty.int (BitVec.ofInt 32 q) false
        else .fail cOverflow Ty.int 0x7FFFFFFF) ∧
      aluMod false a b = .ok Ty.int (BitVec.ofInt 32 m) false) ∧
    (aluNeg false a = if a.payload = 0x80000000 then .fail cOverflow Ty.int 0x7FFFFFFF
      else .ok Ty.int (BitVec.ofInt 32 (-a.payload.toInt)) false) ∧
    (aluAbs false a = if a.payload = 0x80000000 then .fail cOverflow Ty.int 0x7FFFFFFF
      else .ok Ty.int (BitVec.ofInt 32 |a.payload.toInt|) false) ∧
    (aluMin false a b = .ok Ty.int (if a.payload.toInt ≤ b.payload.toInt then a.payload else b.payload) false) ∧
    (aluMax false a b = .ok Ty.int (if b.payload.toInt ≤ a.payload.toInt then a.payload else b.payload) false)

/-- R73 and R74: the quality of a result is the largest quality code among its operands, and F and S are set exactly where an
operand's are; a quality-blind form gives GOOD instead and keeps F and S (R151). -/
def Obligations.ResultTakesWorstQuality : Prop :=
  ∀ (ws : List TWord) (ty : BitVec 4) (p : Word),
    (Q.good.toNat < Q.uncertain.toNat ∧ Q.uncertain.toNat < Q.stale.toNat ∧ Q.stale.toNat < Q.bad.toNat) ∧
    ((resultWord false ws ty p).q.toNat = (ws.map (fun w => w.q.toNat)).foldl max 0) ∧
    ((resultWord true ws ty p).q = Q.good) ∧
    (∀ qb, ((resultWord qb ws ty p).forced = true ↔ ∃ w ∈ ws, w.forced = true) ∧
      ((resultWord qb ws ty p).sub = true ↔ ∃ w ∈ ws, w.sub = true) ∧
      (resultWord qb ws ty p).ty = ty ∧ (resultWord qb ws ty p).payload = p)

/-- Comparison (R173): BOOL of the test, in the types each takes; a REAL comparison costs 2 cycles.
The orders of R173 on operands of one type: INT and DURATION as signed numbers, WORD as unsigned, STAMP by serial arithmetic
(R6): newer when the difference modulo 2^32 is 1 to 2^31 − 1, and neither newer nor equal at 2^31. -/
def Obligations.ComparisonInstructionsRun : Prop :=
  ((∀ (mk : Fin 16 → LForm → Instr) (types : List (BitVec 4)) (test : Option Ordering → Bool),
    (mk, types, test) ∈ [(.eq, eqTypes, tEq), (.ne, eqTypes, tNe), (.lt, ordTypes, tLt), (.le, ordTypes, tLe),
      (.gt, ordTypes, tGt), ((.ge, ordTypes, tGe) : (Fin 16 → LForm → Instr) × List (BitVec 4) × (Option Ordering → Bool))] →
    ∀ (e : Fin 16) (f : LForm) (n : Nat) (v : View) (s : State), Alone (mk e f) e.val n v s →
      lBad f true 0 true true true = false → poisonous (reg v f.a) = false → poisonous (reg v f.b) = false →
      Gives (mk e f) e.val n v f.d f.qb [reg v f.a, reg v f.b] (aluCompare types test (reg v f.a) (reg v f.b))
        (fun _ => if (reg v f.a).ty = Ty.real then 2 else 1) s) ∧
  Claims.Two .unord (fun _ => aluUnord) (fun _ => 2) ∧
  Claims.Immediate .ceqi (fun _ => aluCompareImm tEq) 1 ∧ Claims.Immediate .clti (fun _ => aluCompareImm tLt) 1 ∧
  Claims.Immediate .cgti (fun _ => aluCompareImm tGt) 1) ∧
  (∀ x y : Word,
    order Ty.int x y = some (compare x.toInt y.toInt) ∧ order Ty.duration x y = some (compare x.toInt y.toInt) ∧
    order Ty.word x y = some (compare x.toNat y.toNat) ∧
    (order Ty.stamp x y = some .gt ↔ 1 ≤ (x - y).toNat ∧ (x - y).toNat ≤ 2147483647) ∧
    (order Ty.stamp x y = some .eq ↔ x = y) ∧
    (order Ty.stamp x y = none ↔ x - y = 0x80000000))

/-- Bits and logic (R174). -/
def Obligations.BitInstructionsRun : Prop :=
  Claims.Two .and (fun _ => aluLogic (· &&& ·)) (cyc 1 1) ∧ Claims.Two .or (fun _ => aluLogic (· ||| ·)) (cyc 1 1) ∧
  Claims.Two .xor (fun _ => aluLogic (· ^^^ ·)) (cyc 1 1) ∧ Claims.One .not (fun _ => aluNot) (cyc 1 1) ∧
  Claims.Two .andn (fun _ => aluLogic (fun a b => a &&& ~~~b)) (cyc 1 1) ∧
  Claims.Two .shl aluShl (cyc 1 1) ∧ Claims.Two .shr aluShr (cyc 1 1) ∧ Claims.Two .sar aluSar (cyc 1 1) ∧
  Claims.Two .rol aluRol (cyc 1 1) ∧ Claims.Two .ror aluRor (cyc 1 1) ∧ Claims.One .popc (fun _ => aluPopc) (cyc 2 2) ∧
  Claims.One .clz (fun _ => aluClz) (cyc 2 2) ∧ Claims.Immediate .andi (fun _ => aluLogicImm (· &&& ·)) 1 ∧
  Claims.Immediate .ori (fun _ => aluLogicImm (· ||| ·)) 1 ∧ Claims.Immediate .xori (fun _ => aluLogicImm (· ^^^ ·)) 1 ∧
  Claims.Two .btst (fun _ => aluBtst) (cyc 1 1) ∧ Claims.Two .bset (fun _ => aluBset) (cyc 1 1) ∧
  Claims.Two .bclr (fun _ => aluBclr) (cyc 1 1) ∧ Claims.Three .bput (fun _ => aluBput) (cyc 2 2)

/-- Words wrap and legacy mode reduces (R154, R169, R172): WORD arithmetic outside legacy mode is modulo 2^32 and never traps; in
legacy mode INT results are the low 16 bits, sign-extended, and WORD results the low 16 bits, zero-extended, and the range flag
says whether the exact result lay outside.
Shifts take the low five bits of their count, and counts are INT or WORD (R174); CLZ of 0 is 32. -/
def Obligations.WordsWrapAndShiftsMask : Prop :=
  (∀ a b : TWord,
    (a.ty = Ty.word → b.ty = Ty.word →
      aluAdd false a b = .ok Ty.word (a.payload + b.payload) false ∧
      aluSub false a b = .ok Ty.word (a.payload - b.payload) false ∧
      aluMul false a b = .ok Ty.word (a.payload * b.payload) false ∧
      aluAdd true a b = .ok Ty.word ((a.payload + b.payload) &&& 0xFFFF)
        (decide (65535 < a.payload.toNat + b.payload.toNat))) ∧
    (a.ty = Ty.int → b.ty = Ty.int → ∀ x : Int, x = a.payload.toInt + b.payload.toInt →
      aluAdd true a b = .ok Ty.int (((BitVec.ofInt 16 x)).signExtend 32) (decide (x < -32768 ∨ 32767 < x))) ∧
    (a.ty = Ty.int → b.ty = Ty.int → a.payload = BitVec.ofInt 32 (-32768) → b.payload = BitVec.ofInt 32 (-1) →
      aluDiv true a b = .ok Ty.int (BitVec.ofInt 32 (-32768)) true)) ∧
  (∀ a b : TWord, a.ty = Ty.word → (b.ty = Ty.int ∨ b.ty = Ty.word) →
    aluShl false a b = .ok Ty.word (a.payload <<< (b.payload.toNat % 32)) false ∧
    aluShr false a b = .ok Ty.word (a.payload >>> (b.payload.toNat % 32)) false ∧
    aluRol false a b = .ok Ty.word (a.payload.rotateLeft (b.payload.toNat % 32)) false ∧
    aluRor false a b = .ok Ty.word (a.payload.rotateRight (b.payload.toNat % 32)) false ∧
    aluBtst a b = .ok Ty.bool (if a.payload.getLsbD (b.payload.toNat % 32) then 1 else 0) false ∧
    (a.payload = 0 → aluClz a = .ok Ty.int 32 false ∧ aluPopc a = .ok Ty.int 0 false) ∧
    (a.payload.getLsbD 31 = true → aluClz a = .ok Ty.int 0 false))

/-- Type, quality and conversion (R176 to R178): the descriptions of a word, POISON included; QSET and QWORSE set a quality; SUBST
takes the first operand unless it is EMPTY or BAD; CVT, RAWS, RAWU, SFLG and SCALE give the results of their tables.
Conversions of R177 between integers: INT to WORD and back outside the other's range give OVERFLOW with the saturated value;
DURATION and INT keep their payload. -/
def Obligations.TypeInstructionsRun : Prop :=
  ((∀ (e : Fin 16) (f : LForm) (n : Nat) (v : View) (s : State), lBad f false 0 true true false = false →
    wellFormed (reg v f.a) = true →
    (Alone (.typeof e f) e.val n v s → Completes (.typeof e f) e.val n
      { dst := some (f.d.val, .mk0 Ty.int ((reg v f.a).ty.zeroExtend 32)) } s) ∧
    (Alone (.qualof e f) e.val n v s → Completes (.qualof e f) e.val n
      { dst := some (f.d.val, .mk0 Ty.int (if (reg v f.a).ty = Ty.poison then 3 else (reg v f.a).q.zeroExtend 32)) } s) ∧
    (Alone (.isgood e f) e.val n v s → Completes (.isgood e f) e.val n
      { dst := some (f.d.val, .mk0 Ty.bool (boolWord ((reg v f.a).q == Q.good && (reg v f.a).ty != Ty.poison))) } s) ∧
    (Alone (.flags e f) e.val n v s → Completes (.flags e f) e.val n
      { dst := some (f.d.val, .mk0 Ty.word (flagsOf (reg v f.a))) } s) ∧
    (Alone (.isempty e f) e.val n v s → Completes (.isempty e f) e.val n
      { dst := some (f.d.val, .mk0 Ty.bool (boolWord ((reg v f.a).ty == Ty.empty))) } s)) ∧
  (∀ (e : Fin 16) (f : LForm) (n : Nat) (v : View) (s : State), lBad f false 0 true true true = false →
    poisonous (reg v f.a) = false → poisonous (reg v f.b) = false →
    (countOk (reg v f.b) = true → Alone (.qset e f) e.val n v s → Completes (.qset e f) e.val n
      { dst := some (f.d.val, { reg v f.a with q := (reg v f.b).payload.extractLsb' 0 2 }) } s) ∧
    (countOk (reg v f.b) = true → Alone (.qworse e f) e.val n v s → Completes (.qworse e f) e.val n
      { dst := some (f.d.val, { reg v f.a with q := worse (reg v f.a).q ((reg v f.b).payload.extractLsb' 0 2) }) } s) ∧
    (Alone (.subst e f) e.val n v s → Completes (.subst e f) e.val n
      { dst := some (f.d.val, if (reg v f.a).ty != Ty.empty && (reg v f.a).q != Q.bad then reg v f.a else reg v f.b) } s)) ∧
  (∀ (e : Fin 16) (fn : BitVec 6) (f : LForm) (n : Nat) (v : View) (s : State), fn.toNat ≤ 9 →
    lBad f true 3 true true false = false → poisonous (reg v f.a) = false → Alone (.cvt e fn f) e.val n v s →
    Gives (.cvt e fn f) e.val n v f.d f.qb [reg v f.a] (aluCvt fn.toNat f.xf.val (reg v f.a))
      (fun _ => cvtCycles fn.toNat (reg v f.a)) s) ∧
  Claims.One .raws (fun _ => aluRaws) (cyc 1 1) ∧ Claims.One .rawu (fun _ => aluRawu) (cyc 1 1) ∧
  Claims.One .sflg (fun _ => aluSflg) (cyc 1 1) ∧
  (∀ (e : Fin 16) (f : LForm) (n : Nat) (v : View) (s : State), lBad f true 1 true true true = false →
    poisonous (reg v f.a) = false → poisonous (reg v f.b) = false → Alone (.scale e f) e.val n v s →
    Gives (.scale e f) e.val n v f.d f.qb [reg v f.a, reg v f.b] (aluScale (f.xf.val == 0) (reg v f.a) (reg v f.b))
      (fun _ => 4) s)) ∧
  (∀ (a : TWord) (mode : Nat),
    (a.ty = Ty.int → aluCvt 1 mode a = if 0 ≤ a.payload.toInt then .ok Ty.word a.payload false else .fail cOverflow Ty.word 0) ∧
    (a.ty = Ty.word → aluCvt 0 mode a = if a.payload.toNat ≤ 2147483647 then .ok Ty.int a.payload false
      else .fail cOverflow Ty.int 0x7FFFFFFF) ∧
    (a.ty = Ty.int → aluCvt 3 mode a = .ok Ty.duration a.payload false) ∧
    (a.ty = Ty.duration → aluCvt 0 mode a = .ok Ty.int a.payload false) ∧
    (a.ty = Ty.word → aluCvt 5 mode a = if a.payload.toNat ≤ 0x3FFFF then .ok Ty.slotref a.payload false
      else .fail cOverflow Ty.slotref 0x3FFFF) ∧
    (a.ty = Ty.empty → ∀ fn, aluCvt fn mode a = .fail cEmpty (cvtType fn) 0))

/-- A load that finds a word, in one more operation (R179): from data memory, a slot, the local store or the legacy area. -/
def Claims.Loads (i : Instr) (e n : Nat) (d : Fin 32) (op : XOp) (cycles : Nat) (s : State) : Prop :=
  ∀ w, w = (perform n e op (started e s)).1 → poisonous w = false →
    exec i s = .next (keep s (complete false n e (lengthOf i) { dst := some (d.val, w), cycles := cycles }
      (afterOp n e op (started e s))))

/-- Loads (R179, R188, R190): a load reads the word at base plus displacement in its space and gives it to d unchanged, unless it is
POISON; SDESC reads a word of a descriptor; LDLS a legacy word as a signed INT. -/
def Obligations.LoadInstructionsRun : Prop :=
  (∀ (e : Fin 16) (f : MForm) (n : Nat) (v : View) (s : State) (a : Nat), Alone (.ld e f) e.val n v s →
    poisonous (reg v f.base) = false → address v f.sp.val f.base f.disp.toInt = .ok a →
    (f.sp.val = 0 → Claims.Loads (.ld e f) e.val n f.d (.readData a) 6 s) ∧
    (f.sp.val = 1 → (descOf s a).dir ≠ 0 → Claims.Loads (.ld e f) e.val n f.d (.readSlot a) 6 s) ∧
    (f.sp.val = 2 → ∀ w t, (w, t) = readLocal e.val a (started e.val s) → poisonous w = false →
      exec (.ld e f) s = .next (keep s (complete false n e.val 4 { dst := some (f.d.val, w), cycles := 2 }
        (pushResult e.val w t)))) ∧
    (f.sp.val = 3 → s.mem.legacyBad.contains a = false → Claims.Loads (.ld e f) e.val n f.d (.readLegacy a) 6 s)) ∧
  (∀ (e : Fin 16) (f : WForm) (n : Nat) (v : View) (s : State), Alone (.ldsA e f) e.val n v s → f.imm.toNat < 262144 →
    (descOf s f.imm.toNat).dir ≠ 0 → Claims.Loads (.ldsA e f) e.val n f.d (.readSlot f.imm.toNat) 6 s) ∧
  (∀ (e : Fin 16) (f : LForm) (n : Nat) (v : View) (s : State) (a : Nat), Alone (.lds e f) e.val n v s →
    lBad f false 0 true true false = false → poisonous (reg v f.a) = false → address v 1 f.a 0 = .ok a →
    (descOf s a).dir ≠ 0 → Claims.Loads (.lds e f) e.val n f.d (.readSlot a) 6 s) ∧
  (∀ (e : Fin 16) (f : LForm) (n : Nat) (v : View) (s : State) (a : Nat), Alone (.ldsx e f) e.val n v s →
    lBad f false 0 true true true = false → poisonous (reg v f.a) = false → poisonous (reg v f.b) = false →
    (reg v f.b).ty = Ty.int → address v 1 f.a (reg v f.b).payload.toInt = .ok a → (descOf s a).dir ≠ 0 →
    Claims.Loads (.ldsx e f) e.val n f.d (.readSlot a) 7 s) ∧
  (∀ (e : Fin 16) (f : LForm) (n : Nat) (v : View) (s : State) (a : Nat), Alone (.sdesc e f) e.val n v s →
    lBad f false 3 true true false = false → poisonous (reg v f.a) = false → address v 1 f.a 0 = .ok a →
    exec (.sdesc e f) s = .next (keep s (complete false n e.val 4
      { dst := some (f.d.val, .mk0 Ty.word
          (BitVec.ofNat 32 (le (descBytes (descOf s a) (forceOf s a).isSome) (4 * f.xf.val) 4))), cycles := 8 }
      (afterOp n e.val (.readDesc a f.xf.val) (started e.val s))))) ∧
  (∀ (e : Fin 16) (f : C2Form) (n : Nat) (v : View) (s : State) (a : Nat), Alone (.cLds e f) e.val n v s →
    f.qb = false → poisonous (reg v f.a) = false → address v 1 f.a 0 = .ok a →
    (descOf s a).dir ≠ 0 → Claims.Loads (.cLds e f) e.val n f.d (.readSlot a) 6 s) ∧
  (∀ (e : Fin 16) (f : C6Form) (n : Nat) (v : View) (s : State) (a : Nat) (w : TWord) (t : State),
    Alone (.cLdl e f) e.val n v s → poisonous (reg v 30) = false → address v 2 30 f.imm.toNat = .ok a →
    (w, t) = readLocal e.val a (started e.val s) → poisonous w = false →
    exec (.cLdl e f) s = .next (keep s (complete false n e.val 2 { dst := some (f.r.val, w), cycles := 2 }
      (pushResult e.val w t)))) ∧
  (∀ (e : Fin 16) (f : MForm) (n : Nat) (v : View) (s : State) (a : Nat), Alone (.ldls e f) e.val n v s → f.sp.val = 3 →
    poisonous (reg v f.base) = false → address v 3 f.base f.disp.toInt = .ok a → s.mem.legacyBad.contains a = false →
    exec (.ldls e f) s = .next (keep s (complete false n e.val 4
      { dst := some (f.d.val, .mk0 Ty.int ((readAt 0#16 s.mem.legacy a).signExtend 32)), cycles := 6 }
      (afterOp n e.val (.readLegacy a) (started e.val s)))))

/-- An instruction that makes one operation outside the engine and completes when the operation has been made: its result, if any,
in d (R301). -/
def Claims.Makes (i : Instr) (e n : Nat) (op : XOp) (f : Effect) (s : State) : Prop :=
  exec i s = .next (keep s (complete false n e (lengthOf i) f (afterOp n e op (started e s))))

/-- Stores into slots and the legacy area, raises, timers and event records (R89, R153, R179, R185, R187, R188): the instruction
makes exactly the operation named, on the slot, legacy word, task or event code that its operands give, and then completes. -/
def Obligations.OutsideWritesMakeOneOperation : Prop :=
  ∀ (e : Fin 16) (n : Nat) (v : View) (s : State) (a : Nat),
    (∀ f : MForm, Alone (.st e f) e.val n v s → poisonous (reg v f.base) = false → poisonous (reg v f.d) = false →
      address v f.sp.val f.base f.disp.toInt = .ok a →
      (f.sp.val = 1 → slotRefused v a (reg v f.d) = false →
        Claims.Makes (.st e f) e.val n (.writeSlot a (reg v f.d)) { cycles := 6 } s) ∧
      (f.sp.val = 3 → ((reg v f.d).ty = Ty.bool ∨ (reg v f.d).ty = Ty.int ∨ (reg v f.d).ty = Ty.word) →
        (reg v f.d).q = Q.good → Claims.Makes (.st e f) e.val n (.writeLegacy a (reg v f.d)) { cycles := 6 } s)) ∧
    (∀ f : WForm, Alone (.stsA e f) e.val n v s → f.imm.toNat < 262144 → poisonous (reg v f.d) = false →
      slotRefused v f.imm.toNat (reg v f.d) = false →
      Claims.Makes (.stsA e f) e.val n (.writeSlot f.imm.toNat (reg v f.d)) { cycles := 6 } s) ∧
    (∀ f : LForm, Alone (.sts e f) e.val n v s → lBad f false 0 true true false = false → poisonous (reg v f.a) = false →
      poisonous (reg v f.d) = false → address v 1 f.a 0 = .ok a → slotRefused v a (reg v f.d) = false →
      Claims.Makes (.sts e f) e.val n (.writeSlot a (reg v f.d)) { cycles := 6 } s) ∧
    (∀ f : C2Form, Alone (.cSts e f) e.val n v s → f.qb = false → poisonous (reg v f.a) = false →
      poisonous (reg v f.d) = false → address v 1 f.a 0 = .ok a → slotRefused v a (reg v f.d) = false →
      Claims.Makes (.cSts e f) e.val n (.writeSlot a (reg v f.d)) { cycles := 6 } s) ∧
    (∀ f : LForm, Alone (.stsx e f) e.val n v s → lBad f false 0 true true true = false → poisonous (reg v f.a) = false →
      poisonous (reg v f.b) = false → poisonous (reg v f.d) = false → (reg v f.b).ty = Ty.int →
      address v 1 f.a (reg v f.b).payload.toInt = .ok a → slotRefused v a (reg v f.d) = false →
      Claims.Makes (.stsx e f) e.val n (.writeSlot a (reg v f.d)) { cycles := 7 } s) ∧
    (∀ f : MForm, Alone (.stlq e f) e.val n v s → f.sp.val = 3 → poisonous (reg v f.base) = false →
      poisonous (reg v f.d) = false → address v 3 f.base f.disp.toInt = .ok a →
      ((reg v f.d).ty = Ty.bool ∨ (reg v f.d).ty = Ty.int ∨ (reg v f.d).ty = Ty.word) →
      Claims.Makes (.stlq e f) e.val n (.writeLegacy a (reg v f.d)) { cycles := 6 } s) ∧
    (∀ f : IForm, f.a.val = 0 → 0 ≤ f.imm.toInt → f.imm.toInt ≤ 63 → ∀ w : TWord,
      (Alone (.tmstart e f) e.val n v s → w = (perform n e.val (.timerStart f.imm.toNat) (started e.val s)).1 →
        Claims.Makes (.tmstart e f) e.val n (.timerStart f.imm.toNat)
          { dst := some (f.d.val, .mk0 Ty.bool w.payload), cycles := 8 } s) ∧
      (Alone (.tmstop e f) e.val n v s → w = (perform n e.val (.timerStop f.imm.toNat) (started e.val s)).1 →
        Claims.Makes (.tmstop e f) e.val n (.timerStop f.imm.toNat)
          { dst := some (f.d.val, .mk0 Ty.bool w.payload), cycles := 8 } s)) ∧
    (∀ (f : IForm) (w : TWord), Alone (.raise e f) e.val n v s → 0 ≤ f.imm.toInt → f.imm.toInt ≤ 63 →
      poisonous (reg v f.a) = false → w = (perform n e.val (.raise f.imm.toNat (reg v f.a)) (started e.val s)).1 →
      Claims.Makes (.raise e f) e.val n (.raise f.imm.toNat (reg v f.a))
        { dst := some (f.d.val, .mk0 Ty.int w.payload), cycles := 12 } s) ∧
    (∀ (f : LForm) (w : TWord), Alone (.raiser e f) e.val n v s → lBad f false 0 true true true = false →
      poisonous (reg v f.a) = false → poisonous (reg v f.b) = false → countOk (reg v f.b) = true →
      w = (perform n e.val (.raise (reg v f.b).payload.toNat (reg v f.a)) (started e.val s)).1 →
      Claims.Makes (.raiser e f) e.val n (.raise (reg v f.b).payload.toNat (reg v f.a))
        { dst := some (f.d.val, .mk0 Ty.int w.payload), cycles := 12 } s) ∧
    (∀ f : LForm, Alone (.logev e f) e.val n v s → lBad f false 0 false true true = false → poisonous (reg v f.a) = false →
      poisonous (reg v f.b) = false → countOk (reg v f.b) = true →
      Claims.Makes (.logev e f) e.val n (.logEvent ((reg v f.b).payload.extractLsb' 0 16) (reg v f.a)) { cycles := 20 } s)

/-- Branches and calls (R180, R190): a branch goes to PC + 2 × disp in the code and on the task's pages and traps CODE elsewhere; BT
and BF go on where the condition does not hold; BE branches on EMPTY; a call links the CODEREF of the next instruction in G31;
JR, CALLR and RET go where a CODEREF of the running generation points. -/
def Obligations.BranchInstructionsRun : Prop :=
  ∀ (e : Fin 16) (n : Nat) (v : View) (s : State),
    (∀ f : JForm, f.a.val = 0 → ∀ t : Nat, (v.g.pc : Int) + 2 * f.disp.toInt = t → targetOk v t = true →
      (Alone (.br e f) e.val n v s → Completes (.br e f) e.val n { target := some t, cycles := 3 } s) ∧
      (Alone (.call e f) e.val n v s →
        Completes (.call e f) e.val n { target := some t, link := some (returnRef v 4), cycles := 3 } s)) ∧
    (∀ f : JForm, f.a.val = 0 → targetOk v ((v.g.pc : Int) + 2 * f.disp.toInt) = false →
      (Alone (.br e f) e.val n v s → Traps (.br e f) e.val n 0x2 0 3 s) ∧
      (Alone (.call e f) e.val n v s → Traps (.call e f) e.val n 0x2 0 3 s)) ∧
    (∀ f : JForm, ∀ t : Nat, (v.g.pc : Int) + 2 * f.disp.toInt = t → targetOk v t = true → (reg v f.a).ty = Ty.bool →
      poisonous (reg v f.a) = false →
      (Alone (.bt e f) e.val n v s → Completes (.bt e f) e.val n
        (if (reg v f.a).payload = 0 then {} else { target := some t, cycles := 3 }) s) ∧
      (Alone (.bf e f) e.val n v s → Completes (.bf e f) e.val n
        (if (reg v f.a).payload = 0 then { target := some t, cycles := 3 } else {}) s)) ∧
    (∀ f : JForm, ∀ t : Nat, (v.g.pc : Int) + 2 * f.disp.toInt = t → targetOk v t = true → poisonous (reg v f.a) = false →
      Alone (.be e f) e.val n v s → Completes (.be e f) e.val n
        (if (reg v f.a).ty = Ty.empty then { target := some t, cycles := 3 } else {}) s) ∧
    (∀ (f : LForm) (w : TWord), lBad f false 0 false true false = false → w = reg v f.a → w.ty = Ty.coderef →
      poisonous w = false → w.payload.toNat / 2 ^ 28 = v.p.gen % 16 → targetOk v ((w.payload.toNat % 2 ^ 28 : Nat) : Int) = true →
      (Alone (.jr e f) e.val n v s → Completes (.jr e f) e.val n { target := some (w.payload.toNat % 2 ^ 28), cycles := 4 } s) ∧
      (Alone (.callr e f) e.val n v s → Completes (.callr e f) e.val n
        { target := some (w.payload.toNat % 2 ^ 28), link := some (returnRef v 4), cycles := 4 } s)) ∧
    (∀ (w : TWord), w = nth TWord.empty v.g.regs 31 → w.ty = Ty.coderef → poisonous w = false →
      w.payload.toNat / 2 ^ 28 = v.p.gen % 16 → targetOk v ((w.payload.toNat % 2 ^ 28 : Nat) : Int) = true →
      (∀ f : LForm, lBad f false 0 false false false = false → Alone (.ret e f) e.val n v s →
        Completes (.ret e f) e.val n { target := some (w.payload.toNat % 2 ^ 28), cycles := 4 } s) ∧
      (∀ low : BitVec 6, low = 0 → Alone (.cSysRet e low) e.val n v s →
        Completes (.cSysRet e low) e.val n { target := some (w.payload.toNat % 2 ^ 28), cycles := 4 } s)) ∧
    (∀ (d : BitVec 11) (t : Nat), (v.g.pc : Int) + 2 * d.toInt = t → targetOk v t = true → Alone (.cBr e d) e.val n v s →
      Completes (.cBr e d) e.val n { target := some t, cycles := 3 } s) ∧
    (∀ (f : C6Form) (t : Nat), (v.g.pc : Int) + 2 * f.imm.toInt = t → targetOk v t = true → (reg v f.r).ty = Ty.bool →
      poisonous (reg v f.r) = false →
      (Alone (.cBt e f) e.val n v s → Completes (.cBt e f) e.val n
        (if (reg v f.r).payload = 0 then {} else { target := some t, cycles := 3 }) s) ∧
      (Alone (.cBf e f) e.val n v s → Completes (.cBf e f) e.val n
        (if (reg v f.r).payload = 0 then { target := some t, cycles := 3 } else {}) s))

/-- The blocks of timers and counters stay where they were put while an instruction runs: the words read are those that data memory
holds, the timebase is the engine's shadow, and the instruction completes with the words that its block's rule gives (R181 to
R184). The plan is stated on the results read so far, in the order PT, ET, LAST, REM and the present time for a timer, PV, CV and
EDGE for a counter.
The rule of a timer (R182): what an execution first does to a running block, then TON, TOF and TP. -/
def Obligations.TimerAndCounterRules : Prop :=
  (∀ (e : Fin 16) (f : LForm) (v : View) (base : Nat) (pt et last rem now b : TWord),
    lBad f false 0 true true true = false → b = reg v f.b → poisonous b = false → poisonous (reg v f.a) = false →
    b.ty = Ty.bool →
    (∀ (i : Instr) (kind : Int → Word → Bool → TimerRun → TimerRun × Bool),
      (i, kind) ∈ [(.ton e f, stepTon), (.tof e f, stepTof), (.tp e f, stepTp)] →
      blockBase v f.a 4 = .ok base →
      (∀ k, k < 4 → v.g.results.length = k → sncPlan i v = .need (.readData (base + k))) ∧
      (v.g.results = [pt, et, last, rem, now] → [pt, et, last, rem].any poisonous = false → pt.ty = Ty.duration →
        et.ty = Ty.duration → (last.ty = Ty.stamp ∨ last.ty = Ty.empty) → rem.ty = Ty.int → 0 ≤ rem.payload.toInt →
        rem.payload.toInt ≤ 999 →
        ∀ p run t q, p = max 0 pt.payload.toInt →
          run = TimerRun.mk et.payload.toInt rem.payload.toInt (if last.ty = Ty.stamp then some last.payload else none) →
          kind p now.payload (b.payload != 0) (timerUpdate p now.payload run) = (t, q) →
          sncPlan i v = .done
            { dst := some (f.d.val, resultWord false [b, pt] Ty.bool (boolWord q))
              data := [(base + 1, resultWord false [b, pt] Ty.duration (BitVec.ofInt 32 t.et)),
                (base + 2, match t.last with
                  | some l => .mk0 Ty.stamp l
                  | none => TWord.empty),
                (base + 3, resultWord false [b, pt] Ty.int (BitVec.ofInt 32 t.rem))]
              cycles := 24 })) ∧
    (blockBase v f.a 3 = .ok base → v.g.results = [pt, et, last] → [pt, et, last].any poisonous = false → pt.ty = Ty.int →
      et.ty = Ty.int → last.ty = Ty.bool →
      (∀ x, x = resultWord false [et, b, pt] Ty.int (BitVec.ofInt 32
          (if b.payload ≠ 0 ∧ last.payload = 0 then min 2147483647 (et.payload.toInt + 1) else et.payload.toInt)) →
        sncPlan (.ctu e f) v = .done
          { dst := some (f.d.val, { x with ty := Ty.bool, payload := boolWord (decide (pt.payload.toInt ≤ x.payload.toInt)) })
            data := [(base + 1, x), (base + 2, b)], cycles := 16 }) ∧
      (∀ x, x = resultWord false [et, b, pt] Ty.int (BitVec.ofInt 32
          (if b.payload ≠ 0 ∧ last.payload = 0 then max (-2147483648) (et.payload.toInt - 1) else et.payload.toInt)) →
        sncPlan (.ctd e f) v = .done
          { dst := some (f.d.val, { x with ty := Ty.bool, payload := boolWord (decide (x.payload.toInt ≤ 0)) })
            data := [(base + 1, x), (base + 2, b)], cycles := 16 })) ∧
    (blockBase v f.a 3 = .ok base → v.g.results = [pt, et] → [pt, et].any poisonous = false → pt.ty = Ty.int →
      et.ty = Ty.int →
      (∀ x, x = (if b.payload = 0 then et else resultWord false [b, pt] Ty.int 0) →
        sncPlan (.crst e f) v = .done
          { dst := some (f.d.val, { x with ty := Ty.bool, payload := boolWord (decide (pt.payload.toInt ≤ x.payload.toInt)) })
            data := if b.payload = 0 then [] else [(base + 1, x)], cycles := 16 }) ∧
      (∀ x, x = (if b.payload = 0 then et else resultWord false [b, pt] Ty.int pt.payload) →
        sncPlan (.cld e f) v = .done
          { dst := some (f.d.val, { x with ty := Ty.bool, payload := boolWord (decide (x.payload.toInt ≤ 0)) })
            data := if b.payload = 0 then [] else [(base + 1, x)], cycles := 16 }))) ∧
  ((∀ (pt : Int) (now : Word) (t : TimerRun), t.last = none → timerUpdate pt now t = t) ∧
  (∀ (pt et : Int) (rem : Nat) (now l : Word), et + ((rem + (now - l).toNat) / 1000 : Nat) < pt →
    timerUpdate pt now ⟨et, rem, some l⟩ =
      ⟨et + ((rem + (now - l).toNat) / 1000 : Nat), ((rem + (now - l).toNat) % 1000 : Nat), some l⟩) ∧
  (∀ (pt et : Int) (rem : Nat) (now l : Word), pt ≤ et + ((rem + (now - l).toNat) / 1000 : Nat) →
    timerUpdate pt now ⟨et, rem, some l⟩ = ⟨pt, 0, some l⟩) ∧
  (∀ (pt : Int) (now : Word) (t : TimerRun), stepTon pt now false t = (⟨0, t.rem, none⟩, false)) ∧
  (∀ (pt et rem : Int) (now : Word), stepTon pt now true ⟨et, rem, none⟩ = (⟨0, 0, some now⟩, decide (pt ≤ 0))) ∧
  (∀ (pt et rem : Int) (now l : Word), stepTon pt now true ⟨et, rem, some l⟩ = (⟨et, rem, some now⟩, decide (pt ≤ et))) ∧
  (∀ (pt : Int) (now : Word) (t : TimerRun), stepTof pt now true t = (⟨0, 0, none⟩, true)) ∧
  (∀ (pt et rem : Int) (now l : Word), stepTof pt now false ⟨et, rem, some l⟩ =
    if pt ≤ et then (⟨pt, rem, none⟩, false) else (⟨et, rem, some now⟩, true)) ∧
  (∀ (pt et rem : Int) (now l : Word), et < pt → ∀ inp, stepTp pt now inp ⟨et, rem, some l⟩ = (⟨et, rem, some now⟩, true)) ∧
  (∀ (pt : Int) (now : Word), 0 < pt → stepTp pt now true ⟨0, 0, none⟩ = (⟨0, 0, some now⟩, true)))

/-- Every timer and counter instruction runs to its end on a single engine: with its block in data memory as R181 lays it out it
answers the state in which the words read have been kept, and the plan on them is carried out. -/
def Obligations.BlockInstructionsComplete : Prop :=
  ∀ (i : Instr) (e : Fin 16) (f : LForm) (n : Nat) (v : View) (s : State),
    i ∈ [.ton e f, .tof e f, .tp e f, .ctu e f, .ctd e f, .crst e f, .cld e f] → Alone i e.val n v s →
    lBad f false 0 true true true = false → poisonous (reg v f.b) = false → poisonous (reg v f.a) = false →
    (reg v f.b).ty = Ty.bool →
    ∀ base, blockBase v f.a 4 = .ok base →
    ∀ ws, ws = (List.range 4).map (fun k => readData s (base + k)) → ws.any poisonous = false →
    ((nth TWord.empty ws 0).ty = Ty.duration ∧ (nth TWord.empty ws 1).ty = Ty.duration ∧
        (nth TWord.empty ws 2).ty = Ty.empty ∧ nth TWord.empty ws 3 = .mk0 Ty.int 0 ∧
        i ∈ [.ton e f, .tof e f, .tp e f] ∨
      (nth TWord.empty ws 0).ty = Ty.int ∧ (nth TWord.empty ws 1).ty = Ty.int ∧ (nth TWord.empty ws 2).ty = Ty.bool ∧
        i ∈ [.ctu e f, .ctd e f, .crst e f, .cld e f]) →
    ∃ g t, exec i s = .next (keep s (complete false n e.val 4 g t)) ∧ g.ends = false ∧ g.marked = none ∧
      (∃ w, g.dst = some (f.d.val, w) ∧ w.ty = Ty.bool) ∧ t.mem.data = s.mem.data ∧ t.img = s.img ∧ t.scan.tasks = s.scan.tasks

/-- Asynchronous sampling (R186): the timebase in µs of the engine's own shadow, the low 32 bits of the base tick, the calendar's
time and date in BCD, and an input channel of the field die as its engine's comparator saw it. -/
def Obligations.SamplingInstructionsRun : Prop :=
  ∀ (e : Fin 16) (f : LForm) (n : Nat) (v : View) (s : State),
    (lBad f false 0 true false false = false →
      (Alone (.tbread e f) e.val n v s → ∃ w t, (w, t) = shadowUs e.val (started e.val s) ∧
        exec (.tbread e f) s = .next (keep s (complete false n e.val 4
          { dst := some (f.d.val, ⟨false, false, tbQuality s, Ty.stamp, w⟩), cycles := 4 }
          (pushResult e.val (.mk0 Ty.stamp w) t)))) ∧
      (Alone (.tbtick e f) e.val n v s → Completes (.tbtick e f) e.val n
        { dst := some (f.d.val, ⟨false, false, tbQuality s, Ty.word, BitVec.ofNat 32 s.dev.tick⟩), cycles := 4 } s) ∧
      (Alone (.rtct e f) e.val n v s → Completes (.rtct e f) e.val n
        { dst := some (f.d.val, ⟨false, false, calQuality s, Ty.word,
            0#8 ++ s.cal.fields.hours ++ s.cal.fields.minutes ++ s.cal.fields.seconds⟩), cycles := 8 } s) ∧
      (Alone (.rtcd e f) e.val n v s → Completes (.rtcd e f) e.val n
        { dst := some (f.d.val, ⟨false, false, calQuality s, Ty.word,
            s.cal.fields.century ++ s.cal.fields.year ++ s.cal.fields.month ++ s.cal.fields.day⟩), cycles := 8 } s)) ∧
    (∀ c : Nat, lBad f false 0 true true false = false → (reg v f.a).ty = Ty.int → poisonous (reg v f.a) = false →
      (reg v f.a).payload.toInt = c → inputInUse s c = true → Alone (.lin e f) e.val n v s →
      Completes (.lin e f) e.val n
        { dst := some (f.d.val, ⟨false, false,
            (if (nth (Channel.reset 0) s.fio.ch c).linkBreak || (supplyOf s c).cond != 0 || !s.fio.linkUp then Q.bad
              else Q.good), Ty.bool,
            boolWord (if e.val % 2 = 0 then (nth (Channel.reset 0) s.fio.ch c).linkA
              else (nth (Channel.reset 0) s.fio.ch c).linkB)⟩), cycles := 10 } s)

/-- Stores into data memory and the local store (R179, R190): the word of d goes to the address computed from base and
displacement; data words with a wait for the dirty limit where they are retentive (R364), and nothing else of data memory
changes but the word stored.
Legacy bits (R188): LBTST reads bit b mod 16 of a legacy word; LBPUT puts d into it, and LBPUTQ does whatever d's quality. -/
def Obligations.StoreAndLegacyBitInstructionsRun : Prop :=
  ((∀ (e : Fin 16) (f : MForm) (n : Nat) (v : View) (s : State) (a : Nat), Alone (.st e f) e.val n v s →
    poisonous (reg v f.base) = false → poisonous (reg v f.d) = false → address v f.sp.val f.base f.disp.toInt = .ok a →
    (f.sp.val = 0 → Completes (.st e f) e.val n { data := [(a, reg v f.d)], cycles := 6 } s) ∧
    (f.sp.val = 2 → Completes (.st e f) e.val n { loc := some (a, reg v f.d), cycles := 2 } s)) ∧
  (∀ (e : Fin 16) (f : C6Form) (n : Nat) (v : View) (s : State) (a : Nat), Alone (.cStl e f) e.val n v s →
    poisonous (reg v 30) = false → poisonous (reg v f.r) = false → address v 2 30 f.imm.toNat = .ok a →
    Completes (.cStl e f) e.val n { loc := some (a, reg v f.r), cycles := 2 } s) ∧
  (∀ (len n e : Nat) (a : Nat) (w : TWord) (s : State) (p : Program), s.chg.running = some p → sparseWf TWord.empty s.mem.data = true →
    let t := complete false n e len { data := [(a, w)], cycles := 6 } s
    readAt TWord.empty t.mem.data (physOf p a) = w ∧
    ∀ b, b ≠ physOf p a → readAt TWord.empty t.mem.data b = readAt TWord.empty s.mem.data b)) ∧
  (∀ (e : Fin 16) (f : LForm) (n : Nat) (v : View) (s : State) (a : Nat), lBad f false 0 true true true = false →
    poisonous (reg v f.a) = false → poisonous (reg v f.b) = false → countOk (reg v f.b) = true → address v 3 f.a 0 = .ok a →
    s.mem.legacyBad.contains a = false →
    (Alone (.lbtst e f) e.val n v s → exec (.lbtst e f) s = .next (keep s (complete false n e.val 4
      { dst := some (f.d.val, resultWord false [reg v f.b] Ty.bool
          (boolWord ((readAt 0#16 s.mem.legacy a).getLsbD ((reg v f.b).payload.toNat % 16)))), cycles := 6 }
      (afterOp n e.val (.readLegacy a) (started e.val s))))) ∧
    (poisonous (reg v f.d) = false → (reg v f.d).ty = Ty.bool →
      ((reg v f.d).q = Q.good → Alone (.lbput e f) e.val n v s →
        exec (.lbput e f) s = .next (keep s (complete false n e.val 4 { cycles := 10 }
          (afterOp n e.val (.putLegacyBit a ((reg v f.b).payload.toNat % 16) (reg v f.d)) (started e.val s))))) ∧
      (Alone (.lbputq e f) e.val n v s →
        exec (.lbputq e f) s = .next (keep s (complete false n e.val 4 { cycles := 10 }
          (afterOp n e.val (.putLegacyBit a ((reg v f.b).payload.toNat % 16) (reg v f.d)) (started e.val s)))))) ∧
    (∀ (k : Nat) (w : TWord), k < 16 → sparseWf (0#16) s.mem.legacy = true →
      let t := (perform n e.val (.putLegacyBit a k w) s).2.2
      ((readAt 0#16 t.mem.legacy a).getLsbD k = (w.payload != 0)) ∧
      (∀ j, j ≠ k → (readAt 0#16 t.mem.legacy a).getLsbD j = (readAt 0#16 s.mem.legacy a).getLsbD j) ∧
      (∀ b, b ≠ a → readAt 0#16 t.mem.legacy b = readAt 0#16 s.mem.legacy b)))

/-- The legacy mode and system instructions (R154, R189): LGON and LGOFF set the mode, LGCRY reads and LGCLR clears the range flag,
NOP does nothing, RDSTAT reads the status word, WRSTAT writes the mode and may clear the range flag, RDFEAT reads the feature
words; END ends the activation; TRAP and TRAPI trap EXPLICIT, TRAPI with its user code. -/
def Obligations.SystemInstructionsRun : Prop :=
  ∀ (e : Fin 16) (n : Nat) (v : View) (s : State),
    (∀ f : LForm, lBad f false 0 false false false = false →
      (Alone (.lgon e f) e.val n v s → Completes (.lgon e f) e.val n { lgc := some true } s) ∧
      (Alone (.lgoff e f) e.val n v s → Completes (.lgoff e f) e.val n { lgc := some false } s) ∧
      (Alone (.lgclr e f) e.val n v s → Completes (.lgclr e f) e.val n { clearCarry := true } s) ∧
      (Alone (.nop e f) e.val n v s → Completes (.nop e f) e.val n {} s) ∧
      (Alone (.endAct e f) e.val n v s → exec (.endAct e f) s = .next (keep s (settle (endActivation n none
        (complete false n e.val 4 { ends := true, cycles := 2 } (started e.val s)))))) ∧
      (Alone (.trap e f) e.val n v s → Traps (.trap e f) e.val n 0xD 0 2 s)) ∧
    (∀ f : LForm, lBad f false 0 true false false = false →
      (Alone (.lgcry e f) e.val n v s →
        Completes (.lgcry e f) e.val n { dst := some (f.d.val, .mk0 Ty.bool (boolWord v.g.lgcCarry)) } s) ∧
      (Alone (.rdstat e f) e.val n v s →
        Completes (.rdstat e f) e.val n { dst := some (f.d.val, .mk0 Ty.word (statusWord v.g)) } s)) ∧
    (∀ f : LForm, lBad f false 0 false true false = false → (reg v f.a).ty = Ty.word → poisonous (reg v f.a) = false →
      Alone (.wrstat e f) e.val n v s → Completes (.wrstat e f) e.val n
        { lgc := some ((reg v f.a).payload.getLsbD 0), clearCarry := !(reg v f.a).payload.getLsbD 1 } s) ∧
    (∀ f : LForm, lBad f false 3 true false false = false → Alone (.rdfeat e f) e.val n v s →
      Completes (.rdfeat e f) e.val n { dst := some (f.d.val, .mk0 Ty.word (featWord f.xf.val)), cycles := 2 } s) ∧
    (∀ f : WForm, f.d.val = 0 → Alone (.trapi e f) e.val n v s → Traps (.trapi e f) e.val n 0xD f.imm.toNat 2 s) ∧
    (∀ low : BitVec 6, low = 0 →
      (Alone (.cSysNop e low) e.val n v s → Completes (.cSysNop e low) e.val n {} s) ∧
      (Alone (.cSysEnd e low) e.val n v s → exec (.cSysEnd e low) s = .next (keep s (settle (endActivation n none
        (complete false n e.val 2 { ends := true, cycles := 2 } (started e.val s)))))) ∧
      (Alone (.cSysTrap e low) e.val n v s → Traps (.cSysTrap e low) e.val n 0xD 0 2 s))

/-- Moves, constants and selection (R175), and their 16-bit forms MOV and LDK (R190).
The 16-bit arithmetic forms are their 32-bit forms with d as first operand, and C.ADDI adds its immediate (R146, R190). -/
def Obligations.MoveAndShortFormsRun : Prop :=
  ((∀ (e : Fin 16) (f : LForm) (n : Nat) (v : View) (s : State), lBad f false 0 true true false = false →
    poisonous (reg v f.a) = false → Alone (.mov e f) e.val n v s →
    Completes (.mov e f) e.val n { dst := some (f.d.val, reg v f.a) } s) ∧
  (∀ (e : Fin 16) (f : LForm) (n : Nat) (v : View) (s : State), lBad f true 0 true true true = false →
    (reg v f.d).ty = Ty.bool → poisonous (reg v f.d) = false →
    ∀ x, x = (if (reg v f.d).payload != 0 then reg v f.a else reg v f.b) → poisonous x = false → Alone (.sel e f) e.val n v s →
    Completes (.sel e f) e.val n { dst := some (f.d.val, resultWord f.qb [reg v f.d, x] x.ty x.payload) } s) ∧
  (∀ (e : Fin 16) (f : WForm) (n : Nat) (v : View) (s : State),
    (Alone (.ldi e f) e.val n v s → Completes (.ldi e f) e.val n { dst := some (f.d.val, .mk0 Ty.int (f.imm.signExtend 32)) } s) ∧
    (Alone (.lui e f) e.val n v s →
      Completes (.lui e f) e.val n { dst := some (f.d.val, .mk0 Ty.word (f.imm.zeroExtend 32 <<< 12)) } s) ∧
    (Alone (.ldd e f) e.val n v s →
      Completes (.ldd e f) e.val n { dst := some (f.d.val, .mk0 Ty.duration (f.imm.signExtend 32)) } s)) ∧
  (∀ (e : Fin 16) (f : C2Form) (n : Nat) (v : View) (s : State), f.qb = false → poisonous (reg v f.a) = false →
    Alone (.cMov e f) e.val n v s → Completes (.cMov e f) e.val n { dst := some (f.d.val, reg v f.a) } s) ∧
  (∀ (e : Fin 16) (f : C6Form) (n : Nat) (v : View) (s : State), Alone (.cLdk e f) e.val n v s →
    Completes (.cLdk e f) e.val n { dst := some (f.r.val, .mk0 Ty.int (f.imm.signExtend 32)) } s)) ∧
  (∀ (e : Fin 16) (n : Nat) (v : View) (s : State),
    (∀ f : C2Form, poisonous (reg v f.d) = false → poisonous (reg v f.a) = false →
      (Alone (.cAdd e f) e.val n v s →
        Gives (.cAdd e f) e.val n v f.d f.qb [reg v f.d, reg v f.a] (aluAdd v.g.lgc (reg v f.d) (reg v f.a)) (cyc 1 3) s) ∧
      (Alone (.cSub e f) e.val n v s →
        Gives (.cSub e f) e.val n v f.d f.qb [reg v f.d, reg v f.a] (aluSub v.g.lgc (reg v f.d) (reg v f.a)) (cyc 1 3) s) ∧
      (Alone (.cAnd e f) e.val n v s →
        Gives (.cAnd e f) e.val n v f.d f.qb [reg v f.d, reg v f.a] (aluLogic (· &&& ·) (reg v f.d) (reg v f.a)) (cyc 1 1) s) ∧
      (Alone (.cOr e f) e.val n v s →
        Gives (.cOr e f) e.val n v f.d f.qb [reg v f.d, reg v f.a] (aluLogic (· ||| ·) (reg v f.d) (reg v f.a)) (cyc 1 1) s)) ∧
    (∀ f : C6Form, poisonous (reg v f.r) = false → Alone (.cAddi e f) e.val n v s →
      Gives (.cAddi e f) e.val n v f.r false [reg v f.r] (aluAddi v.g.lgc (f.imm.signExtend 32) (reg v f.r)) (fun _ => 1) s))

/-! ### Events: host interface, registers, debug port (02, 16 to 18, 20, 21, 24) -/

/-- Event i leaves state t. -/
def Claims.Leaves (i : Instr) (s t : State) : Prop := exec i s = .next (keep s t)

/-- Ring registers (R26 to R30, R42): enabling takes a size of 4 to 12 and, for a command ring, an enabled completion ring, and
starts both indexes at 0, or else leaves error code 4; disabling stops the ring; a doorbell of a running ring joins the queue of
doorbells, and an index outside the ring stops it with error code 1; a head write makes room and may arm; an armed ring whose
threshold is met raises its vector once.
Descriptors, urgent commands and final completions (R30, R33, R41, R43, R53 to R56): the ring in its turn has its descriptor
read, its indexes passed at once and its opcode served; a read that fails stops the ring with 3, a bad count with 2; a write of
URG_COMMAND waits while posted-write credit is withheld (R19), and one with a wrong key is counted and does nothing else; while
firmware runs, the end of a long operation's work is its finish, with ABORTED at a cancel
point that was asked for, a fill with the words it has written. -/
def Obligations.RingAndDescriptorEventsRun : Prop :=
  (∀ (n : Fin 64) (v : Word) (s : State), hostAccess s = true → (∀ i, withholds i s = false) →
    ((getCq s n.val).enable = false → v.getLsbD 0 = true → ∀ u,
      u = onCq n.val (fun q => { q with kq := bits v.toNat 21 16, sizeLog2 := bits v.toNat 11 8 }) s →
      Claims.Leaves (.ringCqEnable n v) s
        (if 4 ≤ bits v.toNat 11 8 ∧ bits v.toNat 11 8 ≤ 12 ∧ (getKq u (bits v.toNat 21 16)).enable = true then startCq n.val u
         else stopRing n.val 4 u)) ∧
    ((getCq s n.val).enable = true → v.getLsbD 0 = false →
      Claims.Leaves (.ringCqDisable n v) s (drain (onCq n.val (fun q => { q with enable := false, running := false }) s))) ∧
    ((getKq s n.val).enable = false → v.getLsbD 0 = true → ∀ u,
      u = onKq n.val (fun q =>
        { q with intEnable := v.getLsbD 24, vector := bits v.toNat 22 16, sizeLog2 := bits v.toNat 11 8 }) s →
      s.host.kq.length = 64 → Claims.Leaves (.ringKqEnable n v) s
        (if 4 ≤ bits v.toNat 11 8 ∧ bits v.toNat 11 8 ≤ 12 then startKq n.val u
         else onKq n.val (fun q => { q with error := 4 }) u)) ∧
    ((getKq s n.val).enable = true → v.getLsbD 0 = false → s.host.kq.length = 64 → ∃ t,
      exec (.ringKqDisable n v) s = .next t ∧ (getKq t n.val).enable = false ∧ (getKq t n.val).running = false ∧
        (∀ k, k ≠ n.val → getKq t k = getKq s k) ∧ t.host.cq = s.host.cq) ∧
    ((getCq s n.val).enable = true → (getCq s n.val).running = true → ∀ u,
      u = onCq n.val (fun q => { q with pi := bits v.toNat 11 0 }) s →
      Claims.Leaves (.ringCqPi n v) s
        (drain (if (getCq s n.val).size ≤ bits v.toNat 11 0 then stopRing n.val 1 u else onHost (ringDoorbell n.val) u))) ∧
    (∀ w, w = bits v.toNat 11 0 → w < (getKq s n.val).size →
      Claims.Leaves (.ringKqHead n v) s (kqCheck n.val (flushKq n.val
        (onKq n.val (fun q => { q with head := w, armed := q.armed || v.getLsbD 31 }) s))) ∧
      Claims.Leaves (.arm n v) s (kqCheck n.val (flushKq n.val
        (onKq n.val (fun q => { q with head := w, armed := true }) s)))) ∧
    ((getKq s n.val).intEnable = true → (getKq s n.val).armed = true → 0 < (getKq s n.val).unconsumed →
      0 < (getKq s n.val).irqTime → ∀ us t0, (getKq s n.val).irqTime ≤ us →
      look (getKq s n.val).written (getKq s n.val).head = some t0 →
      Claims.Leaves (.completionInterrupt n us) s (raiseVector (getKq s n.val).vector
        (onKq n.val (fun q => { q with armed := false }) (advance (t0 + 6000 * us) s))))) ∧
  ((∀ (n : Fin 64) (rd : HostRead) (s u : State), u = advance rd.time s → n.val ≠ 0 → served (.ring n) u = true →
    nextServed u = some n.val → ∀ w,
    w = onHost (fun h => { h with lastServed := n.val, doorbells := h.doorbells.filter (· != n.val) }) u →
    (rd.error = true → Claims.Leaves (.descriptorTake n rd) s (stopRing n.val 3 w)) ∧
    (rd.error = false → (entryCount rd = 0 ∨ 8 < entryCount rd) → Claims.Leaves (.descriptorTake n rd) s (stopRing n.val 2 w)) ∧
    (rd.error = false → 1 ≤ entryCount rd → entryCount rd ≤ 8 → entryCount rd ≤ (getCq w n.val).published →
      windowHolds (entryOp rd) w = false →
      Claims.Leaves (.descriptorTake n rd) s (serveOp (entryOp rd) (requestOf (.ring n) rd (rd.entries.take (entryCount rd)))
        (onCq n.val (fun q => { q with ci := (q.ci + entryCount rd) % q.size }) w)))) ∧
  (∀ (rd : HostRead) (s u : State), u = advance rd.time s → served (.ring 0) u = true → cq0Ready u = true →
    u.host.urgent.head? = some none → rd.error = false → windowHolds (entryOp rd) u = false →
    Claims.Leaves (.cq0DescriptorTake rd) s (drainAll (serveOp (entryOp rd) (requestOf (.ring 0) rd (rd.entries.take 1))
      (onCq 0 (fun q => { q with ci := (q.ci + 1) % q.size })
        (onHost (fun h => { h with cq0Upto := some (h.cq0Upto.getD (getCq u 0).pi) }) u))))) ∧
  (∀ (v : Word) (time : Nat) (s u : State), u = advance time s → hostAccess s = true →
    (withholds (.urgCommand v time) s = true → Claims.Leaves (.urgCommand v time) s
      (onHost (fun h => { h with withheld := h.withheld ++ [.urgCommand v time] }) u)) ∧
    (s.host.withheld = [] → s.host.urgent = [] →
    (bits v.toNat 31 26 ≠ 0x2D → Claims.Leaves (.urgCommand v time) s
      (onHost (fun h => { h with keyErrors := min 255 (h.keyErrors + 1) }) u)) ∧
    (bits v.toNat 31 26 = 0x2D → u.chg.window = none →
      Claims.Leaves (.urgCommand v time) s (serveUrg v (onHost (fun h => { h with urgent := [] }) u))))) ∧
  (∀ (idx time : Nat) (io : IoResult) (s u : State) (o : LongOp), u = advance time s → getOp u idx = some o → o.done = false →
    o.suspended = false → opsProceed u = true →
    (o.opcode = 0xB001 → stopAsked u o = true → Claims.Leaves (.finalCompletion idx time io) s (cutFill idx o u)) ∧
    (o.opcode ≠ 0xB001 → abortsHere o.opcode = true → ((o.past = false ∧ stopAsked u o = true) ∨ o.cancel = some 0) →
      Claims.Leaves (.finalCompletion idx time io) s (endOp idx stAborted [] u)) ∧
    ((abortsHere o.opcode = false ∨ ((o.past = true ∨ stopAsked u o = false) ∧ o.cancel ≠ some 0)) →
      (o.opcode = 0xB001 → stopAsked u o = false) → Claims.Leaves (.finalCompletion idx time io) s (finishOp idx io o u))))

/-- Register writes and reads with an effect of their own (R314, R412, R427, R433, R434, R531 to R538) and the reset of the host
interface (R381, R539). -/
def Obligations.RegisterEventsRun : Prop :=
  ∀ (v : Word) (s : State), hostAccess s = true → (∀ i, withholds i s = false) →
    (wdgCounts s = true → s.wdg.queue.length < 4 →
      Claims.Leaves (.wdgService v) s (onWdg (fun w => { w with queue := w.queue ++ [v] }) s)) ∧
    (∀ c r u, s.wdg.queue = v :: r → wdgCounts s = true → u = wdgTo c (onWdg (fun w => { w with queue := r }) s) →
      (u.wdg.armed = false → v = 0xA5E1 → Claims.Leaves (.wdgServiceCapture c) s (onWdg (fun w => { w with armed := true }) u)) ∧
      (u.wdg.armed = true → v = 0x1E5A → wdgOpen u.wdg ≤ c → Claims.Leaves (.wdgServiceCapture c) s
        (onWdg (fun w => { w with s := c, armed := false, openNow := w.openMs, closeNow := w.closeMs, lastGood := optimeMs u }) u)) ∧
      (u.wdg.armed = true → v = 0x1E5A → c < wdgOpen u.wdg → Claims.Leaves (.wdgServiceCapture c) s (wdgFail 1 c v.toNat u)) ∧
      (u.wdg.armed = false → v ≠ 0xA5E1 → Claims.Leaves (.wdgServiceCapture c) s (wdgFail 2 c v.toNat u)) ∧
      (u.wdg.armed = true → v ≠ 0x1E5A → Claims.Leaves (.wdgServiceCapture c) s (wdgFail 3 c v.toNat u))) ∧
    (∀ c, wdgCounts s = true → s.wdg.s + 8000 * s.wdg.closeNow ≤ c → Claims.Leaves (.hostWatchdogExpiry c) s (wdgTo c s)) ∧
    Claims.Leaves (.statDualFaultClear v) s (onScan (fun x => { x with dualFault := x.dualFault &&& ~~~(v.extractLsb' 24 8) }) s) ∧
    Claims.Leaves (.statCalAlarmClear v) s (onAlarm 1 (fun a => { a with flag := a.flag && !v.getLsbD 29 })
      (onAlarm 0 (fun a => { a with flag := a.flag && !v.getLsbD 28 }) s)) ∧
    Claims.Leaves (.errBucketClear v) s (onInteg (fun i => { i with bucketOver := i.bucketOver && !v.getLsbD 30 }) s) ∧
    Claims.Leaves (.intCauseClear v) s (onRegs (fun r => { r with cause := r.cause &&& ~~~(v.setWidth 11) }) s) ∧
    (∀ u, u = onRegs (fun r =>
        { r with devEnable := v.getLsbD 31, devVector := bits v.toNat 30 24, errEnable := v.getLsbD 23,
                 errVector := bits v.toNat 22 16 }) s →
      s.regs.ringErr = 0 →
      Claims.Leaves (.intCtrl v) s
        (if v.getLsbD 31 = true ∧ s.regs.devEnable = false ∧ s.regs.cause &&& s.regs.mask ≠ 0 then raiseDevice u else u)) ∧
    (∀ u, u = onRegs (fun r => { r with mask := v.setWidth 11 }) s →
      Claims.Leaves (.intMask v) s
        (if v.setWidth 11 &&& ~~~s.regs.mask ≠ 0 ∧ s.regs.cause &&& v.setWidth 11 ≠ 0 then raiseDevice u else u)) ∧
    (∀ off, off < 2048 → off % 4 = 0 → Claims.Leaves (.msixTableWrite off v) s
      (sendPending (off / 16) (onRegs (fun r => { r with msix := writeAt (msixReset off) r.msix off (msixKept off v) }) s))) ∧
    (∀ off, off < 65536 → off % 4 = 0 → Claims.Leaves (.registerWrite off 4 v) s (writeReg off v s)) ∧
    (∀ off size, (size ≠ 4 ∨ off % 4 ≠ 0) → Claims.Leaves (.registerWrite off size v) s s) ∧
    Claims.Leaves .sysTickLoRead s (onRegs (fun r =>
      { r with readData := BitVec.ofNat 32 s.dev.tick, tickHi := s.dev.tick / 4294967296 % 4294967296 }) s) ∧
    Claims.Leaves .sysOptimeLoRead s (onRegs (fun r =>
      { r with readData := BitVec.ofNat 32 (optimeMs s), optimeHi := optimeMs s / 4294967296 % 65536 }) s) ∧
    Claims.Leaves .statLogSeqRead s (onRegs (fun r =>
      { r with readData := BitVec.ofNat 32 (newestSeq s), statLog := BitVec.ofNat 32 (statLog s) }) s) ∧
    (∀ t, t = resetHostIf s →
      Claims.Leaves .hostInterfaceReset s (drainAll t) ∧ t.regs.devEnable = false ∧ t.regs.errEnable = false ∧ t.regs.msix = [] ∧
      t.regs.ringErr = 0 ∧ t.host.cq = s.host.cq.map (fun _ => CqRing.reset) ∧
      t.host.kq = s.host.kq.map (fun q => { KqRing.reset with mem := q.mem, written := q.written }) ∧
      t.host.heldImmediate = s.host.heldImmediate ∧ t.host.heldFinals = s.host.heldFinals ∧ t.host.held0 = s.host.held0 ∧
      t.host.ops = s.host.ops ∧ t.regs.mask = s.regs.mask ∧ t.regs.cause = s.regs.cause ∧ t.dev = s.dev)

/-- The debug port and the UART (R465 to R470, R492): a challenge issues a nonce; a response that verifies opens the grant it asks
for; DBG_ACCESS refuses without the grant, answers an error at an address that does not exist, and otherwise reads, writes or
controls; EXTEST halts all outputs; a TAP reset touches the TAP alone; a rate frame sets the rate and 10 s of silence resets it. -/
def Obligations.DebugAndUartEventsRun : Prop :=
  (∀ (random : BitVec 128) (s u : State), u = selectIr 0x10 s → u.sec.ir = 0x10 →
    Claims.Leaves (.dbgChallenge random) s
      (onSec (fun c => { c with challenge := challengeBits random u }) (issueNonce random u))) ∧
  (∀ (dr : Bytes) (s u : State), u = selectIr 0x11 s → u.sec.ir = 0x11 →
    Claims.Leaves (.dbgResponse dr) s (respond (responseRequest dr u) u)) ∧
  (∀ (space : Fin 16) (addr : Nat) (data : BitVec 40) (s u : State), u = selectIr 0x20 s → u.sec.ir = 0x20 →
    (mayObserve u = false → Claims.Leaves (.dbgAccessRead space addr) s
      (onSec (fun c => { c with dbgStatus := 2, dbgData := 0 }) u)) ∧
    (mayObserve u = true → dbgHas space.val addr = false → Claims.Leaves (.dbgAccessRead space addr) s
      (onSec (fun c => { c with dbgStatus := 3, dbgData := 0 }) u)) ∧
    (mayObserve u = true → dbgHas space.val addr = true → Claims.Leaves (.dbgAccessRead space addr) s
      (onSec (fun c => { c with dbgStatus := 0, dbgData := (dbgWord space.val addr u).1 }) (dbgWord space.val addr u).2)) ∧
    (mayControl u = false →
      Claims.Leaves (.dbgAccessWrite space addr data) s (onSec (fun c => { c with dbgStatus := 2, dbgData := 0 }) u) ∧
      Claims.Leaves (.dbgAccessControl space addr data) s (onSec (fun c => { c with dbgStatus := 2, dbgData := 0 }) u)) ∧
    (mayControl u = true → dbgHas space.val addr = true → space.val ≠ 5 →
      Claims.Leaves (.dbgAccessWrite space addr data) s (onSec (fun c => { c with dbgStatus := 0, dbgData := 0 })
        (onPair (fun p => { p with changed := u.pair.changed }) (dbgPut space.val addr data u)))) ∧
    (mayControl u = true → space.val = 8 → addr < 16 → Claims.Leaves (.dbgAccessControl space addr data) s
      (onSec (fun c => { c with dbgStatus := 0, dbgData := 0 }) (onEng addr (controlEngine data) u)))) ∧
  (∀ s u : State, s.dev.st.honoursExtest = true → u = selectIr 0x00 s → u.sec.ir = 0x00 → u.sec.tlr = false →
    ∃ t, exec (.extest true) s = .next t ∧ t.net.haltAll = true ∧ t.net.haltExtest = true ∧ t.sec.extest = true) ∧
  (∀ s : State, Claims.Leaves (.extest false) s (selectIr 0xFF s)) ∧
  (∀ s : State, ∃ t, exec .tapReset s = .next t ∧ t.sec.tlr = true ∧ t.dev = s.dev ∧ t.img = s.img ∧ t.mem = s.mem ∧
    t.scan = s.scan ∧ t.host = s.host ∧ t.sec.grant = s.sec.grant ∧ t.sec.nonce = s.sec.nonce) ∧
  (∀ (code : Byte) (s : State), served .uart s = true → code.toNat < 6 →
    Claims.Leaves (.uartRateFrame code) s (onFw (fun f => { f with uartRate := code.toNat, uartAt := s.dev.now }) s)) ∧
  (∀ s : State, Claims.Leaves .uartRateTimeout s
    (onFw (fun f => { f with uartRate := 0 }) (advance (s.fw.uartAt + 60000000000) s)))

/-! ### Events: power, reset, start (03, 14, 15) -/

/-- Loss and return of power (R59, R366 to R373, R382): the always-on domain comes and goes; a failure in a configured state enters
HOLDUP and in BOOT, SELFTEST, RECOVERY or FAULT drops the power; a return in stage 1 leads back, in stage 2 is remembered; stage 2
begins at the first sample at which E_avail ≤ E_req, or when the ride-through is over; the seal ends the hold-up. -/
def Obligations.PowerEventsRun : Prop :=
  (∀ s : State, s.dev.vaon = false → s.dev.st = .off → s.dev.railsGood = false → ∃ t, exec .vaonRise s = .next t ∧ t.dev.vaon = true ∧
    t.dev.st = .retain ∧ t.dev.retainLost = true ∧ t.cal.valid = false ∧ t.energy.cellUnknown = true) ∧
  (∀ s : State, s.dev.st = .retain → ∃ t, exec .retainLost s = .next t ∧ t.dev.vaon = false ∧ t.dev.st = .off ∧
    t.dev.retainLost = true ∧ t.wdg.evTask = .reset ∧ t.wdg.evFw = .reset ∧ t.wdg.evHost = .reset) ∧
  (∀ s : State, s.dev.railsGood = false → (s.dev.st = .off ∨ s.dev.st = .retain) → s.dev.pwrRstLow = false →
    s.dev.powerFailLow = false → ∃ t, exec .mainRailsGood s = .next t ∧ t.dev.st = .boot ∧ t.dev.railsGood = true ∧
      t.dev.startCause = 0 ∧ t.dev.role = .solo) ∧
  (∀ (time : Nat) (s u : State), u = onDev (fun d => { d with pwrRstLow := true }) (advance time s) →
    (u.dev.st ≠ .off → u.dev.st ≠ .retain → u.dev.st ≠ .holdup → Claims.Leaves (.pwrRstAssert time) s (beginBoot 1 u)) ∧
    (u.dev.st = .holdup → u.log.stopped = false → Claims.Leaves (.pwrRstAssert time) s
      (onDev (fun d => { d with resetWaits := true }) (beginStage2 u)))) ∧
  (∀ s u : State, s.dev.pwrRstLow = true → u = onDev (fun d => { d with pwrRstLow := false }) s →
    s.dev.st = .boot → Claims.Leaves .pwrRstRelease s (beginBoot 1 u)) ∧
  (∀ (time : Nat) (s u : State), u = onDev (fun d => { d with powerFailLow := true }) (advance time s) →
    ((u.dev.st = .configure ∨ u.dev.st = .stop ∨ u.dev.st = .run ∨ u.dev.st = .changing ∨ u.dev.st = .halted) →
      Claims.Leaves (.powerFail time) s (enterHoldup u)) ∧
    ((u.dev.st = .boot ∨ u.dev.st = .selftest ∨ u.dev.st = .recovery ∨ u.dev.st = .fault) →
      Claims.Leaves (.powerFail time) s (leaveService u)) ∧
    (u.dev.st = .holdup → Claims.Leaves (.powerFail time) s (onDev (fun d => { d with powerBack := false }) u))) ∧
  (∀ (time : Nat) (s u : State), u = advance time s → u.dev.st = .holdup → u.dev.stage = 2 →
    u.log.stopped = true → Claims.Leaves (.mainRailTrip time) s (dropPower u)) ∧
  (∀ (time : Nat) (s u : State), u = onDev (fun d => { d with powerFailLow := false }) (advance time s) → u.dev.st = .holdup →
    (u.dev.stage = 1 → Claims.Leaves (.powerReturn time) s (returnStage1 u)) ∧
    (u.dev.stage = 2 → u.log.stopped = false → Claims.Leaves (.powerReturn time) s
      (onDev (fun d => { d with powerBack := true }) u))) ∧
  (∀ (mv time : Nat) (s u w : State), u = advance time s → u.dev.st = .holdup → u.dev.stage = 1 →
    w = onEnergy (fun e => { e with vLow := min e.vLow e.v }) (sampleBank mv u) →
    Claims.Leaves (.holdupSample mv time) s (if availX w.energy ≤ reqX w.energy (dirtyBytes w) then beginStage2 w else w)) ∧
  (∀ (time : Nat) (s u : State), u = advance time s → u.dev.st = .holdup → u.dev.stage = 1 → 0 < u.energy.cfg.ride →
    1000 * u.energy.cfg.ride ≤ stage1Time u → Claims.Leaves (.rideThroughExpiry time) s (beginStage2 u)) ∧
  (∀ (time : Nat) (s u : State), u = advance time s → u.dev.st = .holdup → u.dev.stage = 2 → u.log.stopped = false →
    u.dev.resetWaits = false → u.dev.powerBack = false → Claims.Leaves (.seal time) s (sealNow u))

/-- Starts and resets (R338, R379 to R389, R430): BOOT leads to RECOVERY, or to SELFTEST with the first bank that passes, or counts a
failed boot; SELFTEST leads to FAULT, to a cold start in CONFIGURE or to a warm start; a scheduled reset takes effect outside a
switch window; the firmware watchdog takes its evidence and its record before the core goes down, and the reload brings it up;
HALT_REQ_N low halts the outputs, and its release lifts no halt (R261). -/
def Obligations.StartEventsRun : Prop :=
  (∀ (env : BootEnv) (s u w : State), u = advance env.time s → u.dev.st = .boot → u.dev.pwrRstLow = false →
    u.dev.powerFailLow = false →
    w = onPair (fun p => { p with sideB := env.sideB })
      (onSec (fun c => { c with shadows := true }) (if u.dev.startCause = 3 then u else startLog u)) →
    (bootRecovers env w = true →
      Claims.Leaves (.boot env) s (enterRecovery (countPowerCycle w))) ∧
    (bootRecovers env w = false → ∀ v, v = countPowerCycle (onFw (fun f => { f with norReset := false }) w) →
      (bootBank v = none ∨ 2 ≤ v.fw.failed → Claims.Leaves (.boot env) s (enterRecovery v)) ∧
      (∀ n, bootBank v = some n → v.fw.failed < 2 → Claims.Leaves (.boot env) s
        (if env.pllLocked = true ∧ bankPasses v n = true then enterSelftest (scanBanks (runBank n v)) else bootFailed n v)))) ∧
  (∀ (env : SelftestEnv) (s u w : State), u = advance env.time s → u.dev.st = .selftest → u.fw.coreUp = true → w = loadCurve u →
    (∀ x, env.checkerFails = some x → Claims.Leaves (.selftest env) s
      (enterFault x.1 (logHw 0xB004 (fields [(1, x.1), (1, x.2), (4, 0)]) u))) ∧
    (env.checkerFails = none → u.dev.cfgValid = false → Claims.Leaves (.selftest env) s (leaveSelftest 0 .configure
      (finishSelftest (onDev (fun d => { d with cfgValid := true, cfgFormat := u.fw.cfgFormat }) (loadCurve (coldStart u)))))) ∧
    (env.checkerFails = none → u.dev.cfgValid = true → u.dev.cfgFormat = u.fw.cfgFormat →
      Claims.Leaves (.selftest env) s (leaveSelftest 1
        (if (warmStart env w).chg.running.isSome then startState (warmStart env w) else .configure)
        (finishSelftest (warmStart env w))))) ∧
  (∀ (time : Nat) (s u : State) (t0 : Nat), u = advance time s → u.pair.deciding = some t0 →
    (u.pair.line = 2 → Claims.Leaves (.arbitration time) s (becomeSyncing u)) ∧
    (u.pair.line = 0 → t0 + 600000000 ≤ u.dev.now → Claims.Leaves (.arbitration time) s (arbitrated u))) ∧
  (∀ (s : State) (k : Nat), s.dev.resetScope = some k → s.chg.window = none →
    ∃ t, exec .deviceReset s = .next t ∧ t.dev.st = .boot ∧ t.dev.startCause = 2 ∧ t.dev.resetScope = none ∧
      t.dev.cfgValid = (s.dev.cfgValid && k != 2) ∧ t.dev.recoveryNext = (s.dev.recoveryNext || k == 3) ∧
      t.wdg.evHost = s.wdg.evHost ∧ t.mem.copyA = s.mem.copyA ∧ t.mem.copyB = s.mem.copyB) ∧
  (∀ (pc : Word) (time : Nat) (s : State), s.dev.st = .run → s.sec.coreHeld = false → s.fw.coreUp = true →
    ∃ t, exec (.fwWatchdogExpiry pc time) s = .next t ∧ t.fw.coreUp = false ∧ t.wdg.evFw.where0 = pc ∧ t.img = s.img ∧
      t.scan = s.scan) ∧
  (∀ (time : Nat) (s u : State), u = advance time s → u.fw.coreUp = false → u.dev.st.configured = true →
    Claims.Leaves (.serviceCoreRestart time) s (reloadCore (onFw (fun f => { f with norReset := false }) u))) ∧
  (∀ (time : Nat) (s u : State), u = onDev (fun d => { d with haltReqLow := true }) (advance time s) → dieUp u = true →
    u.dev.st.configured = true → (u.dev.role = .solo ∨ u.dev.role = .primary) →
    Claims.Leaves (.haltReqCapture time) s (onFio (fun f =>
      { f with haltOff := true, testHit := true, ch := f.ch.map (fun c => { c with applied := false }) }) (haltRequested u))) ∧
  (∀ s : State, Claims.Leaves .haltReqRelease s (onDev (fun d => { d with haltReqLow := false }) s))

/-! ### Events: scan, code, memories, clocks (05, 08, 12, 14, 16, 17, 19) -/

/-- The scan (R16, R86, R107 to R118, R226, R303, R315 to R317): a base tick moves the tick on and brings its boundary; a window ends
with what it held back; a freeze ends for the task at the head of the queue; a preempted engine gives its task up, unless the
budget governs; a reached budget expires; a timer that has elapsed fires its event; full buffers of a pair are committed; a
verification activation joins its pair or leaves it SPLIT with a dual fault. -/
def Obligations.ScanEventsRun : Prop :=
  (∀ s : State, dieUp s = true →
    Claims.Leaves .baseTick s (if s.dev.st.configured = true then boundary (nextTick s) else nextTick s)) ∧
  (∀ (time : Nat) (s : State), s.chg.window.isSome = true →
    Claims.Leaves (.switchWindowEnd time) s (drainAll (wdgAfterWindow (endWindow (advance time s))))) ∧
  (∀ (task : Fin 64) (time : Nat) (s : State), s.scan.freezes.head? = some task.val →
    Claims.Leaves (.freezeEnd task time) s (settle (emptyFreezes 64 (endFreeze task.val (advance time s))))) ∧
  (∀ (e : Fin 16) (time : Nat) (s u : State) (n : Nat), u = advance time s → (getEng u e.val).task = some n →
    (getEng u e.val).preemptFor.isSome = true →
    Claims.Leaves (.preemptionStop e time) s
      (if budgetReached u n u.dev.now = true then expireBudget n u else preempt n e.val u)) ∧
  (∀ (task : Fin 64) (time : Nat) (s u : State), u = advance time s → budgetReached s task.val u.dev.now = true →
    Claims.Leaves (.budgetExpiry task time) s (expireBudget task.val u)) ∧
  (∀ (task : Fin 64) (time due : Nat) (s u : State), u = advance time s → (getTask s task.val).timer = some due →
    due ≤ u.dev.now → Claims.Leaves (.taskTimerExpiry task time) s
      (settle (fireTrigger task.val 4 due TWord.empty (onTask task.val (fun x => { x with timer := none }) u)).2)) ∧
  (∀ (k : Fin 8) (s : State) (n : Nat) (i j : Instr), (getEng s (2 * k.val)).task = some n →
    (getEng s (2 * k.val)).issued = some (.bufferFull, i) → (getEng s (2 * k.val + 1)).issued = some (.bufferFull, j) →
    (∀ u, (false, u) = commitPair n k.val s → Claims.Leaves (.commitFlush k) s u) ∧
    (∀ u w, (true, u) = commitPair n k.val s →
      w = onEng (2 * k.val + 1) (fun x => { x with issued := none }) (onEng (2 * k.val) (fun x => { x with issued := none }) u) →
      Claims.Leaves (.commitFlush k) s
        (resolveAll n k.val 16 (runPaired n (2 * k.val + 1) j 8 (runPaired n (2 * k.val) i 8 w))))) ∧
  (∀ (k : Fin 8) (s : State), getPair s k.val = .verifying → s.dev.st.configured = true → s.scan.pairs.length = 8 →
    s.scan.engines.length = 16 → pairOp s 0x1009 k.val = none → pairOp s 0x100A k.val = none →
    (∃ t, exec (.verificationActivation k true) s = .next t ∧ getPair t k.val = .joined ∧
      t.scan.verified.getLsbD k.val = true) ∧
    (∃ t, exec (.verificationActivation k false) s = .next t ∧ getPair t k.val = .split ∧
      t.scan.dualFault.getLsbD k.val = true ∧ t.scan.verifyFails = min 255 (s.scan.verifyFails + 1)))

/-- The code store, the scrubber, MRAM and the energy interval (R196 to R204, R354 to R363, R372, R416, R421): the page
whose turn it is fills a free frame or one whose page may be evicted, each line checked against the table; a damaged line is fetched
again and rewritten, or makes its page absent; the bad page that is next is rebuilt from the archive or is lost; a scrub read counts what it
finds; the bucket leaks one; the writer writes the oldest dirty block; an interval meters, applies the cap and admits; VBAT is judged. -/
def Obligations.CodeAndMemoryEventsRun : Prop :=
  (∀ (gen page : Nat) (s : State), pagerActive s = true → (nextFills s).contains (gen, page) = true →
    (frameLeft s gen page = true → Claims.Leaves (.pageFill gen page) s (afterFill (putFrame gen page s))) ∧
    (∀ i, frameLeft s gen page = false → evictPage s = some i →
      Claims.Leaves (.pageFill gen page) s (afterFill (putFrame gen page (dropFrame i s))))) ∧
  (∀ (gen page i : Nat) (p : Program) (s : State), progOf s gen = some p → stored s gen page = false →
    (failingLine s gen page (codePage p page) = none → twinFrame s page (codePage p page) = none → freeFrame s = some i →
      putFrame gen page s = onMem (fun m =>
        { m with frames := insertAt m.frames i { page := page, gens := [gen], lines := pageLines (codePage p page) } }) s) ∧
    (∀ l, failingLine s gen page (codePage p page) = some l →
      putFrame gen page s = markBad gen page (recordRefetch gen page l s))) ∧
  (∀ (frame line : Nat) (bad : Bool) (s : State), s.dev.st ≠ .fault → s.dev.st ≠ .holdup →
    (look s.mem.frames frame = none → Claims.Leaves (.lineRefetch frame line bad) s s) ∧
    (∀ f p b u es, look s.mem.frames frame = some f → f.gens.contains (runningGen s) = true → line < 64 →
      progOf s (runningGen s) = some p → b = lineBytes (codePage p f.page) line → es = enginesAt s (runningGen s) f.page line →
      u = recordRefetch (runningGen s) f.page line (countUe 7 (64 * frame + line) s) →
      (bad = false → linePasses s (runningGen s) f.page line b = true → Claims.Leaves (.lineRefetch frame line bad) s
        (es.foldl (fun t e => waitLine e t) (rewriteLine frame line b u))) ∧
      (bad = true ∨ linePasses s (runningGen s) f.page line b = false → Claims.Leaves (.lineRefetch frame line bad) s
        (stopAtPage es (markBad (runningGen s) f.page u))))) ∧
  (∀ (gen page : Nat) (s u : State), nextRebuild s = some (gen, page) → pagerActive s = true →
    firmwareServes s = true → (freeFrame s).isSome = true →
    u = onMem (fun m => { m with badPages := m.badPages.filter (· != (gen, page)) }) s →
    (∀ b, archivedPage s gen page = some b → failingLine s gen page b = none →
      Claims.Leaves (.pageRebuild gen page false false) s (rebuildPage gen page b false u) ∧
      (s.mem.spares < 256 → Claims.Leaves (.pageRebuild gen page false true) s (rebuildPage gen page b true u)) ∧
      (256 ≤ s.mem.spares → Claims.Leaves (.pageRebuild gen page false true) s (losePage gen page u))) ∧
    (∀ bad, archivedPage s gen page = none ∨ bad = true → ∃ t, exec (.pageRebuild gen page bad false) s = .next t ∧
      t.mem.lostPages = s.mem.lostPages ++ [(gen, page)] ∧ t.mem.losts = min 255 (s.mem.losts + 1) ∧
      t.regs.cause.getLsbD 10 = true)) ∧
  (∀ (mem addr : Nat) (s : State), hostAccess s = true →
    Claims.Leaves (.scrubRead mem addr .clean) s s ∧
    Claims.Leaves (.scrubRead mem addr .correctable) s (correctable mem addr s) ∧
    Claims.Leaves (.scrubRead mem addr .uncorrectable) s (settle (uncorrectable mem addr s))) ∧
  (∀ s : State, Claims.Leaves .bucketLeak s (onInteg (fun i => { i with level := i.level - 1 }) s)) ∧
  (∀ s : State, hostAccess s = true → writerReady (writeMarker s) = true →
    Claims.Leaves .persistWrite s (writeBlocks 1 (writeMarker s))) ∧
  (∀ (rails : List Nat) (mv time : Nat) (s w v u : State), hostAccess s = true →
    w = meterStage (onEnergy (fun e =>
      { e with rails := rails, samples := (rails.sum :: e.samples).take 100,
               average := meanOf ((rails.sum :: e.samples).take 100) }) (advance time s)) → w.dev.st ≠ .holdup →
    v = updateLimit (capInterval (sampleBank mv w)) →
    (opsProceed (sampleBank mv w) = true → u = countPass (considerJobs v)) →
    (opsProceed (sampleBank mv w) = false → u = countPass v) →
    Claims.Leaves (.energyIntervalEnd rails mv time) s (onEnergy (fun e =>
      { e with overIntervals := if e.energyOver = true then min 4294967295 (e.overIntervals + 1) else e.overIntervals }) u)) ∧
  (∀ (mv charge : Nat) (s : State), s.dev.st ≠ .off → Claims.Leaves (.vbatMeasure mv charge) s
    (judgeCell (onEnergy (fun e =>
      { e with vbat := mv, drawn := if e.cellUnknown = true then e.drawn else e.drawn + charge }) s)))

/-- Clocks and the event record (R395 to R403, R445 to R453, R464, R469): the rollover, the trim's evaluation, the pending set, the
end of a hold; a nonce and a grant whose time is over are gone; the operating time is saved; the writer takes the oldest event,
writes the pending repeat, and overwrites cleared records. -/
def Obligations.ClockAndLogEventsRun : Prop :=
  (∀ s : State, s.dev.vaon = true → Claims.Leaves .calendarRollover s (rollover (onCal (fun c =>
    { c with subsec := 0, hold := 0, removed := false,
             corrections := min c.n.natAbs (c.corrections + (8 - c.subsec / 4096)) }) s))) ∧
  (∀ (temp : Int) (s : State), s.dev.vaon = true → Claims.Leaves (.trimEvaluation temp) s
    (onCal (fun c => { c with temp := temp, nNext := trimN c.a0 c.a2 c.t0 temp }) s)) ∧
  (∀ (f : CalFields) (s : State), s.cal.pendingSet = some f → Claims.Leaves .timeSetPendingLoad s (loadCalendar f 2 s)) ∧
  (∀ s : State, Claims.Leaves .shiftHoldEnd s (onCal (fun c => { c with hold := 0 }) s)) ∧
  (∀ (time : Nat) (s : State), nonceCurrent (advance time s) = none → ∃ t, exec (.nonceExpiry time) s = .next t ∧
    t.sec.nonce = none ∧ t.sec.grant = s.sec.grant) ∧
  (∀ (time : Nat) (s : State), grantLeft (advance time s) = 0 → ∃ t, exec (.grantExpiry time) s = .next t ∧
    t.sec.grant = none) ∧
  (∀ (time : Nat) (s u : State), u = advance time s → s.dev.railsGood = true →
    Claims.Leaves (.optimeSave time) s (onDev (fun d => { d with optimeSaved := optimeMs u }) u)) ∧
  (∀ s : State, writerOn s = true →
    Claims.Leaves .eventRecordWrite s (takeEvent s) ∧ Claims.Leaves .repeatUpdate s (writeRepeat s) ∧
    Claims.Leaves .clearedOverwrite s (onLog (fun l =>
      { l with recs := l.recs.filter (fun x => !l.toErase.contains x.seq), toErase := [] }) s))

/-! ### Events: network, stations, pair (10, 11, 13) -/

/-- The network and its stations (R83, R239, R240, R253 to R257, R265, R276 to R288): a frame is received; the cut-off closes the inputs of the cycle
once; a ring found broken is recorded; ports come and go; a schedule takes effect; the timebase measures, has a step
made at the next boundary, or goes to holdover; and a session's times are over. -/
def Obligations.NetworkAndStationEventsRun : Prop :=
  (∀ (port : Fin 4) (f : NetFrame) (s : State),
    Claims.Leaves (.inputFrame port f) s (receive port.val f s) ∧
    (upType f = 0x41 → Claims.Leaves (.announce port f) s (receive port.val f s)) ∧
    (upType f = 0x42 → Claims.Leaves (.answer port f) s (receive port.val f s)) ∧
    (upType f = 0x43 → Claims.Leaves (.notify port f) s (receive port.val f s)) ∧
    (f.etherType = 0x88F7 → isTimeLink (portRec s port.val) = false → Claims.Leaves (.delayReq port f) s (receive port.val f s)) ∧
    (f.fcsOk = true → f.etherType = 0x88F7 → 64 ≤ f.len → f.len ≤ 1522 → isTimeLink (portRec s port.val) = true →
      portHears s port.val = true → ptpThisSecond (advance (s.dev.tickAt + 6 * f.endNs) s) port.val < 64 → servoRuns s = true →
      s.net.source = 2 →
      s.net.tlPort = port.val → byteAt f.bytes 4 = s.net.domain → ∀ ns,
      Claims.Leaves (.ptpMessage port f ns) s (measure ns (receive port.val f s)))) ∧
  (∀ (time : Nat) (s u w : State), dieUp s = true → s.net.cycling = true → s.net.lastCut ≠ some s.dev.tick →
    u = advance (max time (s.dev.tickAt + 6 * 249000)) (onNet (fun n => { n with lastCut := some s.dev.tick }) s) →
    w = (lineKeys u).foldl (fun t k => cutRing k t) u → ∀ x,
    x = cutNewer ((cutList w).foldl (fun t a => cutStation a t) w) →
    Claims.Leaves (.inputCutoff time) s (settle (onNet (fun n =>
      { n with stationView := x.net.stations.map (fun e => (e.1, stationRecord x e.1 e.2)) }) x)) ∧
    (∀ t t', exec (.inputCutoff time) s = .next t → t.net.lastCut = some t.dev.tick →
      exec (.inputCutoff time) t = .next t' → t' = t)) ∧
  (∀ (port : Fin 4) (s : State) (k : Nat), k = lineKey s port.val → isRing (portRec s k) = true → 3 ≤ (getPort s k).oneEnd →
    (getPort s k).broken = false →
    Claims.Leaves (.ringBroken port) s (logHw 0x4002 [b8 k, 1] (onPort k (fun p => { p with broken := true }) s))) ∧
  (∀ (port : Fin 4) (s : State), dieUp s = true →
    Claims.Leaves (.portLinkDown port) s (onPort port.val (fun p => { p with linkUp := false }) s) ∧
    Claims.Leaves (.portLinkUp port) s (onPort port.val (fun p => { p with linkUp := true }) s) ∧
    Claims.Leaves .scheduleSwitch s (applySchedule s) ∧
    (s.net.source ≠ 0 → s.net.tb ≠ .free → Claims.Leaves .timebaseHoldover s
      (onNet (fun n => { n with tb := .holdover, goodMeasures := 0 }) s)) ∧
    ((s.dev.st = .configure ∨ s.dev.st = .stop) → s.dev.role ≠ .standby → s.net.source ≠ 0 →
      s.net.threshold < s.net.stepOffset.natAbs →
      Claims.Leaves .timebaseStep s (onNet (fun n => { n with stepDue := true }) s)) ∧
    (s.net.stepDue = true → mayStep s = true → ∀ t, t = stepTimebase s →
      t.net.offset = 0 ∧ t.net.stepOffset = 0 ∧ t.net.stepDue = false ∧
      t.dev.tick = stepTick s.dev.tick s.net.stepOffset) ∧
    (servoRuns s = true → s.net.source = 1 → ∀ ns, Claims.Leaves (.ppsInEdge ns) s
      (measure (ns + (edgeSecond ns s - s.net.ppsSeconds) * 1000000000) (onNet (fun n =>
        { n with secondsBase := n.ppsSeconds, ppsSeconds := n.ppsSeconds + 1 }) s)))) ∧
  (∀ (a : Nat) (s : State) (e : Session), runningSession s a = some e →
    (e.st ≠ .probing → e.sent = true → 4 ≤ e.grants → e.resends < 3 → Claims.Leaves (.sessionAnswerTimeout a) s
      (onSession a (fun e => { e with sent := false, resends := e.resends + 1, grants := 0 }) s)) ∧
    (e.st ≠ .probing → e.sent = true → 4 ≤ e.grants → 3 ≤ e.resends →
      Claims.Leaves (.sessionAnswerTimeout a) s (sessionExhausted a e s)) ∧
    (e.st = .waiting → 240000 ≤ e.waited → Claims.Leaves (.sessionWaitTimeout a) s (closeUnresolved a stTimeout 1 0 false s)) ∧
    (e.st = .probing → 4 ≤ e.grants → e.waitCycle < s.dev.tick + 40 →
      Claims.Leaves (.probeTimeout a) s (closeSession a stTimeout 1 0 false s))) ∧
  (∀ (a : Nat) (s : State) (x : Station), getStn s a = some x →
    (sessionsRun s = true → (x.st = .verifying ∨ x.unresolved.isSome = true) → x.session = none → x.verifyDue = false →
      x.verifyCycle + 4000 ≤ s.dev.tick →
      Claims.Leaves (.verificationRepeat a) s (onStn a (fun x => { x with verifyDue := true }) s)) ∧
    (∀ i t, x.returning = some (i, t) → t + 240000 ≤ s.dev.tick → Claims.Leaves (.stationReturnTimeout a) s
      (endStationOp a i stTimeout 12 0 (onStn a (fun x => { x with returning := none }) s))))

/-- The Selvedge link (R326 to R345): a frame with a good CRC is heard in its order, and then does what its type says; a frame with a
bad CRC does nothing.
The pair outside its link's frames (R323 to R345): a takeover that is due, a yield, a handover, the passing of mastership; the
loss of the link, of a lane, of the alive line; PAIR_FAULT_N; and the timeouts of a synchronisation. -/
def Obligations.PairEventsRun : Prop :=
  (∀ (h : SelHeader) (s u : State), dieUp s = true → h.crcOk = true → u = hear h s →
    (∀ role state flags major low, major ≠ u.fw.linkMajor → Claims.Leaves (.status h role state flags major low) s
      (onPair (fun p => { p with partnerMajor := major }) u)) ∧
    (∀ role state flags low, u.dev.role = .solo → u.pair.syncPaused = false →
      Claims.Leaves (.status h role state flags u.fw.linkMajor low) s (resend low (onPair (fun p =>
        { p with linkUp := true, partnerRole := some role, partnerState := state, partnerSideB := bitOf flags 0,
                 partnerEligible := bitOf flags 1 && role == 2, partnerMajor := u.fw.linkMajor, resendFrom := low }) u))) ∧
    (∀ serial major minor applied kib ns missed,
      Claims.Leaves (.tickStatus h serial major minor applied kib ns missed) s (judgeEnds missed (onPair (fun p =>
        { p with partnerId := serial, partnerMajor := major, partnerApplied := fullTick u applied,
                 partnerLimit := some (1024 * kib), tbOk := decide (ns.natAbs ≤ 100), partnerMissed := missed }) u))) ∧
    (∀ r n, (u.dev.role = .standby ∨ u.dev.role = .syncing) → n = fullTick u h.tick →
      (deltaLate u n = true → Claims.Leaves (.delta h r) s u ∧ ∀ records bytes, Claims.Leaves (.deltaEnd h records bytes) s u) ∧
      (deltaLate u n = false → (∀ d ∈ u.pair.deltas, d.1 ≠ n) →
        Claims.Leaves (.delta h r) s (onPair (fun p => { p with deltas := p.deltas ++ [(n, r, none)] }) u) ∧
        ∀ records bytes, Claims.Leaves (.deltaEnd h records bytes) s
          (onPair (fun p => { p with deltas := p.deltas ++ [(n, [], some (records, bytes))] }) u)) ∧
      (∀ before after old e, deltaLate u n = false → u.pair.deltas = before ++ (n, old, e) :: after →
        (∀ d ∈ before ++ after, d.1 ≠ n) →
        Claims.Leaves (.delta h r) s (onPair (fun p => { p with deltas := before ++ after ++ [(n, old ++ r, e)] }) u) ∧
        ∀ records bytes, Claims.Leaves (.deltaEnd h records bytes) s
          (onPair (fun p => { p with deltas := before ++ after ++ [(n, old, some (records, bytes))] }) u))) ∧
    (∀ (port : Fin 4) (f : NetFrame), (u.dev.role ≠ .standby ∨ pairPort u port.val = false) →
      Claims.Leaves (.relayDown h port f) s u) ∧
    (∀ (port : Fin 4) (f : NetFrame), pairPort u port.val = true →
      Claims.Leaves (.relayUp h port f) s (receive port.val f u)) ∧
    (∀ side serial major, Claims.Leaves (.bulk h (.offer side serial major)) s (takeOffer side serial major u)) ∧
    (∀ cur slot gen bytes, u.dev.role = .syncing →
      Claims.Leaves (.bulk h (.image cur slot gen bytes)) s (takeImage cur slot gen bytes u)) ∧
    (∀ phase kib, Claims.Leaves (.bulkAck h (.ok phase kib)) s (phaseDone phase kib u)) ∧
    (∀ n, Claims.Leaves (.bulkAck h (.joined n)) s (partnerJoined n u)) ∧
    (∀ holdFrom time, Claims.Leaves (.notice h .leave holdFrom time) s
      (leaveAsPartner (endSync stTimeout (advance time u))))) ∧
  ((∀ (time t0 : Nat) (x : Nat) (s u : State), u = advance time s → u.pair.takeoverDue = some (t0, x) → t0 ≤ u.dev.tick →
    u.dev.role = .standby → Claims.Leaves (.takeover time) s (takeOver u)) ∧
  (∀ (time : Nat) (s u : State), u = advance time s → u.pair.yieldDue = true → Claims.Leaves (.yieldPrimary time) s (yieldNow u)) ∧
  (∀ (time : Nat) (s u : State), u = advance time s →
    (u.pair.handoverDue = true → u.dev.role = .primary → Claims.Leaves (.handover time) s (handOver u)) ∧
    (∀ d, u.dev.role = .standby → u.pair.handoverAt = none → markedDelta u = some d →
      Claims.Leaves (.handover time) s (takeHandover d u))) ∧
  (∀ (p : Nat) (s : State), s.pair.handoverAt = some p → p ≤ s.dev.tick → s.dev.role = .standby →
    ∃ t, exec .mastershipPass s = .next t ∧ t.pair.master = false ∧ t.pair.handoverAt = none ∧ t.net.cycling = false ∧
      t.fio.ch = s.fio.ch.map (fun c => { c with applied := false })) ∧
  (∀ (time : Nat) (s u : State), u = advance time s → dieUp u = true → u.pair.linkUp = true →
    Claims.Leaves (.selvedgeLinkDown time) s (judgePair time (stageLost (onPair (fun p =>
      { p with linkUp := false, partnerLimit := none, partnerEligible := false, linkLosses := min 255 (p.linkLosses + 1),
               syncPaused := p.syncPhase != 0, pausedAt := u.dev.now }) u)))) ∧
  (∀ (lane : Fin 2) (s : State), dieUp s = true →
    Claims.Leaves (.laneLoss lane) s (setLane lane false s) ∧ Claims.Leaves (.laneLock lane) s (setLane lane true s)) ∧
  (∀ (v : Fin 3) (time : Nat) (s u : State), u = advance time s → dieUp u = true → u.pair.line ≠ v.val → u.dev.role = .solo →
    u.pair.syncPhase = 0 → Claims.Leaves (.peerAliveDecode v time) s
      (onPair (fun p => { p with line := v.val, lineAt := time }) u)) ∧
  (∀ s : State, dieUp s = true →
    (s.scan.dualFault = 0 → s.pair.peerFault = false →
      Claims.Leaves (.peerFault true) s (setCause 4 (onPair (fun p => { p with peerFault := true }) s))) ∧
    Claims.Leaves (.peerFault false) s (onPair (fun p => { p with peerFault := false }) s)) ∧
  (∀ s : State, s.dev.role = .syncing → s.pair.line = 0 → Claims.Leaves .syncingTimeout s
    (syncingEnds (endSync stTimeout (advance (s.pair.lineAt + 6000000000) s)))) ∧
  (∀ s : State, s.pair.syncPaused = true → s.pair.syncPhase ≠ 0 →
    Claims.Leaves .syncLinkTimeout s (endSync stTimeout (advance (s.pair.pausedAt + 60000000000) s))))

/-! ### Events: field I/O and units of operations (05, 09, 17, 20, 22) -/

/-- Field I/O (R493 to R510): a sample is taken in every channel that is not under test; a link frame carries it into the slots;
the loss of the link switches every driver off and its return starts the channels anew; filters, wire breaks, supplies,
shutdowns and readback faults follow their counts, with their records and their cause bit. -/
def Obligations.FieldEventsRun : Prop :=
  (∀ (time : Nat) (s u : State), u = advance time s → dieUp u = true → u.fio.linkUp = true →
    (u.fio.sampleWaiting = true → Claims.Leaves (.fieldLinkFrame time) s
      (settle (onFio (fun f => { f with sampleWaiting := false })
        (((List.range 32).filter (fun c => underTest u != some c)).foldl (fun t c => carryChannel c t) u)))) ∧
    Claims.Leaves (.fieldLinkLost time) s (settle (setCause 7 (logHw 0xC004 [0xFF] (writeInputSlots (onFio (fun f =>
      { f with linkUp := false, testHit := true, sampleWaiting := false, ch := f.ch.map (fun c => { c with applied := false }) }) u)))))) ∧
  (∀ s : State, dieUp s = true → s.fio.linkUp = false → Claims.Leaves .fieldLinkUp s (onFio (fun f =>
    { f with linkUp := true, ch := f.ch.map (fun c => { c with first := true, setNotEdge := true, diffA := 0, diffB := 0 }) }) s)) ∧
  (∀ (x : FieldSample) (s u : State), u = advance x.time s → dieUp u = true → u.fio.linkUp = true → u.fio.test = none →
    ∃ t, exec (.fieldSample x) s = .next t ∧ t.fio.sampleWaiting = true ∧ t.fio.sampleAt = x.time ∧
      (∀ c, c < 32 → getCh t c = sampleChannel c (x.rawA.getLsbD c) (x.rawB.getLsbD c) (nth 0 x.currents c) x.time
        (nth (Channel.reset c) u.fio.ch c)) ∧
      t.fio.supplyA = sampleSupply x.supplyA u.fio.supplyA ∧ t.fio.supplyB = sampleSupply x.supplyB u.fio.supplyB) ∧
  (∀ (ch : Fin 32) (s : State), dieUp s = true →
    (isInput ch.val (getCh s ch.val) = true → filterN (getCh s ch.val) ≤ (getCh s ch.val).diffB →
      Claims.Leaves (.filterChange ch true) s (onCh ch.val (fun y => { y with filtB := y.rawB, diffB := 0 }) s)) ∧
    (isInput ch.val (getCh s ch.val) = true → filterN (getCh s ch.val) ≤ (getCh s ch.val).diffA →
      Claims.Leaves (.filterChange ch false) s (onCh ch.val (fun y => { y with filtA := y.rawA, diffA := 0 }) s)) ∧
    (∀ broken, (getCh s ch.val).wbe = true → (getCh s ch.val).mode = 1 → (getCh s ch.val).broken = !broken →
      filterN (getCh s ch.val) ≤ (getCh s ch.val).breakCount → ∀ u,
      u = onCh ch.val (fun y => { y with broken := broken, breakCount := 0 }) s →
      Claims.Leaves (.wireBreak ch broken) s (if broken = true then logHw 0xC002 [b8 ch.val] u else u)) ∧
    ((getCh s ch.val).mode = 2 → (getCh s ch.val).outputFault = false → Claims.Leaves (.outputShutdown ch) s
      (setCause 7 (logHw 0xC003 [b8 ch.val] (onCh ch.val (fun x => { x with outputFault := true, applied := false }) s)))) ∧
    ((getCh s ch.val).readbackFault = false → 4 ≤ (getCh s ch.val).readbackCount → Claims.Leaves (.readbackFail ch) s
      (setCause 7 (logHw 0xC003 [b8 ch.val] (onCh ch.val (fun y => { y with readbackFault := true, readbackCount := 0 }) s)))) ∧
    (∀ i l x, s.fio.test = some (i, l, some (ch.val, x)) → s.fio.testHit = false → heldOff s ch.val = false → s.fio.command.getLsbD ch.val = true →
      Claims.Leaves (.testPulse ch true true false) s (testMark i 0 ch.val
        (onCh ch.val (fun y => { y with applied := true }) (onFio (fun f => { f with test := some (i, l, none) }) s))))) ∧
  (∀ (g : Fin 2) (cond : Fin 3) (s : State), dieUp s = true →
    ∀ x, x = (if g.val = 0 then s.fio.supplyA else s.fio.supplyB) → x.cond ≠ cond.val → supplyNext x = cond.val →
    cond.val ≠ 2 → Claims.Leaves (.fieldSupply g cond) s (settle (setCause 7 (logHw 0xC001 [b8 g.val, b8 cond.val]
      (writeInputSlots (onFio (fun f =>
        { f with testHit := f.testHit || g.val == 1
                 supplyA := if g.val = 0 then { f.supplyA with cond := cond.val } else f.supplyA
                 supplyB := if g.val = 0 then f.supplyB else { f.supplyB with cond := cond.val } }) s))))))

/-- The units of long operations (R127, R128, R195, R218, R221, R425, R475): a unit of an admitted MEM_TEST; a fuse bit that takes and
one that does not; the tracer's copy; PROGRAM_LOAD and CHANGE_STAGE, which check, wait for admission and then install. -/
def Obligations.OperationUnitsRun : Prop :=
  (∀ (i : Nat) (o : LongOp) (s : State), getOp s i = some o → o.done = false → o.suspended = false →
    (∀ ce fails, opsProceed s = true → opIndex s 0xB003 = some i → o.admitted = true → stopAsked s o = false →
      Claims.Leaves (.memTestUnit ce fails) s (testUnit i ce fails o s)) ∧
    (∀ n b r, opIndex s 0xA005 = some i → o.past = true → o.cancel ≠ some 0 → o.aux = n :: b :: r →
      Claims.Leaves (.fuseBit false) s (endOp i stIntegrity (fuseResult o s) s) ∧
      (r ≠ [] → Claims.Leaves (.fuseBit true) s
        (onOp i (fun _ => { o with aux := (n + 1) :: r, work := o.work + 1 }) (blowBit b s))))) ∧
  (∀ (a : Nat) (s : State), s.chg.traced.contains a = true → firmwareServes s = true → s.chg.window = none →
    Claims.Leaves (.tracerCopy a) s (carryTraced a (onChg (fun c => { c with traced := c.traced.filter (· != a) }) s))) ∧
  (∀ (time : Nat) (s u : State) (i : Nat) (o : LongOp), u = advance time s → firmwareServes s = true → getOp u i = some o →
    o.done = false → o.suspended = false → (o.past = true ∨ stopAsked u o = false) → o.cancel ≠ some 0 →
    u.dev.st ≠ .fault → u.dev.role ≠ .syncing →
    (loadIndex u = some i →
      (∀ st n, checkLoad u o.req = .inr (st, n) →
        Claims.Leaves (.programInstall time) s (endOp i st (leBytes 4 0 ++ leBytes 2 n) u)) ∧
      (∀ p, checkLoad u o.req = .inl p → o.admitted = false → Claims.Leaves (.programInstall time) s
        (onOp i (fun o => { o with work := o.total / 2 }) (onOp i (fun o => { o with waiting := true }) u))) ∧
      (∀ p, checkLoad u o.req = .inl p → o.admitted = true →
        (o.aux = [] → Claims.Leaves (.programInstall time) s
          (endOp i stOk (leBytes 4 p.gen ++ leBytes 2 (need (defaultPlan p)))
            (onOp i (fun o => { o with work := o.total }) (installProgram p (archiveProgramNow p u))))) ∧
        (∀ g l q, o.aux = g :: l → q = { p with gen := g } → Claims.Leaves (.programInstall time) s
          (endOp i stOk (leBytes 4 g ++ leBytes 2 (need (defaultPlan q)))
            (onOp i (fun o => { o with work := o.total }) (installProgram q u)))))) ∧
    (opIndex u 0x3001 = some i → s.chg.window = none → u.chg.staged = none →
      (∀ st n p, checkStage u o.req = .inr (st, n, p) → Claims.Leaves (.changeStageInstall time) s
        (endOp i st (leBytes 4 0 ++ leBytes 2 n ++ leBytes 2 p) u)) ∧
      (∀ b, checkStage u o.req = .inl b → forcedIn u (b.map.actions.map conflictRange) ≠ [] → bitOf (pByte o.req 25) 0 = false →
        Claims.Leaves (.changeStageInstall time) s (endOp i stForceConflict (List.replicate 8 0 ++
          leBytes 4 (forcedIn u (b.map.actions.map conflictRange)).length ++
          leBytes 4 ((forcedIn u (b.map.actions.map conflictRange)).head?.getD 0)) u)) ∧
      (∀ b v, checkStage u o.req = .inl b → forcedIn u (b.map.actions.map conflictRange) = [] →
        v = onChg (fun c => { c with busySlots := stageBusy b.map }) (dropForces [] u) →
        (o.admitted = false → Claims.Leaves (.changeStageInstall time) s
          (onOp i (fun o => { o with work := kib (stageImage o.req + stageMap o.req) }) (waitHere i v))) ∧
        (o.admitted = true → o.doomed = true ∨ effState v ≠ .run → Claims.Leaves (.changeStageInstall time) s
          (endOp i stAborted [] (archiveStaged b v))) ∧
        (∀ t, o.admitted = true → o.doomed = false → effState v = .run →
          t = onOp i (fun o => { o with work := o.total }) (installStaged b v) →
          (t.dev.role ≠ .primary → Claims.Leaves (.changeStageInstall time) s (stageDone i b t)) ∧
          (t.dev.role = .primary → hasStandby t = true → Claims.Leaves (.changeStageInstall time) s
            (sendSel (.bulk (.changeStage b.prog.keySlot b.prog.gen b.prog.image b.map.raw)) t)) ∧
          (t.dev.role = .primary → hasStandby t = false → Claims.Leaves (.changeStageInstall time) s (stageFails i t))))))
end

