-- ==== Sys2Proof/Laws/State.lean ====
section
/-! SUPPORT. What each update of one part of the state leaves in each part: one lemma per part and update. -/

namespace Sys2Proof.Machine

variable (s : State)

/-! onHost -/

@[simp] theorem onHost_host (g : HostIf → HostIf) : (onHost g s).host = g s.host := rfl
@[simp] theorem onHost_dev (g : HostIf → HostIf) : (onHost g s).dev = s.dev := rfl
@[simp] theorem onHost_img (g : HostIf → HostIf) : (onHost g s).img = s.img := rfl
@[simp] theorem onHost_chg (g : HostIf → HostIf) : (onHost g s).chg = s.chg := rfl
@[simp] theorem onHost_mem (g : HostIf → HostIf) : (onHost g s).mem = s.mem := rfl
@[simp] theorem onHost_scan (g : HostIf → HostIf) : (onHost g s).scan = s.scan := rfl
@[simp] theorem onHost_net (g : HostIf → HostIf) : (onHost g s).net = s.net := rfl
@[simp] theorem onHost_pair (g : HostIf → HostIf) : (onHost g s).pair = s.pair := rfl
@[simp] theorem onHost_energy (g : HostIf → HostIf) : (onHost g s).energy = s.energy := rfl
@[simp] theorem onHost_cal (g : HostIf → HostIf) : (onHost g s).cal = s.cal := rfl
@[simp] theorem onHost_integ (g : HostIf → HostIf) : (onHost g s).integ = s.integ := rfl
@[simp] theorem onHost_wdg (g : HostIf → HostIf) : (onHost g s).wdg = s.wdg := rfl
@[simp] theorem onHost_log (g : HostIf → HostIf) : (onHost g s).log = s.log := rfl
@[simp] theorem onHost_sec (g : HostIf → HostIf) : (onHost g s).sec = s.sec := rfl
@[simp] theorem onHost_fw (g : HostIf → HostIf) : (onHost g s).fw = s.fw := rfl
@[simp] theorem onHost_fio (g : HostIf → HostIf) : (onHost g s).fio = s.fio := rfl
@[simp] theorem onHost_regs (g : HostIf → HostIf) : (onHost g s).regs = s.regs := rfl
@[simp] theorem onHost_free (g : HostIf → HostIf) : (onHost g s).free = s.free := rfl
@[simp] theorem onHost_pending (g : HostIf → HostIf) : (onHost g s).pending = s.pending := rfl

/-! onDev -/

@[simp] theorem onDev_host (g : Device → Device) : (onDev g s).host = s.host := rfl
@[simp] theorem onDev_dev (g : Device → Device) : (onDev g s).dev = g s.dev := rfl
@[simp] theorem onDev_img (g : Device → Device) : (onDev g s).img = s.img := rfl
@[simp] theorem onDev_chg (g : Device → Device) : (onDev g s).chg = s.chg := rfl
@[simp] theorem onDev_mem (g : Device → Device) : (onDev g s).mem = s.mem := rfl
@[simp] theorem onDev_scan (g : Device → Device) : (onDev g s).scan = s.scan := rfl
@[simp] theorem onDev_net (g : Device → Device) : (onDev g s).net = s.net := rfl
@[simp] theorem onDev_pair (g : Device → Device) : (onDev g s).pair = s.pair := rfl
@[simp] theorem onDev_energy (g : Device → Device) : (onDev g s).energy = s.energy := rfl
@[simp] theorem onDev_cal (g : Device → Device) : (onDev g s).cal = s.cal := rfl
@[simp] theorem onDev_integ (g : Device → Device) : (onDev g s).integ = s.integ := rfl
@[simp] theorem onDev_wdg (g : Device → Device) : (onDev g s).wdg = s.wdg := rfl
@[simp] theorem onDev_log (g : Device → Device) : (onDev g s).log = s.log := rfl
@[simp] theorem onDev_sec (g : Device → Device) : (onDev g s).sec = s.sec := rfl
@[simp] theorem onDev_fw (g : Device → Device) : (onDev g s).fw = s.fw := rfl
@[simp] theorem onDev_fio (g : Device → Device) : (onDev g s).fio = s.fio := rfl
@[simp] theorem onDev_regs (g : Device → Device) : (onDev g s).regs = s.regs := rfl
@[simp] theorem onDev_free (g : Device → Device) : (onDev g s).free = s.free := rfl
@[simp] theorem onDev_pending (g : Device → Device) : (onDev g s).pending = s.pending := rfl

/-! onImg -/

@[simp] theorem onImg_host (g : Image → Image) : (onImg g s).host = s.host := rfl
@[simp] theorem onImg_dev (g : Image → Image) : (onImg g s).dev = s.dev := rfl
@[simp] theorem onImg_img (g : Image → Image) : (onImg g s).img = g s.img := rfl
@[simp] theorem onImg_chg (g : Image → Image) : (onImg g s).chg = s.chg := rfl
@[simp] theorem onImg_mem (g : Image → Image) : (onImg g s).mem = s.mem := rfl
@[simp] theorem onImg_scan (g : Image → Image) : (onImg g s).scan = s.scan := rfl
@[simp] theorem onImg_net (g : Image → Image) : (onImg g s).net = s.net := rfl
@[simp] theorem onImg_pair (g : Image → Image) : (onImg g s).pair = s.pair := rfl
@[simp] theorem onImg_energy (g : Image → Image) : (onImg g s).energy = s.energy := rfl
@[simp] theorem onImg_cal (g : Image → Image) : (onImg g s).cal = s.cal := rfl
@[simp] theorem onImg_integ (g : Image → Image) : (onImg g s).integ = s.integ := rfl
@[simp] theorem onImg_wdg (g : Image → Image) : (onImg g s).wdg = s.wdg := rfl
@[simp] theorem onImg_log (g : Image → Image) : (onImg g s).log = s.log := rfl
@[simp] theorem onImg_sec (g : Image → Image) : (onImg g s).sec = s.sec := rfl
@[simp] theorem onImg_fw (g : Image → Image) : (onImg g s).fw = s.fw := rfl
@[simp] theorem onImg_fio (g : Image → Image) : (onImg g s).fio = s.fio := rfl
@[simp] theorem onImg_regs (g : Image → Image) : (onImg g s).regs = s.regs := rfl
@[simp] theorem onImg_free (g : Image → Image) : (onImg g s).free = s.free := rfl
@[simp] theorem onImg_pending (g : Image → Image) : (onImg g s).pending = s.pending := rfl

/-! onChg -/

@[simp] theorem onChg_host (g : Change → Change) : (onChg g s).host = s.host := rfl
@[simp] theorem onChg_dev (g : Change → Change) : (onChg g s).dev = s.dev := rfl
@[simp] theorem onChg_img (g : Change → Change) : (onChg g s).img = s.img := rfl
@[simp] theorem onChg_chg (g : Change → Change) : (onChg g s).chg = g s.chg := rfl
@[simp] theorem onChg_mem (g : Change → Change) : (onChg g s).mem = s.mem := rfl
@[simp] theorem onChg_scan (g : Change → Change) : (onChg g s).scan = s.scan := rfl
@[simp] theorem onChg_net (g : Change → Change) : (onChg g s).net = s.net := rfl
@[simp] theorem onChg_pair (g : Change → Change) : (onChg g s).pair = s.pair := rfl
@[simp] theorem onChg_energy (g : Change → Change) : (onChg g s).energy = s.energy := rfl
@[simp] theorem onChg_cal (g : Change → Change) : (onChg g s).cal = s.cal := rfl
@[simp] theorem onChg_integ (g : Change → Change) : (onChg g s).integ = s.integ := rfl
@[simp] theorem onChg_wdg (g : Change → Change) : (onChg g s).wdg = s.wdg := rfl
@[simp] theorem onChg_log (g : Change → Change) : (onChg g s).log = s.log := rfl
@[simp] theorem onChg_sec (g : Change → Change) : (onChg g s).sec = s.sec := rfl
@[simp] theorem onChg_fw (g : Change → Change) : (onChg g s).fw = s.fw := rfl
@[simp] theorem onChg_fio (g : Change → Change) : (onChg g s).fio = s.fio := rfl
@[simp] theorem onChg_regs (g : Change → Change) : (onChg g s).regs = s.regs := rfl
@[simp] theorem onChg_free (g : Change → Change) : (onChg g s).free = s.free := rfl
@[simp] theorem onChg_pending (g : Change → Change) : (onChg g s).pending = s.pending := rfl

/-! onMem -/

@[simp] theorem onMem_host (g : Memory → Memory) : (onMem g s).host = s.host := rfl
@[simp] theorem onMem_dev (g : Memory → Memory) : (onMem g s).dev = s.dev := rfl
@[simp] theorem onMem_img (g : Memory → Memory) : (onMem g s).img = s.img := rfl
@[simp] theorem onMem_chg (g : Memory → Memory) : (onMem g s).chg = s.chg := rfl
@[simp] theorem onMem_mem (g : Memory → Memory) : (onMem g s).mem = g s.mem := rfl
@[simp] theorem onMem_scan (g : Memory → Memory) : (onMem g s).scan = s.scan := rfl
@[simp] theorem onMem_net (g : Memory → Memory) : (onMem g s).net = s.net := rfl
@[simp] theorem onMem_pair (g : Memory → Memory) : (onMem g s).pair = s.pair := rfl
@[simp] theorem onMem_energy (g : Memory → Memory) : (onMem g s).energy = s.energy := rfl
@[simp] theorem onMem_cal (g : Memory → Memory) : (onMem g s).cal = s.cal := rfl
@[simp] theorem onMem_integ (g : Memory → Memory) : (onMem g s).integ = s.integ := rfl
@[simp] theorem onMem_wdg (g : Memory → Memory) : (onMem g s).wdg = s.wdg := rfl
@[simp] theorem onMem_log (g : Memory → Memory) : (onMem g s).log = s.log := rfl
@[simp] theorem onMem_sec (g : Memory → Memory) : (onMem g s).sec = s.sec := rfl
@[simp] theorem onMem_fw (g : Memory → Memory) : (onMem g s).fw = s.fw := rfl
@[simp] theorem onMem_fio (g : Memory → Memory) : (onMem g s).fio = s.fio := rfl
@[simp] theorem onMem_regs (g : Memory → Memory) : (onMem g s).regs = s.regs := rfl
@[simp] theorem onMem_free (g : Memory → Memory) : (onMem g s).free = s.free := rfl
@[simp] theorem onMem_pending (g : Memory → Memory) : (onMem g s).pending = s.pending := rfl

/-! onScan -/

@[simp] theorem onScan_host (g : Scan → Scan) : (onScan g s).host = s.host := rfl
@[simp] theorem onScan_dev (g : Scan → Scan) : (onScan g s).dev = s.dev := rfl
@[simp] theorem onScan_img (g : Scan → Scan) : (onScan g s).img = s.img := rfl
@[simp] theorem onScan_chg (g : Scan → Scan) : (onScan g s).chg = s.chg := rfl
@[simp] theorem onScan_mem (g : Scan → Scan) : (onScan g s).mem = s.mem := rfl
@[simp] theorem onScan_scan (g : Scan → Scan) : (onScan g s).scan = g s.scan := rfl
@[simp] theorem onScan_net (g : Scan → Scan) : (onScan g s).net = s.net := rfl
@[simp] theorem onScan_pair (g : Scan → Scan) : (onScan g s).pair = s.pair := rfl
@[simp] theorem onScan_energy (g : Scan → Scan) : (onScan g s).energy = s.energy := rfl
@[simp] theorem onScan_cal (g : Scan → Scan) : (onScan g s).cal = s.cal := rfl
@[simp] theorem onScan_integ (g : Scan → Scan) : (onScan g s).integ = s.integ := rfl
@[simp] theorem onScan_wdg (g : Scan → Scan) : (onScan g s).wdg = s.wdg := rfl
@[simp] theorem onScan_log (g : Scan → Scan) : (onScan g s).log = s.log := rfl
@[simp] theorem onScan_sec (g : Scan → Scan) : (onScan g s).sec = s.sec := rfl
@[simp] theorem onScan_fw (g : Scan → Scan) : (onScan g s).fw = s.fw := rfl
@[simp] theorem onScan_fio (g : Scan → Scan) : (onScan g s).fio = s.fio := rfl
@[simp] theorem onScan_regs (g : Scan → Scan) : (onScan g s).regs = s.regs := rfl
@[simp] theorem onScan_free (g : Scan → Scan) : (onScan g s).free = s.free := rfl
@[simp] theorem onScan_pending (g : Scan → Scan) : (onScan g s).pending = s.pending := rfl

/-! onNet -/

@[simp] theorem onNet_host (g : Net → Net) : (onNet g s).host = s.host := rfl
@[simp] theorem onNet_dev (g : Net → Net) : (onNet g s).dev = s.dev := rfl
@[simp] theorem onNet_img (g : Net → Net) : (onNet g s).img = s.img := rfl
@[simp] theorem onNet_chg (g : Net → Net) : (onNet g s).chg = s.chg := rfl
@[simp] theorem onNet_mem (g : Net → Net) : (onNet g s).mem = s.mem := rfl
@[simp] theorem onNet_scan (g : Net → Net) : (onNet g s).scan = s.scan := rfl
@[simp] theorem onNet_net (g : Net → Net) : (onNet g s).net = g s.net := rfl
@[simp] theorem onNet_pair (g : Net → Net) : (onNet g s).pair = s.pair := rfl
@[simp] theorem onNet_energy (g : Net → Net) : (onNet g s).energy = s.energy := rfl
@[simp] theorem onNet_cal (g : Net → Net) : (onNet g s).cal = s.cal := rfl
@[simp] theorem onNet_integ (g : Net → Net) : (onNet g s).integ = s.integ := rfl
@[simp] theorem onNet_wdg (g : Net → Net) : (onNet g s).wdg = s.wdg := rfl
@[simp] theorem onNet_log (g : Net → Net) : (onNet g s).log = s.log := rfl
@[simp] theorem onNet_sec (g : Net → Net) : (onNet g s).sec = s.sec := rfl
@[simp] theorem onNet_fw (g : Net → Net) : (onNet g s).fw = s.fw := rfl
@[simp] theorem onNet_fio (g : Net → Net) : (onNet g s).fio = s.fio := rfl
@[simp] theorem onNet_regs (g : Net → Net) : (onNet g s).regs = s.regs := rfl
@[simp] theorem onNet_free (g : Net → Net) : (onNet g s).free = s.free := rfl
@[simp] theorem onNet_pending (g : Net → Net) : (onNet g s).pending = s.pending := rfl

/-! onPair -/

@[simp] theorem onPair_host (g : Pair → Pair) : (onPair g s).host = s.host := rfl
@[simp] theorem onPair_dev (g : Pair → Pair) : (onPair g s).dev = s.dev := rfl
@[simp] theorem onPair_img (g : Pair → Pair) : (onPair g s).img = s.img := rfl
@[simp] theorem onPair_chg (g : Pair → Pair) : (onPair g s).chg = s.chg := rfl
@[simp] theorem onPair_mem (g : Pair → Pair) : (onPair g s).mem = s.mem := rfl
@[simp] theorem onPair_scan (g : Pair → Pair) : (onPair g s).scan = s.scan := rfl
@[simp] theorem onPair_net (g : Pair → Pair) : (onPair g s).net = s.net := rfl
@[simp] theorem onPair_pair (g : Pair → Pair) : (onPair g s).pair = g s.pair := rfl
@[simp] theorem onPair_energy (g : Pair → Pair) : (onPair g s).energy = s.energy := rfl
@[simp] theorem onPair_cal (g : Pair → Pair) : (onPair g s).cal = s.cal := rfl
@[simp] theorem onPair_integ (g : Pair → Pair) : (onPair g s).integ = s.integ := rfl
@[simp] theorem onPair_wdg (g : Pair → Pair) : (onPair g s).wdg = s.wdg := rfl
@[simp] theorem onPair_log (g : Pair → Pair) : (onPair g s).log = s.log := rfl
@[simp] theorem onPair_sec (g : Pair → Pair) : (onPair g s).sec = s.sec := rfl
@[simp] theorem onPair_fw (g : Pair → Pair) : (onPair g s).fw = s.fw := rfl
@[simp] theorem onPair_fio (g : Pair → Pair) : (onPair g s).fio = s.fio := rfl
@[simp] theorem onPair_regs (g : Pair → Pair) : (onPair g s).regs = s.regs := rfl
@[simp] theorem onPair_free (g : Pair → Pair) : (onPair g s).free = s.free := rfl
@[simp] theorem onPair_pending (g : Pair → Pair) : (onPair g s).pending = s.pending := rfl

/-! onEnergy -/

@[simp] theorem onEnergy_host (g : Energy → Energy) : (onEnergy g s).host = s.host := rfl
@[simp] theorem onEnergy_dev (g : Energy → Energy) : (onEnergy g s).dev = s.dev := rfl
@[simp] theorem onEnergy_img (g : Energy → Energy) : (onEnergy g s).img = s.img := rfl
@[simp] theorem onEnergy_chg (g : Energy → Energy) : (onEnergy g s).chg = s.chg := rfl
@[simp] theorem onEnergy_mem (g : Energy → Energy) : (onEnergy g s).mem = s.mem := rfl
@[simp] theorem onEnergy_scan (g : Energy → Energy) : (onEnergy g s).scan = s.scan := rfl
@[simp] theorem onEnergy_net (g : Energy → Energy) : (onEnergy g s).net = s.net := rfl
@[simp] theorem onEnergy_pair (g : Energy → Energy) : (onEnergy g s).pair = s.pair := rfl
@[simp] theorem onEnergy_energy (g : Energy → Energy) : (onEnergy g s).energy = g s.energy := rfl
@[simp] theorem onEnergy_cal (g : Energy → Energy) : (onEnergy g s).cal = s.cal := rfl
@[simp] theorem onEnergy_integ (g : Energy → Energy) : (onEnergy g s).integ = s.integ := rfl
@[simp] theorem onEnergy_wdg (g : Energy → Energy) : (onEnergy g s).wdg = s.wdg := rfl
@[simp] theorem onEnergy_log (g : Energy → Energy) : (onEnergy g s).log = s.log := rfl
@[simp] theorem onEnergy_sec (g : Energy → Energy) : (onEnergy g s).sec = s.sec := rfl
@[simp] theorem onEnergy_fw (g : Energy → Energy) : (onEnergy g s).fw = s.fw := rfl
@[simp] theorem onEnergy_fio (g : Energy → Energy) : (onEnergy g s).fio = s.fio := rfl
@[simp] theorem onEnergy_regs (g : Energy → Energy) : (onEnergy g s).regs = s.regs := rfl
@[simp] theorem onEnergy_free (g : Energy → Energy) : (onEnergy g s).free = s.free := rfl
@[simp] theorem onEnergy_pending (g : Energy → Energy) : (onEnergy g s).pending = s.pending := rfl

/-! onCal -/

@[simp] theorem onCal_host (g : Calendar → Calendar) : (onCal g s).host = s.host := rfl
@[simp] theorem onCal_dev (g : Calendar → Calendar) : (onCal g s).dev = s.dev := rfl
@[simp] theorem onCal_img (g : Calendar → Calendar) : (onCal g s).img = s.img := rfl
@[simp] theorem onCal_chg (g : Calendar → Calendar) : (onCal g s).chg = s.chg := rfl
@[simp] theorem onCal_mem (g : Calendar → Calendar) : (onCal g s).mem = s.mem := rfl
@[simp] theorem onCal_scan (g : Calendar → Calendar) : (onCal g s).scan = s.scan := rfl
@[simp] theorem onCal_net (g : Calendar → Calendar) : (onCal g s).net = s.net := rfl
@[simp] theorem onCal_pair (g : Calendar → Calendar) : (onCal g s).pair = s.pair := rfl
@[simp] theorem onCal_energy (g : Calendar → Calendar) : (onCal g s).energy = s.energy := rfl
@[simp] theorem onCal_cal (g : Calendar → Calendar) : (onCal g s).cal = g s.cal := rfl
@[simp] theorem onCal_integ (g : Calendar → Calendar) : (onCal g s).integ = s.integ := rfl
@[simp] theorem onCal_wdg (g : Calendar → Calendar) : (onCal g s).wdg = s.wdg := rfl
@[simp] theorem onCal_log (g : Calendar → Calendar) : (onCal g s).log = s.log := rfl
@[simp] theorem onCal_sec (g : Calendar → Calendar) : (onCal g s).sec = s.sec := rfl
@[simp] theorem onCal_fw (g : Calendar → Calendar) : (onCal g s).fw = s.fw := rfl
@[simp] theorem onCal_fio (g : Calendar → Calendar) : (onCal g s).fio = s.fio := rfl
@[simp] theorem onCal_regs (g : Calendar → Calendar) : (onCal g s).regs = s.regs := rfl
@[simp] theorem onCal_free (g : Calendar → Calendar) : (onCal g s).free = s.free := rfl
@[simp] theorem onCal_pending (g : Calendar → Calendar) : (onCal g s).pending = s.pending := rfl

/-! onInteg -/

@[simp] theorem onInteg_host (g : Integrity → Integrity) : (onInteg g s).host = s.host := rfl
@[simp] theorem onInteg_dev (g : Integrity → Integrity) : (onInteg g s).dev = s.dev := rfl
@[simp] theorem onInteg_img (g : Integrity → Integrity) : (onInteg g s).img = s.img := rfl
@[simp] theorem onInteg_chg (g : Integrity → Integrity) : (onInteg g s).chg = s.chg := rfl
@[simp] theorem onInteg_mem (g : Integrity → Integrity) : (onInteg g s).mem = s.mem := rfl
@[simp] theorem onInteg_scan (g : Integrity → Integrity) : (onInteg g s).scan = s.scan := rfl
@[simp] theorem onInteg_net (g : Integrity → Integrity) : (onInteg g s).net = s.net := rfl
@[simp] theorem onInteg_pair (g : Integrity → Integrity) : (onInteg g s).pair = s.pair := rfl
@[simp] theorem onInteg_energy (g : Integrity → Integrity) : (onInteg g s).energy = s.energy := rfl
@[simp] theorem onInteg_cal (g : Integrity → Integrity) : (onInteg g s).cal = s.cal := rfl
@[simp] theorem onInteg_integ (g : Integrity → Integrity) : (onInteg g s).integ = g s.integ := rfl
@[simp] theorem onInteg_wdg (g : Integrity → Integrity) : (onInteg g s).wdg = s.wdg := rfl
@[simp] theorem onInteg_log (g : Integrity → Integrity) : (onInteg g s).log = s.log := rfl
@[simp] theorem onInteg_sec (g : Integrity → Integrity) : (onInteg g s).sec = s.sec := rfl
@[simp] theorem onInteg_fw (g : Integrity → Integrity) : (onInteg g s).fw = s.fw := rfl
@[simp] theorem onInteg_fio (g : Integrity → Integrity) : (onInteg g s).fio = s.fio := rfl
@[simp] theorem onInteg_regs (g : Integrity → Integrity) : (onInteg g s).regs = s.regs := rfl
@[simp] theorem onInteg_free (g : Integrity → Integrity) : (onInteg g s).free = s.free := rfl
@[simp] theorem onInteg_pending (g : Integrity → Integrity) : (onInteg g s).pending = s.pending := rfl

/-! onWdg -/

@[simp] theorem onWdg_host (g : Watchdogs → Watchdogs) : (onWdg g s).host = s.host := rfl
@[simp] theorem onWdg_dev (g : Watchdogs → Watchdogs) : (onWdg g s).dev = s.dev := rfl
@[simp] theorem onWdg_img (g : Watchdogs → Watchdogs) : (onWdg g s).img = s.img := rfl
@[simp] theorem onWdg_chg (g : Watchdogs → Watchdogs) : (onWdg g s).chg = s.chg := rfl
@[simp] theorem onWdg_mem (g : Watchdogs → Watchdogs) : (onWdg g s).mem = s.mem := rfl
@[simp] theorem onWdg_scan (g : Watchdogs → Watchdogs) : (onWdg g s).scan = s.scan := rfl
@[simp] theorem onWdg_net (g : Watchdogs → Watchdogs) : (onWdg g s).net = s.net := rfl
@[simp] theorem onWdg_pair (g : Watchdogs → Watchdogs) : (onWdg g s).pair = s.pair := rfl
@[simp] theorem onWdg_energy (g : Watchdogs → Watchdogs) : (onWdg g s).energy = s.energy := rfl
@[simp] theorem onWdg_cal (g : Watchdogs → Watchdogs) : (onWdg g s).cal = s.cal := rfl
@[simp] theorem onWdg_integ (g : Watchdogs → Watchdogs) : (onWdg g s).integ = s.integ := rfl
@[simp] theorem onWdg_wdg (g : Watchdogs → Watchdogs) : (onWdg g s).wdg = g s.wdg := rfl
@[simp] theorem onWdg_log (g : Watchdogs → Watchdogs) : (onWdg g s).log = s.log := rfl
@[simp] theorem onWdg_sec (g : Watchdogs → Watchdogs) : (onWdg g s).sec = s.sec := rfl
@[simp] theorem onWdg_fw (g : Watchdogs → Watchdogs) : (onWdg g s).fw = s.fw := rfl
@[simp] theorem onWdg_fio (g : Watchdogs → Watchdogs) : (onWdg g s).fio = s.fio := rfl
@[simp] theorem onWdg_regs (g : Watchdogs → Watchdogs) : (onWdg g s).regs = s.regs := rfl
@[simp] theorem onWdg_free (g : Watchdogs → Watchdogs) : (onWdg g s).free = s.free := rfl
@[simp] theorem onWdg_pending (g : Watchdogs → Watchdogs) : (onWdg g s).pending = s.pending := rfl

/-! onLog -/

@[simp] theorem onLog_host (g : Log → Log) : (onLog g s).host = s.host := rfl
@[simp] theorem onLog_dev (g : Log → Log) : (onLog g s).dev = s.dev := rfl
@[simp] theorem onLog_img (g : Log → Log) : (onLog g s).img = s.img := rfl
@[simp] theorem onLog_chg (g : Log → Log) : (onLog g s).chg = s.chg := rfl
@[simp] theorem onLog_mem (g : Log → Log) : (onLog g s).mem = s.mem := rfl
@[simp] theorem onLog_scan (g : Log → Log) : (onLog g s).scan = s.scan := rfl
@[simp] theorem onLog_net (g : Log → Log) : (onLog g s).net = s.net := rfl
@[simp] theorem onLog_pair (g : Log → Log) : (onLog g s).pair = s.pair := rfl
@[simp] theorem onLog_energy (g : Log → Log) : (onLog g s).energy = s.energy := rfl
@[simp] theorem onLog_cal (g : Log → Log) : (onLog g s).cal = s.cal := rfl
@[simp] theorem onLog_integ (g : Log → Log) : (onLog g s).integ = s.integ := rfl
@[simp] theorem onLog_wdg (g : Log → Log) : (onLog g s).wdg = s.wdg := rfl
@[simp] theorem onLog_log (g : Log → Log) : (onLog g s).log = g s.log := rfl
@[simp] theorem onLog_sec (g : Log → Log) : (onLog g s).sec = s.sec := rfl
@[simp] theorem onLog_fw (g : Log → Log) : (onLog g s).fw = s.fw := rfl
@[simp] theorem onLog_fio (g : Log → Log) : (onLog g s).fio = s.fio := rfl
@[simp] theorem onLog_regs (g : Log → Log) : (onLog g s).regs = s.regs := rfl
@[simp] theorem onLog_free (g : Log → Log) : (onLog g s).free = s.free := rfl
@[simp] theorem onLog_pending (g : Log → Log) : (onLog g s).pending = s.pending := rfl

/-! onSec -/

@[simp] theorem onSec_host (g : Security → Security) : (onSec g s).host = s.host := rfl
@[simp] theorem onSec_dev (g : Security → Security) : (onSec g s).dev = s.dev := rfl
@[simp] theorem onSec_img (g : Security → Security) : (onSec g s).img = s.img := rfl
@[simp] theorem onSec_chg (g : Security → Security) : (onSec g s).chg = s.chg := rfl
@[simp] theorem onSec_mem (g : Security → Security) : (onSec g s).mem = s.mem := rfl
@[simp] theorem onSec_scan (g : Security → Security) : (onSec g s).scan = s.scan := rfl
@[simp] theorem onSec_net (g : Security → Security) : (onSec g s).net = s.net := rfl
@[simp] theorem onSec_pair (g : Security → Security) : (onSec g s).pair = s.pair := rfl
@[simp] theorem onSec_energy (g : Security → Security) : (onSec g s).energy = s.energy := rfl
@[simp] theorem onSec_cal (g : Security → Security) : (onSec g s).cal = s.cal := rfl
@[simp] theorem onSec_integ (g : Security → Security) : (onSec g s).integ = s.integ := rfl
@[simp] theorem onSec_wdg (g : Security → Security) : (onSec g s).wdg = s.wdg := rfl
@[simp] theorem onSec_log (g : Security → Security) : (onSec g s).log = s.log := rfl
@[simp] theorem onSec_sec (g : Security → Security) : (onSec g s).sec = g s.sec := rfl
@[simp] theorem onSec_fw (g : Security → Security) : (onSec g s).fw = s.fw := rfl
@[simp] theorem onSec_fio (g : Security → Security) : (onSec g s).fio = s.fio := rfl
@[simp] theorem onSec_regs (g : Security → Security) : (onSec g s).regs = s.regs := rfl
@[simp] theorem onSec_free (g : Security → Security) : (onSec g s).free = s.free := rfl
@[simp] theorem onSec_pending (g : Security → Security) : (onSec g s).pending = s.pending := rfl

/-! onFw -/

@[simp] theorem onFw_host (g : Firmware → Firmware) : (onFw g s).host = s.host := rfl
@[simp] theorem onFw_dev (g : Firmware → Firmware) : (onFw g s).dev = s.dev := rfl
@[simp] theorem onFw_img (g : Firmware → Firmware) : (onFw g s).img = s.img := rfl
@[simp] theorem onFw_chg (g : Firmware → Firmware) : (onFw g s).chg = s.chg := rfl
@[simp] theorem onFw_mem (g : Firmware → Firmware) : (onFw g s).mem = s.mem := rfl
@[simp] theorem onFw_scan (g : Firmware → Firmware) : (onFw g s).scan = s.scan := rfl
@[simp] theorem onFw_net (g : Firmware → Firmware) : (onFw g s).net = s.net := rfl
@[simp] theorem onFw_pair (g : Firmware → Firmware) : (onFw g s).pair = s.pair := rfl
@[simp] theorem onFw_energy (g : Firmware → Firmware) : (onFw g s).energy = s.energy := rfl
@[simp] theorem onFw_cal (g : Firmware → Firmware) : (onFw g s).cal = s.cal := rfl
@[simp] theorem onFw_integ (g : Firmware → Firmware) : (onFw g s).integ = s.integ := rfl
@[simp] theorem onFw_wdg (g : Firmware → Firmware) : (onFw g s).wdg = s.wdg := rfl
@[simp] theorem onFw_log (g : Firmware → Firmware) : (onFw g s).log = s.log := rfl
@[simp] theorem onFw_sec (g : Firmware → Firmware) : (onFw g s).sec = s.sec := rfl
@[simp] theorem onFw_fw (g : Firmware → Firmware) : (onFw g s).fw = g s.fw := rfl
@[simp] theorem onFw_fio (g : Firmware → Firmware) : (onFw g s).fio = s.fio := rfl
@[simp] theorem onFw_regs (g : Firmware → Firmware) : (onFw g s).regs = s.regs := rfl
@[simp] theorem onFw_free (g : Firmware → Firmware) : (onFw g s).free = s.free := rfl
@[simp] theorem onFw_pending (g : Firmware → Firmware) : (onFw g s).pending = s.pending := rfl

/-! onFio -/

@[simp] theorem onFio_host (g : FieldIo → FieldIo) : (onFio g s).host = s.host := rfl
@[simp] theorem onFio_dev (g : FieldIo → FieldIo) : (onFio g s).dev = s.dev := rfl
@[simp] theorem onFio_img (g : FieldIo → FieldIo) : (onFio g s).img = s.img := rfl
@[simp] theorem onFio_chg (g : FieldIo → FieldIo) : (onFio g s).chg = s.chg := rfl
@[simp] theorem onFio_mem (g : FieldIo → FieldIo) : (onFio g s).mem = s.mem := rfl
@[simp] theorem onFio_scan (g : FieldIo → FieldIo) : (onFio g s).scan = s.scan := rfl
@[simp] theorem onFio_net (g : FieldIo → FieldIo) : (onFio g s).net = s.net := rfl
@[simp] theorem onFio_pair (g : FieldIo → FieldIo) : (onFio g s).pair = s.pair := rfl
@[simp] theorem onFio_energy (g : FieldIo → FieldIo) : (onFio g s).energy = s.energy := rfl
@[simp] theorem onFio_cal (g : FieldIo → FieldIo) : (onFio g s).cal = s.cal := rfl
@[simp] theorem onFio_integ (g : FieldIo → FieldIo) : (onFio g s).integ = s.integ := rfl
@[simp] theorem onFio_wdg (g : FieldIo → FieldIo) : (onFio g s).wdg = s.wdg := rfl
@[simp] theorem onFio_log (g : FieldIo → FieldIo) : (onFio g s).log = s.log := rfl
@[simp] theorem onFio_sec (g : FieldIo → FieldIo) : (onFio g s).sec = s.sec := rfl
@[simp] theorem onFio_fw (g : FieldIo → FieldIo) : (onFio g s).fw = s.fw := rfl
@[simp] theorem onFio_fio (g : FieldIo → FieldIo) : (onFio g s).fio = g s.fio := rfl
@[simp] theorem onFio_regs (g : FieldIo → FieldIo) : (onFio g s).regs = s.regs := rfl
@[simp] theorem onFio_free (g : FieldIo → FieldIo) : (onFio g s).free = s.free := rfl
@[simp] theorem onFio_pending (g : FieldIo → FieldIo) : (onFio g s).pending = s.pending := rfl

/-! onRegs -/

@[simp] theorem onRegs_host (g : Regs → Regs) : (onRegs g s).host = s.host := rfl
@[simp] theorem onRegs_dev (g : Regs → Regs) : (onRegs g s).dev = s.dev := rfl
@[simp] theorem onRegs_img (g : Regs → Regs) : (onRegs g s).img = s.img := rfl
@[simp] theorem onRegs_chg (g : Regs → Regs) : (onRegs g s).chg = s.chg := rfl
@[simp] theorem onRegs_mem (g : Regs → Regs) : (onRegs g s).mem = s.mem := rfl
@[simp] theorem onRegs_scan (g : Regs → Regs) : (onRegs g s).scan = s.scan := rfl
@[simp] theorem onRegs_net (g : Regs → Regs) : (onRegs g s).net = s.net := rfl
@[simp] theorem onRegs_pair (g : Regs → Regs) : (onRegs g s).pair = s.pair := rfl
@[simp] theorem onRegs_energy (g : Regs → Regs) : (onRegs g s).energy = s.energy := rfl
@[simp] theorem onRegs_cal (g : Regs → Regs) : (onRegs g s).cal = s.cal := rfl
@[simp] theorem onRegs_integ (g : Regs → Regs) : (onRegs g s).integ = s.integ := rfl
@[simp] theorem onRegs_wdg (g : Regs → Regs) : (onRegs g s).wdg = s.wdg := rfl
@[simp] theorem onRegs_log (g : Regs → Regs) : (onRegs g s).log = s.log := rfl
@[simp] theorem onRegs_sec (g : Regs → Regs) : (onRegs g s).sec = s.sec := rfl
@[simp] theorem onRegs_fw (g : Regs → Regs) : (onRegs g s).fw = s.fw := rfl
@[simp] theorem onRegs_fio (g : Regs → Regs) : (onRegs g s).fio = s.fio := rfl
@[simp] theorem onRegs_regs (g : Regs → Regs) : (onRegs g s).regs = g s.regs := rfl
@[simp] theorem onRegs_free (g : Regs → Regs) : (onRegs g s).free = s.free := rfl
@[simp] theorem onRegs_pending (g : Regs → Regs) : (onRegs g s).pending = s.pending := rfl

/-! advance, draw -/

@[simp] theorem advance_host (t : Nat) : (advance t s).host = s.host := rfl
@[simp] theorem advance_img (t : Nat) : (advance t s).img = s.img := rfl
@[simp] theorem advance_chg (t : Nat) : (advance t s).chg = s.chg := rfl
@[simp] theorem advance_mem (t : Nat) : (advance t s).mem = s.mem := rfl
@[simp] theorem advance_scan (t : Nat) : (advance t s).scan = s.scan := rfl
@[simp] theorem advance_net (t : Nat) : (advance t s).net = s.net := rfl
@[simp] theorem advance_pair (t : Nat) : (advance t s).pair = s.pair := rfl
@[simp] theorem advance_energy (t : Nat) : (advance t s).energy = s.energy := rfl
@[simp] theorem advance_cal (t : Nat) : (advance t s).cal = s.cal := rfl
@[simp] theorem advance_integ (t : Nat) : (advance t s).integ = s.integ := rfl
@[simp] theorem advance_wdg (t : Nat) : (advance t s).wdg = s.wdg := rfl
@[simp] theorem advance_log (t : Nat) : (advance t s).log = s.log := rfl
@[simp] theorem advance_sec (t : Nat) : (advance t s).sec = s.sec := rfl
@[simp] theorem advance_fw (t : Nat) : (advance t s).fw = s.fw := rfl
@[simp] theorem advance_fio (t : Nat) : (advance t s).fio = s.fio := rfl
@[simp] theorem advance_regs (t : Nat) : (advance t s).regs = s.regs := rfl
@[simp] theorem advance_free (t : Nat) : (advance t s).free = s.free := rfl
@[simp] theorem advance_pending (t : Nat) : (advance t s).pending = s.pending := rfl
@[simp] theorem advance_now (t : Nat) : (advance t s).dev.now = max s.dev.now t := rfl

@[simp] theorem draw_host (w : Nat) : (draw w s).2.host = s.host := rfl
@[simp] theorem draw_dev (w : Nat) : (draw w s).2.dev = s.dev := rfl
@[simp] theorem draw_img (w : Nat) : (draw w s).2.img = s.img := rfl
@[simp] theorem draw_chg (w : Nat) : (draw w s).2.chg = s.chg := rfl
@[simp] theorem draw_mem (w : Nat) : (draw w s).2.mem = s.mem := rfl
@[simp] theorem draw_scan (w : Nat) : (draw w s).2.scan = s.scan := rfl
@[simp] theorem draw_net (w : Nat) : (draw w s).2.net = s.net := rfl
@[simp] theorem draw_pair (w : Nat) : (draw w s).2.pair = s.pair := rfl
@[simp] theorem draw_energy (w : Nat) : (draw w s).2.energy = s.energy := rfl
@[simp] theorem draw_cal (w : Nat) : (draw w s).2.cal = s.cal := rfl
@[simp] theorem draw_integ (w : Nat) : (draw w s).2.integ = s.integ := rfl
@[simp] theorem draw_wdg (w : Nat) : (draw w s).2.wdg = s.wdg := rfl
@[simp] theorem draw_log (w : Nat) : (draw w s).2.log = s.log := rfl
@[simp] theorem draw_sec (w : Nat) : (draw w s).2.sec = s.sec := rfl
@[simp] theorem draw_fw (w : Nat) : (draw w s).2.fw = s.fw := rfl
@[simp] theorem draw_fio (w : Nat) : (draw w s).2.fio = s.fio := rfl
@[simp] theorem draw_regs (w : Nat) : (draw w s).2.regs = s.regs := rfl
@[simp] theorem draw_pending (w : Nat) : (draw w s).2.pending = s.pending := rfl
@[simp] theorem draw_free (w : Nat) : (draw w s).2.free = s.free + 1 := rfl

/-- A meaning leaves the queue of waiting commands as it was. -/
theorem finish_eq (t : State) : finish s t = .next { t with pending := s.pending } := rfl

end Sys2Proof.Machine
end

