-- ==== Sys2Proof/Laws/Command.lean ====
section
/-! SUPPORT. What serving a host command does: the effect and its answer when no check refuses it, and the answer of the check that
does. -/

namespace Sys2Proof.Machine

open Sys2Proof.Safety

/-- The steps of R45 up to authorization and the effect, when nothing refuses the request. -/
theorem runChecks_of_accepted (c : Cmd) (r : Request) (s : State) (h : accepted c r s = true) :
    runChecks c r (advance r.time s) = c.effect r (begins c r s) := by
  simp only [accepted, authorized, Bool.and_eq_true, Bool.or_eq_true, Option.isNone_iff_eq_none, Bool.not_eq_true'] at h
  obtain ⟨⟨-, he⟩, hl⟩ := h
  unfold runChecks
  rw [he]
  rcases hl with hu | ⟨ha, hj⟩
  · simp [hu, begins]
  · by_cases hu : urgentPath r.origin = true
    · simp [hu, begins]
    · have hu' : urgentPath r.origin = false := by simpa using hu
      by_cases hn : authNeeded c r (advance r.time s) = true
      · have ha' := ha.resolve_left (by simp [hn])
        simp only [hu', hn, begins, judged, Bool.not_false, Bool.and_true, if_true, Bool.false_eq_true, if_false] at hj ⊢
        simp only [runLate, hj, ha'.1, ha'.2, Bool.not_true, Bool.false_eq_true, if_false]
      · have hn' : authNeeded c r (advance r.time s) = false := by simpa using hn
        simp only [hu', hn', begins, judged, Bool.and_false, Bool.false_eq_true, if_false] at hj ⊢
        simp only [runLate, hj]

/-- A command that no check refuses has its effect and gives its answer. -/
theorem serve_of_accepted (c : Cmd) (r : Request) (s : State) (h : accepted c r s = true) :
    serve c r s = answer r (c.effect r (begins c r s)).1 (c.effect r (begins c r s)).2 := by
  have hr := runChecks_of_accepted c r s h
  simp only [accepted, pathTakes, Bool.and_eq_true, Bool.or_eq_true, Bool.not_eq_true', bne_iff_ne, beq_iff_eq,
    Option.isNone_iff_eq_none] at h
  obtain ⟨⟨⟨⟨⟨hs, hw⟩, hp⟩, hq⟩, -⟩, -⟩ := h
  unfold serve
  rw [if_neg, if_neg, if_neg]
  · simp only [hr]
  · simp only [Bool.and_eq_true, beq_iff_eq, bne_iff_ne, Bool.not_eq_true']
    rintro ⟨⟨h1, h2⟩, h3⟩
    rcases hq with (h | h) | h
    · exact h h1
    · exact h2 h
    · rw [h] at h3; exact absurd h3 (by decide)
  · simp only [Bool.and_eq_true, Bool.not_eq_true']
    rintro ⟨h1, h2⟩
    rcases hp with h | h
    · rw [h] at h1; exact absurd h1 (by decide)
    · rw [h] at h2; exact absurd h2 (by decide)
  · simp only [Bool.or_eq_true, Bool.and_eq_true, Bool.not_eq_true', bne_iff_ne]
    rintro (h | ⟨h1, h2⟩)
    · rw [hs] at h; exact absurd h (by decide)
    · rcases hw with h | h
      · rw [h] at h1; exact absurd h1 (by decide)
      · exact h2 h

/-- A command that a check of steps 2 to 5 refuses changes nothing but what its answer says, and an AUTH_FAILED writes its record. -/
theorem serve_of_refused (c : Cmd) (r : Request) (s : State) (a : Answer)
    (hp : pathTakes c r (advance r.time s) = true) (h : judgeEarly c r (advance r.time s) = some a) :
    serve c r s = answer r a
      (if a.status = stAuthFailed then recordAuthFailed (byteAt r.payload 11) c.op (advance r.time s) else advance r.time s) := by
  simp only [pathTakes, Bool.and_eq_true, Bool.or_eq_true, Bool.not_eq_true', bne_iff_ne, beq_iff_eq,
    Option.isNone_iff_eq_none] at hp
  obtain ⟨⟨⟨hs, hw⟩, hp⟩, hq⟩ := hp
  unfold serve
  rw [if_neg, if_neg, if_neg]
  · simp [runChecks, h]
  · simp only [Bool.and_eq_true, beq_iff_eq, bne_iff_ne, Bool.not_eq_true']
    rintro ⟨⟨h1, h2⟩, h3⟩
    rcases hq with (h | h) | h
    · exact h h1
    · exact h2 h
    · rw [h] at h3; exact absurd h3 (by decide)
  · simp only [Bool.and_eq_true, Bool.not_eq_true']
    rintro ⟨h1, h2⟩
    rcases hp with h | h
    · rw [h] at h1; exact absurd h1 (by decide)
    · rw [h] at h2; exact absurd h2 (by decide)
  · simp only [Bool.or_eq_true, Bool.and_eq_true, Bool.not_eq_true', bne_iff_ne]
    rintro (h | ⟨h1, h2⟩)
    · rw [hs] at h; exact absurd h (by decide)
    · rcases hw with h | h
      · rw [h] at h1; exact absurd h1 (by decide)
      · exact h2 h

/-- A refusal with another status changes nothing but what its answer says (R67). -/
theorem serve_of_plainly_refused (c : Cmd) (r : Request) (s : State) (a : Answer)
    (hp : pathTakes c r (advance r.time s) = true) (h : judgeEarly c r (advance r.time s) = some a) (ha : a.status ≠ stAuthFailed) :
    serve c r s = answer r a (advance r.time s) := by rw [serve_of_refused c r s a hp h, if_neg ha]

end Sys2Proof.Machine
end

