-- ==== Sys2Proof/Laws/Dispatch.lean ====
section
/-! SUPPORT. Each command runs its own meaning: one lemma per constructor, so that no proof unfolds the whole dispatch. -/

namespace Sys2Proof.Machine
@[simp] theorem exec_echo (r) (s : State) : exec (.echo r) s = execEcho r s := rfl
@[simp] theorem exec_getInfo (r) (s : State) : exec (.getInfo r) s = execGetInfo r s := rfl
@[simp] theorem exec_getState (r) (s : State) : exec (.getState r) s = execGetState r s := rfl
@[simp] theorem exec_handleQuery (r) (s : State) : exec (.handleQuery r) s = execHandleQuery r s := rfl
@[simp] theorem exec_handleRelease (r) (s : State) : exec (.handleRelease r) s = execHandleRelease r s := rfl
@[simp] theorem exec_handleCancel (r) (s : State) : exec (.handleCancel r) s = execHandleCancel r s := rfl
@[simp] theorem exec_resetDevice (r) (s : State) : exec (.resetDevice r) s = execResetDevice r s := rfl
@[simp] theorem exec_programLoad (r) (s : State) : exec (.programLoad r) s = execProgramLoad r s := rfl
@[simp] theorem exec_programStart (r) (s : State) : exec (.programStart r) s = execProgramStart r s := rfl
@[simp] theorem exec_stopProgram (r) (s : State) : exec (.stopProgram r) s = execStopProgram r s := rfl
@[simp] theorem exec_taskConfig (r) (s : State) : exec (.taskConfig r) s = execTaskConfig r s := rfl
@[simp] theorem exec_taskStatus (r) (s : State) : exec (.taskStatus r) s = execTaskStatus r s := rfl
@[simp] theorem exec_taskSuspend (r) (s : State) : exec (.taskSuspend r) s = execTaskSuspend r s := rfl
@[simp] theorem exec_taskResume (r) (s : State) : exec (.taskResume r) s = execTaskResume r s := rfl
@[simp] theorem exec_eventTrigger (r) (s : State) : exec (.eventTrigger r) s = execEventTrigger r s := rfl
@[simp] theorem exec_engineSplit (r) (s : State) : exec (.engineSplit r) s = execEngineSplit r s := rfl
@[simp] theorem exec_engineJoin (r) (s : State) : exec (.engineJoin r) s = execEngineJoin r s := rfl
@[simp] theorem exec_slotAlloc (r) (s : State) : exec (.slotAlloc r) s = execSlotAlloc r s := rfl
@[simp] theorem exec_slotFree (r) (s : State) : exec (.slotFree r) s = execSlotFree r s := rfl
@[simp] theorem exec_slotRead (r) (s : State) : exec (.slotRead r) s = execSlotRead r s := rfl
@[simp] theorem exec_slotWrite (r) (s : State) : exec (.slotWrite r) s = execSlotWrite r s := rfl
@[simp] theorem exec_forceSet (r) (s : State) : exec (.forceSet r) s = execForceSet r s := rfl
@[simp] theorem exec_forceClear (r) (s : State) : exec (.forceClear r) s = execForceClear r s := rfl
@[simp] theorem exec_forceList (r) (s : State) : exec (.forceList r) s = execForceList r s := rfl
@[simp] theorem exec_forceClearAll (r) (s : State) : exec (.forceClearAll r) s = execForceClearAll r s := rfl
@[simp] theorem exec_snapshotRead (r) (s : State) : exec (.snapshotRead r) s = execSnapshotRead r s := rfl
@[simp] theorem exec_changeStage (r) (s : State) : exec (.changeStage r) s = execChangeStage r s := rfl
@[simp] theorem exec_changeCommit (r) (s : State) : exec (.changeCommit r) s = execChangeCommit r s := rfl
@[simp] theorem exec_changeAbort (r) (s : State) : exec (.changeAbort r) s = execChangeAbort r s := rfl
@[simp] theorem exec_changeRevert (r) (s : State) : exec (.changeRevert r) s = execChangeRevert r s := rfl
@[simp] theorem exec_changeRelease (r) (s : State) : exec (.changeRelease r) s = execChangeRelease r s := rfl
@[simp] theorem exec_netConfig (r) (s : State) : exec (.netConfig r) s = execNetConfig r s := rfl
@[simp] theorem exec_netStart (r) (s : State) : exec (.netStart r) s = execNetStart r s := rfl
@[simp] theorem exec_netStop (r) (s : State) : exec (.netStop r) s = execNetStop r s := rfl
@[simp] theorem exec_stationHaltOutputs (r) (s : State) : exec (.stationHaltOutputs r) s = execStationHaltOutputs r s := rfl
@[simp] theorem exec_netHaltAllOutputs (r) (s : State) : exec (.netHaltAllOutputs r) s = execNetHaltAllOutputs r s := rfl
@[simp] theorem exec_stationAdmit (r) (s : State) : exec (.stationAdmit r) s = execStationAdmit r s := rfl
@[simp] theorem exec_stationConfigure (r) (s : State) : exec (.stationConfigure r) s = execStationConfigure r s := rfl
@[simp] theorem exec_stationFirmware (r) (s : State) : exec (.stationFirmware r) s = execStationFirmware r s := rfl
@[simp] theorem exec_stationDiag (r) (s : State) : exec (.stationDiag r) s = execStationDiag r s := rfl
@[simp] theorem exec_stationRelease (r) (s : State) : exec (.stationRelease r) s = execStationRelease r s := rfl
@[simp] theorem exec_pairConfig (r) (s : State) : exec (.pairConfig r) s = execPairConfig r s := rfl
@[simp] theorem exec_pairSync (r) (s : State) : exec (.pairSync r) s = execPairSync r s := rfl
@[simp] theorem exec_pairSwitchover (r) (s : State) : exec (.pairSwitchover r) s = execPairSwitchover r s := rfl
@[simp] theorem exec_pairLeave (r) (s : State) : exec (.pairLeave r) s = execPairLeave r s := rfl
@[simp] theorem exec_pairStatus (r) (s : State) : exec (.pairStatus r) s = execPairStatus r s := rfl
@[simp] theorem exec_timeSet (r) (s : State) : exec (.timeSet r) s = execTimeSet r s := rfl
@[simp] theorem exec_timeGet (r) (s : State) : exec (.timeGet r) s = execTimeGet r s := rfl
@[simp] theorem exec_timeShift (r) (s : State) : exec (.timeShift r) s = execTimeShift r s := rfl
@[simp] theorem exec_alarmSet (r) (s : State) : exec (.alarmSet r) s = execAlarmSet r s := rfl
@[simp] theorem exec_trimCurveSet (r) (s : State) : exec (.trimCurveSet r) s = execTrimCurveSet r s := rfl
@[simp] theorem exec_ptpConfig (r) (s : State) : exec (.ptpConfig r) s = execPtpConfig r s := rfl
@[simp] theorem exec_logRead (r) (s : State) : exec (.logRead r) s = execLogRead r s := rfl
@[simp] theorem exec_logExport (r) (s : State) : exec (.logExport r) s = execLogExport r s := rfl
@[simp] theorem exec_logClear (r) (s : State) : exec (.logClear r) s = execLogClear r s := rfl
@[simp] theorem exec_logMark (r) (s : State) : exec (.logMark r) s = execLogMark r s := rfl
@[simp] theorem exec_fwBegin (r) (s : State) : exec (.fwBegin r) s = execFwBegin r s := rfl
@[simp] theorem exec_fwData (r) (s : State) : exec (.fwData r) s = execFwData r s := rfl
@[simp] theorem exec_fwFinish (r) (s : State) : exec (.fwFinish r) s = execFwFinish r s := rfl
@[simp] theorem exec_fwActivate (r) (s : State) : exec (.fwActivate r) s = execFwActivate r s := rfl
@[simp] theorem exec_fwStatus (r) (s : State) : exec (.fwStatus r) s = execFwStatus r s := rfl
@[simp] theorem exec_fwRevert (r) (s : State) : exec (.fwRevert r) s = execFwRevert r s := rfl
@[simp] theorem exec_energyStatus (r) (s : State) : exec (.energyStatus r) s = execEnergyStatus r s := rfl
@[simp] theorem exec_powerCapSet (r) (s : State) : exec (.powerCapSet r) s = execPowerCapSet r s := rfl
@[simp] theorem exec_holdupConfig (r) (s : State) : exec (.holdupConfig r) s = execHoldupConfig r s := rfl
@[simp] theorem exec_cellConfig (r) (s : State) : exec (.cellConfig r) s = execCellConfig r s := rfl
@[simp] theorem exec_authNonce (r) (random) (s : State) : exec (.authNonce r random) s = execAuthNonce r random s := rfl
@[simp] theorem exec_debugUnlock (r) (s : State) : exec (.debugUnlock r) s = execDebugUnlock r s := rfl
@[simp] theorem exec_fuseRead (r) (s : State) : exec (.fuseRead r) s = execFuseRead r s := rfl
@[simp] theorem exec_fuseProgram (r) (s : State) : exec (.fuseProgram r) s = execFuseProgram r s := rfl
@[simp] theorem exec_keyRevoke (r) (s : State) : exec (.keyRevoke r) s = execKeyRevoke r s := rfl
@[simp] theorem exec_memFill (r) (s : State) : exec (.memFill r) s = execMemFill r s := rfl
@[simp] theorem exec_scrubConfig (r) (s : State) : exec (.scrubConfig r) s = execScrubConfig r s := rfl
@[simp] theorem exec_memTest (r) (s : State) : exec (.memTest r) s = execMemTest r s := rfl
@[simp] theorem exec_errStatus (r) (s : State) : exec (.errStatus r) s = execErrStatus r s := rfl
@[simp] theorem exec_fioConfig (r) (s : State) : exec (.fioConfig r) s = execFioConfig r s := rfl
@[simp] theorem exec_fioStatus (r) (s : State) : exec (.fioStatus r) s = execFioStatus r s := rfl
@[simp] theorem exec_fioTestPulse (r) (s : State) : exec (.fioTestPulse r) s = execFioTestPulse r s := rfl
@[simp] theorem exec_wdgConfig (r) (s : State) : exec (.wdgConfig r) s = execWdgConfig r s := rfl
@[simp] theorem exec_wdgEvidence (r) (s : State) : exec (.wdgEvidence r) s = execWdgEvidence r s := rfl
@[simp] theorem exec_add (e) (f) (s : State) : exec (.add e f) s = execAdd e f s := rfl
@[simp] theorem exec_sub (e) (f) (s : State) : exec (.sub e f) s = execSub e f s := rfl
@[simp] theorem exec_mul (e) (f) (s : State) : exec (.mul e f) s = execMul e f s := rfl
@[simp] theorem exec_div (e) (f) (s : State) : exec (.div e f) s = execDiv e f s := rfl
@[simp] theorem exec_mod (e) (f) (s : State) : exec (.mod e f) s = execMod e f s := rfl
@[simp] theorem exec_neg (e) (f) (s : State) : exec (.neg e f) s = execNeg e f s := rfl
@[simp] theorem exec_abs (e) (f) (s : State) : exec (.abs e f) s = execAbs e f s := rfl
@[simp] theorem exec_min (e) (f) (s : State) : exec (.min e f) s = execMin e f s := rfl
@[simp] theorem exec_max (e) (f) (s : State) : exec (.max e f) s = execMax e f s := rfl
@[simp] theorem exec_lim (e) (f) (s : State) : exec (.lim e f) s = execLim e f s := rfl
@[simp] theorem exec_addi (e) (f) (s : State) : exec (.addi e f) s = execAddi e f s := rfl
@[simp] theorem exec_muli (e) (f) (s : State) : exec (.muli e f) s = execMuli e f s := rfl
@[simp] theorem exec_sqrt (e) (f) (s : State) : exec (.sqrt e f) s = execSqrt e f s := rfl
@[simp] theorem exec_ln (e) (f) (s : State) : exec (.ln e f) s = execLn e f s := rfl
@[simp] theorem exec_exp (e) (f) (s : State) : exec (.exp e f) s = execExp e f s := rfl
@[simp] theorem exec_sin (e) (f) (s : State) : exec (.sin e f) s = execSin e f s := rfl
@[simp] theorem exec_cos (e) (f) (s : State) : exec (.cos e f) s = execCos e f s := rfl
@[simp] theorem exec_atan2 (e) (f) (s : State) : exec (.atan2 e f) s = execAtan2 e f s := rfl
@[simp] theorem exec_eq (e) (f) (s : State) : exec (.eq e f) s = execEq e f s := rfl
@[simp] theorem exec_ne (e) (f) (s : State) : exec (.ne e f) s = execNe e f s := rfl
@[simp] theorem exec_lt (e) (f) (s : State) : exec (.lt e f) s = execLt e f s := rfl
@[simp] theorem exec_le (e) (f) (s : State) : exec (.le e f) s = execLe e f s := rfl
@[simp] theorem exec_gt (e) (f) (s : State) : exec (.gt e f) s = execGt e f s := rfl
@[simp] theorem exec_ge (e) (f) (s : State) : exec (.ge e f) s = execGe e f s := rfl
@[simp] theorem exec_unord (e) (f) (s : State) : exec (.unord e f) s = execUnord e f s := rfl
@[simp] theorem exec_ceqi (e) (f) (s : State) : exec (.ceqi e f) s = execCeqi e f s := rfl
@[simp] theorem exec_clti (e) (f) (s : State) : exec (.clti e f) s = execClti e f s := rfl
@[simp] theorem exec_cgti (e) (f) (s : State) : exec (.cgti e f) s = execCgti e f s := rfl
@[simp] theorem exec_and (e) (f) (s : State) : exec (.and e f) s = execAnd e f s := rfl
@[simp] theorem exec_or (e) (f) (s : State) : exec (.or e f) s = execOr e f s := rfl
@[simp] theorem exec_xor (e) (f) (s : State) : exec (.xor e f) s = execXor e f s := rfl
@[simp] theorem exec_not (e) (f) (s : State) : exec (.not e f) s = execNot e f s := rfl
@[simp] theorem exec_andn (e) (f) (s : State) : exec (.andn e f) s = execAndn e f s := rfl
@[simp] theorem exec_shl (e) (f) (s : State) : exec (.shl e f) s = execShl e f s := rfl
@[simp] theorem exec_shr (e) (f) (s : State) : exec (.shr e f) s = execShr e f s := rfl
@[simp] theorem exec_sar (e) (f) (s : State) : exec (.sar e f) s = execSar e f s := rfl
@[simp] theorem exec_rol (e) (f) (s : State) : exec (.rol e f) s = execRol e f s := rfl
@[simp] theorem exec_ror (e) (f) (s : State) : exec (.ror e f) s = execRor e f s := rfl
@[simp] theorem exec_popc (e) (f) (s : State) : exec (.popc e f) s = execPopc e f s := rfl
@[simp] theorem exec_clz (e) (f) (s : State) : exec (.clz e f) s = execClz e f s := rfl
@[simp] theorem exec_andi (e) (f) (s : State) : exec (.andi e f) s = execAndi e f s := rfl
@[simp] theorem exec_ori (e) (f) (s : State) : exec (.ori e f) s = execOri e f s := rfl
@[simp] theorem exec_xori (e) (f) (s : State) : exec (.xori e f) s = execXori e f s := rfl
@[simp] theorem exec_btst (e) (f) (s : State) : exec (.btst e f) s = execBtst e f s := rfl
@[simp] theorem exec_bset (e) (f) (s : State) : exec (.bset e f) s = execBset e f s := rfl
@[simp] theorem exec_bclr (e) (f) (s : State) : exec (.bclr e f) s = execBclr e f s := rfl
@[simp] theorem exec_bput (e) (f) (s : State) : exec (.bput e f) s = execBput e f s := rfl
@[simp] theorem exec_mov (e) (f) (s : State) : exec (.mov e f) s = execMov e f s := rfl
@[simp] theorem exec_sel (e) (f) (s : State) : exec (.sel e f) s = execSel e f s := rfl
@[simp] theorem exec_ldi (e) (f) (s : State) : exec (.ldi e f) s = execLdi e f s := rfl
@[simp] theorem exec_lui (e) (f) (s : State) : exec (.lui e f) s = execLui e f s := rfl
@[simp] theorem exec_ldd (e) (f) (s : State) : exec (.ldd e f) s = execLdd e f s := rfl
@[simp] theorem exec_typeof (e) (f) (s : State) : exec (.typeof e f) s = execTypeof e f s := rfl
@[simp] theorem exec_qualof (e) (f) (s : State) : exec (.qualof e f) s = execQualof e f s := rfl
@[simp] theorem exec_isgood (e) (f) (s : State) : exec (.isgood e f) s = execIsgood e f s := rfl
@[simp] theorem exec_flags (e) (f) (s : State) : exec (.flags e f) s = execFlags e f s := rfl
@[simp] theorem exec_isempty (e) (f) (s : State) : exec (.isempty e f) s = execIsempty e f s := rfl
@[simp] theorem exec_qset (e) (f) (s : State) : exec (.qset e f) s = execQset e f s := rfl
@[simp] theorem exec_qworse (e) (f) (s : State) : exec (.qworse e f) s = execQworse e f s := rfl
@[simp] theorem exec_subst (e) (f) (s : State) : exec (.subst e f) s = execSubst e f s := rfl
@[simp] theorem exec_cvt (e) (fn) (f) (s : State) : exec (.cvt e fn f) s = execCvt e fn f s := rfl
@[simp] theorem exec_raws (e) (f) (s : State) : exec (.raws e f) s = execRaws e f s := rfl
@[simp] theorem exec_rawu (e) (f) (s : State) : exec (.rawu e f) s = execRawu e f s := rfl
@[simp] theorem exec_sflg (e) (f) (s : State) : exec (.sflg e f) s = execSflg e f s := rfl
@[simp] theorem exec_scale (e) (f) (s : State) : exec (.scale e f) s = execScale e f s := rfl
@[simp] theorem exec_ld (e) (f) (s : State) : exec (.ld e f) s = execLd e f s := rfl
@[simp] theorem exec_st (e) (f) (s : State) : exec (.st e f) s = execSt e f s := rfl
@[simp] theorem exec_ldsA (e) (f) (s : State) : exec (.ldsA e f) s = execLdsA e f s := rfl
@[simp] theorem exec_stsA (e) (f) (s : State) : exec (.stsA e f) s = execStsA e f s := rfl
@[simp] theorem exec_lds (e) (f) (s : State) : exec (.lds e f) s = execLds e f s := rfl
@[simp] theorem exec_sts (e) (f) (s : State) : exec (.sts e f) s = execSts e f s := rfl
@[simp] theorem exec_ldsx (e) (f) (s : State) : exec (.ldsx e f) s = execLdsx e f s := rfl
@[simp] theorem exec_stsx (e) (f) (s : State) : exec (.stsx e f) s = execStsx e f s := rfl
@[simp] theorem exec_sdesc (e) (f) (s : State) : exec (.sdesc e f) s = execSdesc e f s := rfl
@[simp] theorem exec_br (e) (f) (s : State) : exec (.br e f) s = execBr e f s := rfl
@[simp] theorem exec_bt (e) (f) (s : State) : exec (.bt e f) s = execBt e f s := rfl
@[simp] theorem exec_bf (e) (f) (s : State) : exec (.bf e f) s = execBf e f s := rfl
@[simp] theorem exec_call (e) (f) (s : State) : exec (.call e f) s = execCall e f s := rfl
@[simp] theorem exec_be (e) (f) (s : State) : exec (.be e f) s = execBe e f s := rfl
@[simp] theorem exec_jr (e) (f) (s : State) : exec (.jr e f) s = execJr e f s := rfl
@[simp] theorem exec_callr (e) (f) (s : State) : exec (.callr e f) s = execCallr e f s := rfl
@[simp] theorem exec_ret (e) (f) (s : State) : exec (.ret e f) s = execRet e f s := rfl
@[simp] theorem exec_ton (e) (f) (s : State) : exec (.ton e f) s = execTon e f s := rfl
@[simp] theorem exec_tof (e) (f) (s : State) : exec (.tof e f) s = execTof e f s := rfl
@[simp] theorem exec_tp (e) (f) (s : State) : exec (.tp e f) s = execTp e f s := rfl
@[simp] theorem exec_ctu (e) (f) (s : State) : exec (.ctu e f) s = execCtu e f s := rfl
@[simp] theorem exec_ctd (e) (f) (s : State) : exec (.ctd e f) s = execCtd e f s := rfl
@[simp] theorem exec_crst (e) (f) (s : State) : exec (.crst e f) s = execCrst e f s := rfl
@[simp] theorem exec_cld (e) (f) (s : State) : exec (.cld e f) s = execCld e f s := rfl
@[simp] theorem exec_tmstart (e) (f) (s : State) : exec (.tmstart e f) s = execTmstart e f s := rfl
@[simp] theorem exec_tmstop (e) (f) (s : State) : exec (.tmstop e f) s = execTmstop e f s := rfl
@[simp] theorem exec_tbread (e) (f) (s : State) : exec (.tbread e f) s = execTbread e f s := rfl
@[simp] theorem exec_tbtick (e) (f) (s : State) : exec (.tbtick e f) s = execTbtick e f s := rfl
@[simp] theorem exec_rtct (e) (f) (s : State) : exec (.rtct e f) s = execRtct e f s := rfl
@[simp] theorem exec_rtcd (e) (f) (s : State) : exec (.rtcd e f) s = execRtcd e f s := rfl
@[simp] theorem exec_lin (e) (f) (s : State) : exec (.lin e f) s = execLin e f s := rfl
@[simp] theorem exec_raise (e) (f) (s : State) : exec (.raise e f) s = execRaise e f s := rfl
@[simp] theorem exec_raiser (e) (f) (s : State) : exec (.raiser e f) s = execRaiser e f s := rfl
@[simp] theorem exec_logev (e) (f) (s : State) : exec (.logev e f) s = execLogev e f s := rfl
@[simp] theorem exec_ldls (e) (f) (s : State) : exec (.ldls e f) s = execLdls e f s := rfl
@[simp] theorem exec_stlq (e) (f) (s : State) : exec (.stlq e f) s = execStlq e f s := rfl
@[simp] theorem exec_lbtst (e) (f) (s : State) : exec (.lbtst e f) s = execLbtst e f s := rfl
@[simp] theorem exec_lbput (e) (f) (s : State) : exec (.lbput e f) s = execLbput e f s := rfl
@[simp] theorem exec_lbputq (e) (f) (s : State) : exec (.lbputq e f) s = execLbputq e f s := rfl
@[simp] theorem exec_lgon (e) (f) (s : State) : exec (.lgon e f) s = execLgon e f s := rfl
@[simp] theorem exec_lgoff (e) (f) (s : State) : exec (.lgoff e f) s = execLgoff e f s := rfl
@[simp] theorem exec_lgcry (e) (f) (s : State) : exec (.lgcry e f) s = execLgcry e f s := rfl
@[simp] theorem exec_lgclr (e) (f) (s : State) : exec (.lgclr e f) s = execLgclr e f s := rfl
@[simp] theorem exec_nop (e) (f) (s : State) : exec (.nop e f) s = execNop e f s := rfl
@[simp] theorem exec_endAct (e) (f) (s : State) : exec (.endAct e f) s = execEndAct e f s := rfl
@[simp] theorem exec_trap (e) (f) (s : State) : exec (.trap e f) s = execTrap e f s := rfl
@[simp] theorem exec_rdstat (e) (f) (s : State) : exec (.rdstat e f) s = execRdstat e f s := rfl
@[simp] theorem exec_wrstat (e) (f) (s : State) : exec (.wrstat e f) s = execWrstat e f s := rfl
@[simp] theorem exec_rdfeat (e) (f) (s : State) : exec (.rdfeat e f) s = execRdfeat e f s := rfl
@[simp] theorem exec_trapi (e) (f) (s : State) : exec (.trapi e f) s = execTrapi e f s := rfl
@[simp] theorem exec_cMov (e) (f) (s : State) : exec (.cMov e f) s = execCMov e f s := rfl
@[simp] theorem exec_cAdd (e) (f) (s : State) : exec (.cAdd e f) s = execCAdd e f s := rfl
@[simp] theorem exec_cSub (e) (f) (s : State) : exec (.cSub e f) s = execCSub e f s := rfl
@[simp] theorem exec_cAnd (e) (f) (s : State) : exec (.cAnd e f) s = execCAnd e f s := rfl
@[simp] theorem exec_cOr (e) (f) (s : State) : exec (.cOr e f) s = execCOr e f s := rfl
@[simp] theorem exec_cAddi (e) (f) (s : State) : exec (.cAddi e f) s = execCAddi e f s := rfl
@[simp] theorem exec_cLdk (e) (f) (s : State) : exec (.cLdk e f) s = execCLdk e f s := rfl
@[simp] theorem exec_cLdl (e) (f) (s : State) : exec (.cLdl e f) s = execCLdl e f s := rfl
@[simp] theorem exec_cStl (e) (f) (s : State) : exec (.cStl e f) s = execCStl e f s := rfl
@[simp] theorem exec_cLds (e) (f) (s : State) : exec (.cLds e f) s = execCLds e f s := rfl
@[simp] theorem exec_cSts (e) (f) (s : State) : exec (.cSts e f) s = execCSts e f s := rfl
@[simp] theorem exec_cBr (e) (disp) (s : State) : exec (.cBr e disp) s = execCBr e disp s := rfl
@[simp] theorem exec_cBt (e) (f) (s : State) : exec (.cBt e f) s = execCBt e f s := rfl
@[simp] theorem exec_cBf (e) (f) (s : State) : exec (.cBf e f) s = execCBf e f s := rfl
@[simp] theorem exec_cSysNop (e) (low) (s : State) : exec (.cSysNop e low) s = execCSysNop e low s := rfl
@[simp] theorem exec_cSysRet (e) (low) (s : State) : exec (.cSysRet e low) s = execCSysRet e low s := rfl
@[simp] theorem exec_cSysEnd (e) (low) (s : State) : exec (.cSysEnd e low) s = execCSysEnd e low s := rfl
@[simp] theorem exec_cSysTrap (e) (low) (s : State) : exec (.cSysTrap e low) s = execCSysTrap e low s := rfl
@[simp] theorem exec_ringCqEnable (n) (ctrl) (s : State) : exec (.ringCqEnable n ctrl) s = execRingCqEnable n ctrl s := rfl
@[simp] theorem exec_ringCqDisable (n) (ctrl) (s : State) : exec (.ringCqDisable n ctrl) s = execRingCqDisable n ctrl s := rfl
@[simp] theorem exec_ringKqEnable (n) (ctrl) (s : State) : exec (.ringKqEnable n ctrl) s = execRingKqEnable n ctrl s := rfl
@[simp] theorem exec_ringKqDisable (n) (ctrl) (s : State) : exec (.ringKqDisable n ctrl) s = execRingKqDisable n ctrl s := rfl
@[simp] theorem exec_ringCqPi (n) (v) (s : State) : exec (.ringCqPi n v) s = execRingCqPi n v s := rfl
@[simp] theorem exec_descriptorTake (n) (rd) (s : State) : exec (.descriptorTake n rd) s = execDescriptorTake n rd s := rfl
@[simp] theorem exec_cq0DescriptorTake (rd) (s : State) : exec (.cq0DescriptorTake rd) s = execCq0DescriptorTake rd s := rfl
@[simp] theorem exec_ringKqHead (n) (v) (s : State) : exec (.ringKqHead n v) s = execRingKqHead n v s := rfl
@[simp] theorem exec_arm (n) (v) (s : State) : exec (.arm n v) s = execArm n v s := rfl
@[simp] theorem exec_completionInterrupt (n) (waitedUs) (s : State) : exec (.completionInterrupt n waitedUs) s = execCompletionInterrupt n waitedUs s := rfl
@[simp] theorem exec_finalCompletion (idx) (time) (io) (s : State) : exec (.finalCompletion idx time io) s = execFinalCompletion idx time io s := rfl
@[simp] theorem exec_wdgService (v) (s : State) : exec (.wdgService v) s = execWdgService v s := rfl
@[simp] theorem exec_wdgServiceCapture (c) (s : State) : exec (.wdgServiceCapture c) s = execWdgServiceCapture c s := rfl
@[simp] theorem exec_hostWatchdogExpiry (c) (s : State) : exec (.hostWatchdogExpiry c) s = execHostWatchdogExpiry c s := rfl
@[simp] theorem exec_statDualFaultClear (v) (s : State) : exec (.statDualFaultClear v) s = execStatDualFaultClear v s := rfl
@[simp] theorem exec_statCalAlarmClear (v) (s : State) : exec (.statCalAlarmClear v) s = execStatCalAlarmClear v s := rfl
@[simp] theorem exec_errBucketClear (v) (s : State) : exec (.errBucketClear v) s = execErrBucketClear v s := rfl
@[simp] theorem exec_intCauseClear (v) (s : State) : exec (.intCauseClear v) s = execIntCauseClear v s := rfl
@[simp] theorem exec_intCtrl (v) (s : State) : exec (.intCtrl v) s = execIntCtrl v s := rfl
@[simp] theorem exec_intMask (v) (s : State) : exec (.intMask v) s = execIntMask v s := rfl
@[simp] theorem exec_msixTableWrite (off) (v) (s : State) : exec (.msixTableWrite off v) s = execMsixTableWrite off v s := rfl
@[simp] theorem exec_statLogSeqRead (s : State) : exec .statLogSeqRead s = execStatLogSeqRead s := rfl
@[simp] theorem exec_sysTickLoRead (s : State) : exec .sysTickLoRead s = execSysTickLoRead s := rfl
@[simp] theorem exec_sysOptimeLoRead (s : State) : exec .sysOptimeLoRead s = execSysOptimeLoRead s := rfl
@[simp] theorem exec_registerWrite (off) (size) (v) (s : State) : exec (.registerWrite off size v) s = execRegisterWrite off size v s := rfl
@[simp] theorem exec_hostInterfaceReset (s : State) : exec .hostInterfaceReset s = execHostInterfaceReset s := rfl
@[simp] theorem exec_dbgChallenge (random) (s : State) : exec (.dbgChallenge random) s = execDbgChallenge random s := rfl
@[simp] theorem exec_dbgResponse (dr) (s : State) : exec (.dbgResponse dr) s = execDbgResponse dr s := rfl
@[simp] theorem exec_dbgAccessRead (space) (addr) (s : State) : exec (.dbgAccessRead space addr) s = execDbgAccessRead space addr s := rfl
@[simp] theorem exec_dbgAccessWrite (space) (addr) (data) (s : State) : exec (.dbgAccessWrite space addr data) s = execDbgAccessWrite space addr data s := rfl
@[simp] theorem exec_dbgAccessControl (space) (addr) (data) (s : State) : exec (.dbgAccessControl space addr data) s = execDbgAccessControl space addr data s := rfl
@[simp] theorem exec_extest (enter) (s : State) : exec (.extest enter) s = execExtest enter s := rfl
@[simp] theorem exec_tapReset (s : State) : exec .tapReset s = execTapReset s := rfl
@[simp] theorem exec_uartRateFrame (code) (s : State) : exec (.uartRateFrame code) s = execUartRateFrame code s := rfl
@[simp] theorem exec_uartRateTimeout (s : State) : exec .uartRateTimeout s = execUartRateTimeout s := rfl
@[simp] theorem exec_vaonRise (s : State) : exec .vaonRise s = execVaonRise s := rfl
@[simp] theorem exec_retainLost (s : State) : exec .retainLost s = execRetainLost s := rfl
@[simp] theorem exec_mainRailsGood (s : State) : exec .mainRailsGood s = execMainRailsGood s := rfl
@[simp] theorem exec_pwrRstAssert (time) (s : State) : exec (.pwrRstAssert time) s = execPwrRstAssert time s := rfl
@[simp] theorem exec_pwrRstRelease (s : State) : exec .pwrRstRelease s = execPwrRstRelease s := rfl
@[simp] theorem exec_powerFail (time) (s : State) : exec (.powerFail time) s = execPowerFail time s := rfl
@[simp] theorem exec_mainRailTrip (time) (s : State) : exec (.mainRailTrip time) s = execMainRailTrip time s := rfl
@[simp] theorem exec_powerReturn (time) (s : State) : exec (.powerReturn time) s = execPowerReturn time s := rfl
@[simp] theorem exec_holdupSample (senseMv) (time) (s : State) : exec (.holdupSample senseMv time) s = execHoldupSample senseMv time s := rfl
@[simp] theorem exec_rideThroughExpiry (time) (s : State) : exec (.rideThroughExpiry time) s = execRideThroughExpiry time s := rfl
@[simp] theorem exec_seal (time) (s : State) : exec (.seal time) s = execSeal time s := rfl
@[simp] theorem exec_boot (env) (s : State) : exec (.boot env) s = execBoot env s := rfl
@[simp] theorem exec_selftest (env) (s : State) : exec (.selftest env) s = execSelftest env s := rfl
@[simp] theorem exec_arbitration (time) (s : State) : exec (.arbitration time) s = execArbitration time s := rfl
@[simp] theorem exec_deviceReset (s : State) : exec .deviceReset s = execDeviceReset s := rfl
@[simp] theorem exec_fwWatchdogExpiry (pc) (time) (s : State) : exec (.fwWatchdogExpiry pc time) s = execFwWatchdogExpiry pc time s := rfl
@[simp] theorem exec_serviceCoreRestart (time) (s : State) : exec (.serviceCoreRestart time) s = execServiceCoreRestart time s := rfl
@[simp] theorem exec_haltReqCapture (time) (s : State) : exec (.haltReqCapture time) s = execHaltReqCapture time s := rfl
@[simp] theorem exec_haltReqRelease (s : State) : exec .haltReqRelease s = execHaltReqRelease s := rfl
@[simp] theorem exec_baseTick (s : State) : exec .baseTick s = execBaseTick s := rfl
@[simp] theorem exec_takeover (time) (s : State) : exec (.takeover time) s = execTakeover time s := rfl
@[simp] theorem exec_yieldPrimary (time) (s : State) : exec (.yieldPrimary time) s = execYieldPrimary time s := rfl
@[simp] theorem exec_handover (time) (s : State) : exec (.handover time) s = execHandover time s := rfl
@[simp] theorem exec_mastershipPass (s : State) : exec .mastershipPass s = execMastershipPass s := rfl
@[simp] theorem exec_switchWindowEnd (time) (s : State) : exec (.switchWindowEnd time) s = execSwitchWindowEnd time s := rfl
@[simp] theorem exec_freezeEnd (task) (time) (s : State) : exec (.freezeEnd task time) s = execFreezeEnd task time s := rfl
@[simp] theorem exec_preemptionStop (e) (time) (s : State) : exec (.preemptionStop e time) s = execPreemptionStop e time s := rfl
@[simp] theorem exec_budgetExpiry (task) (time) (s : State) : exec (.budgetExpiry task time) s = execBudgetExpiry task time s := rfl
@[simp] theorem exec_taskTimerExpiry (task) (time) (s : State) : exec (.taskTimerExpiry task time) s = execTaskTimerExpiry task time s := rfl
@[simp] theorem exec_commitFlush (k) (s : State) : exec (.commitFlush k) s = execCommitFlush k s := rfl
@[simp] theorem exec_verificationActivation (k) (pass) (s : State) : exec (.verificationActivation k pass) s = execVerificationActivation k pass s := rfl
@[simp] theorem exec_pageFill (gen) (page) (s : State) : exec (.pageFill gen page) s = execPageFill gen page s := rfl
@[simp] theorem exec_lineRefetch (frame) (line) (ddrBad) (s : State) : exec (.lineRefetch frame line ddrBad) s = execLineRefetch frame line ddrBad s := rfl
@[simp] theorem exec_pageRebuild (gen) (page) (lineFails) (readBackFails) (s : State) :
    exec (.pageRebuild gen page lineFails readBackFails) s = execPageRebuild gen page lineFails readBackFails s := rfl
@[simp] theorem exec_scrubRead (mem) (addr) (f) (s : State) : exec (.scrubRead mem addr f) s = execScrubRead mem addr f s := rfl
@[simp] theorem exec_bucketLeak (s : State) : exec .bucketLeak s = execBucketLeak s := rfl
@[simp] theorem exec_persistWrite (s : State) : exec .persistWrite s = execPersistWrite s := rfl
@[simp] theorem exec_energyIntervalEnd (rails) (senseMv) (time) (s : State) : exec (.energyIntervalEnd rails senseMv time) s = execEnergyIntervalEnd rails senseMv time s := rfl
@[simp] theorem exec_vbatMeasure (mv) (charge) (s : State) : exec (.vbatMeasure mv charge) s = execVbatMeasure mv charge s := rfl
@[simp] theorem exec_calendarRollover (s : State) : exec .calendarRollover s = execCalendarRollover s := rfl
@[simp] theorem exec_trimEvaluation (temp) (s : State) : exec (.trimEvaluation temp) s = execTrimEvaluation temp s := rfl
@[simp] theorem exec_timeSetPendingLoad (s : State) : exec .timeSetPendingLoad s = execTimeSetPendingLoad s := rfl
@[simp] theorem exec_shiftHoldEnd (s : State) : exec .shiftHoldEnd s = execShiftHoldEnd s := rfl
@[simp] theorem exec_nonceExpiry (time) (s : State) : exec (.nonceExpiry time) s = execNonceExpiry time s := rfl
@[simp] theorem exec_grantExpiry (time) (s : State) : exec (.grantExpiry time) s = execGrantExpiry time s := rfl
@[simp] theorem exec_optimeSave (time) (s : State) : exec (.optimeSave time) s = execOptimeSave time s := rfl
@[simp] theorem exec_eventRecordWrite (s : State) : exec .eventRecordWrite s = execEventRecordWrite s := rfl
@[simp] theorem exec_repeatUpdate (s : State) : exec .repeatUpdate s = execRepeatUpdate s := rfl
@[simp] theorem exec_clearedOverwrite (s : State) : exec .clearedOverwrite s = execClearedOverwrite s := rfl
@[simp] theorem exec_inputFrame (port) (f) (s : State) : exec (.inputFrame port f) s = execInputFrame port f s := rfl
@[simp] theorem exec_inputCutoff (time) (s : State) : exec (.inputCutoff time) s = execInputCutoff time s := rfl
@[simp] theorem exec_ringBroken (port) (s : State) : exec (.ringBroken port) s = execRingBroken port s := rfl
@[simp] theorem exec_portLinkDown (port) (s : State) : exec (.portLinkDown port) s = execPortLinkDown port s := rfl
@[simp] theorem exec_scheduleSwitch (s : State) : exec .scheduleSwitch s = execScheduleSwitch s := rfl
@[simp] theorem exec_ptpMessage (port) (f) (offsetNs) (s : State) : exec (.ptpMessage port f offsetNs) s = execPtpMessage port f offsetNs s := rfl
@[simp] theorem exec_delayReq (port) (f) (s : State) : exec (.delayReq port f) s = execDelayReq port f s := rfl
@[simp] theorem exec_timebaseHoldover (s : State) : exec .timebaseHoldover s = execTimebaseHoldover s := rfl
@[simp] theorem exec_timebaseStep (s : State) : exec .timebaseStep s = execTimebaseStep s := rfl
@[simp] theorem exec_ppsInEdge (offsetNs) (s : State) : exec (.ppsInEdge offsetNs) s = execPpsInEdge offsetNs s := rfl
@[simp] theorem exec_announce (port) (f) (s : State) : exec (.announce port f) s = execAnnounce port f s := rfl
@[simp] theorem exec_answer (port) (f) (s : State) : exec (.answer port f) s = execAnswer port f s := rfl
@[simp] theorem exec_notify (port) (f) (s : State) : exec (.notify port f) s = execNotify port f s := rfl
@[simp] theorem exec_sessionAnswerTimeout (station) (s : State) : exec (.sessionAnswerTimeout station) s = execSessionAnswerTimeout station s := rfl
@[simp] theorem exec_sessionWaitTimeout (station) (s : State) : exec (.sessionWaitTimeout station) s = execSessionWaitTimeout station s := rfl
@[simp] theorem exec_probeTimeout (station) (s : State) : exec (.probeTimeout station) s = execProbeTimeout station s := rfl
@[simp] theorem exec_verificationRepeat (station) (s : State) : exec (.verificationRepeat station) s = execVerificationRepeat station s := rfl
@[simp] theorem exec_stationReturnTimeout (station) (s : State) : exec (.stationReturnTimeout station) s = execStationReturnTimeout station s := rfl
@[simp] theorem exec_status (h) (role) (state) (flags) (linkMajor) (lowestMissing) (s : State) : exec (.status h role state flags linkMajor lowestMissing) s = execStatus h role state flags linkMajor lowestMissing s := rfl
@[simp] theorem exec_tickStatus (h) (serial) (linkMajor) (linkMinor) (lastApplied) (limitKib) (offsetNs) (missed) (s : State) : exec (.tickStatus h serial linkMajor linkMinor lastApplied limitKib offsetNs missed) s = execTickStatus h serial linkMajor linkMinor lastApplied limitKib offsetNs missed s := rfl
@[simp] theorem exec_delta (h) (r) (s : State) : exec (.delta h r) s = execDelta h r s := rfl
@[simp] theorem exec_deltaEnd (h) (records) (bytes) (s : State) : exec (.deltaEnd h records bytes) s = execDeltaEnd h records bytes s := rfl
@[simp] theorem exec_relayDown (h) (port) (f) (s : State) : exec (.relayDown h port f) s = execRelayDown h port f s := rfl
@[simp] theorem exec_relayUp (h) (port) (f) (s : State) : exec (.relayUp h port f) s = execRelayUp h port f s := rfl
@[simp] theorem exec_bulk (h) (b) (s : State) : exec (.bulk h b) s = execBulk h b s := rfl
@[simp] theorem exec_bulkAck (h) (b) (s : State) : exec (.bulkAck h b) s = execBulkAck h b s := rfl
@[simp] theorem exec_notice (h) (k) (holdFrom) (time) (s : State) : exec (.notice h k holdFrom time) s = execNotice h k holdFrom time s := rfl
@[simp] theorem exec_selvedgeLinkDown (time) (s : State) : exec (.selvedgeLinkDown time) s = execSelvedgeLinkDown time s := rfl
@[simp] theorem exec_laneLoss (lane) (s : State) : exec (.laneLoss lane) s = execLaneLoss lane s := rfl
@[simp] theorem exec_peerAliveDecode (v) (time) (s : State) : exec (.peerAliveDecode v time) s = execPeerAliveDecode v time s := rfl
@[simp] theorem exec_peerFault (low) (s : State) : exec (.peerFault low) s = execPeerFault low s := rfl
@[simp] theorem exec_syncingTimeout (s : State) : exec .syncingTimeout s = execSyncingTimeout s := rfl
@[simp] theorem exec_syncLinkTimeout (s : State) : exec .syncLinkTimeout s = execSyncLinkTimeout s := rfl
@[simp] theorem exec_fieldLinkFrame (time) (s : State) : exec (.fieldLinkFrame time) s = execFieldLinkFrame time s := rfl
@[simp] theorem exec_fieldLinkLost (time) (s : State) : exec (.fieldLinkLost time) s = execFieldLinkLost time s := rfl
@[simp] theorem exec_fieldLinkUp (s : State) : exec .fieldLinkUp s = execFieldLinkUp s := rfl
@[simp] theorem exec_fieldSample (x) (s : State) : exec (.fieldSample x) s = execFieldSample x s := rfl
@[simp] theorem exec_filterChange (ch) (compB) (s : State) : exec (.filterChange ch compB) s = execFilterChange ch compB s := rfl
@[simp] theorem exec_wireBreak (ch) (broken) (s : State) : exec (.wireBreak ch broken) s = execWireBreak ch broken s := rfl
@[simp] theorem exec_fieldSupply (group) (cond) (s : State) : exec (.fieldSupply group cond) s = execFieldSupply group cond s := rfl
@[simp] theorem exec_outputShutdown (ch) (s : State) : exec (.outputShutdown ch) s = execOutputShutdown ch s := rfl
@[simp] theorem exec_readbackFail (ch) (s : State) : exec (.readbackFail ch) s = execReadbackFail ch s := rfl
@[simp] theorem exec_testPulse (ch) (offRead) (onRead) (disturbed) (s : State) : exec (.testPulse ch offRead onRead disturbed) s = execTestPulse ch offRead onRead disturbed s := rfl
@[simp] theorem exec_memTestUnit (ce) (fails) (s : State) : exec (.memTestUnit ce fails) s = execMemTestUnit ce fails s := rfl
@[simp] theorem exec_fuseBit (takes) (s : State) : exec (.fuseBit takes) s = execFuseBit takes s := rfl
@[simp] theorem exec_tracerCopy (addr) (s : State) : exec (.tracerCopy addr) s = execTracerCopy addr s := rfl
@[simp] theorem exec_programInstall (time) (s : State) : exec (.programInstall time) s = execProgramInstall time s := rfl
@[simp] theorem exec_changeStageInstall (time) (s : State) : exec (.changeStageInstall time) s = execChangeStageInstall time s := rfl
@[simp] theorem exec_urgCommand (v) (time) (s : State) : exec (.urgCommand v time) s = execUrgCommand v time s := rfl
@[simp] theorem exec_portLinkUp (port) (s : State) : exec (.portLinkUp port) s = execPortLinkUp port s := rfl
@[simp] theorem exec_laneLock (lane) (s : State) : exec (.laneLock lane) s = execLaneLock lane s := rfl
end Sys2Proof.Machine
end

