-- ==== Sys2Proof/Laws/Sparse.lean ====
section
/-! SUPPORT. What the operations of a sparse memory do: a write reads back, leaves every other key alone, and keeps the canonical
form. -/

namespace Sys2Proof.Machine

variable {β : Type}

theorem look_none_below (l : List (Nat × β)) (n a : Nat) (h : risingFrom n l = true) (ha : a < n) : look l a = none := by
  induction l generalizing n with
  | nil => rfl
  | cons x r ih =>
    obtain ⟨k, v⟩ := x
    simp only [risingFrom, Bool.and_eq_true, decide_eq_true_eq] at h
    rw [look, if_neg (by omega)]
    exact ih (k + 1) h.2 (by omega)

theorem risingFrom_mono (l : List (Nat × β)) (m n : Nat) (h : risingFrom n l = true) (hm : m ≤ n) : risingFrom m l = true := by
  cases l with
  | nil => rfl
  | cons x r =>
    obtain ⟨k, v⟩ := x
    simp only [risingFrom, Bool.and_eq_true, decide_eq_true_eq] at h ⊢
    exact ⟨by omega, h.2⟩

theorem look_insertAt (l : List (Nat × β)) (a b : Nat) (v : β) :
    look (insertAt l a v) b = if b = a then some v else look l b := by
  induction l with
  | nil =>
    simp only [insertAt, look]
    by_cases h : b = a
    · rw [if_pos h, if_pos h.symm]
    · rw [if_neg h, if_neg (fun x => h x.symm)]
  | cons x r ih =>
    obtain ⟨k, w⟩ := x
    simp only [insertAt]
    by_cases h1 : a < k
    · rw [if_pos h1]
      by_cases h : b = a
      · rw [if_pos h, look, if_pos h.symm]
      · rw [if_neg h, look, if_neg (fun x => h x.symm)]
    · rw [if_neg h1]
      by_cases h2 : k = a
      · rw [if_pos h2, look]
        by_cases h : b = a
        · rw [if_pos h, if_pos h.symm]
        · rw [if_neg h, if_neg (fun x => h x.symm), look, if_neg (fun x => h (x.symm.trans h2))]
      · rw [if_neg h2, look, ih, look]
        by_cases h3 : k = b
        · rw [if_pos h3, if_pos h3, if_neg (fun x => h2 (h3.trans x))]
        · rw [if_neg h3, if_neg h3]

theorem look_erase (l : List (Nat × β)) (n a b : Nat) (h : risingFrom n l = true) :
    look (erase l a) b = if b = a then none else look l b := by
  induction l generalizing n with
  | nil => simp [erase, look]
  | cons x r ih =>
    obtain ⟨k, w⟩ := x
    simp only [risingFrom, Bool.and_eq_true, decide_eq_true_eq] at h
    simp only [erase]
    split
    · subst_vars
      split
      · subst_vars; exact look_none_below r _ _ h.2 (by omega)
      · rw [look, if_neg (by omega)]
    · split
      · split
        · subst_vars
          rw [look, if_neg (by omega)]
          exact look_none_below r _ _ h.2 (by omega)
        · rfl
      · simp only [look, ih (k + 1) h.2]
        split <;> split <;> simp_all

theorem risingFrom_insertAt (l : List (Nat × β)) (n a : Nat) (v : β) (h : risingFrom n l = true) (ha : n ≤ a) :
    risingFrom n (insertAt l a v) = true := by
  induction l generalizing n with
  | nil => simp [insertAt, risingFrom, ha]
  | cons x r ih =>
    obtain ⟨k, w⟩ := x
    simp only [risingFrom, Bool.and_eq_true, decide_eq_true_eq] at h
    simp only [insertAt]
    split
    · simp only [risingFrom, Bool.and_eq_true, decide_eq_true_eq]
      exact ⟨ha, by omega, h.2⟩
    · split
      · subst_vars
        simp only [risingFrom, Bool.and_eq_true, decide_eq_true_eq]
        exact h
      · simp only [risingFrom, Bool.and_eq_true, decide_eq_true_eq]
        exact ⟨h.1, ih (k + 1) h.2 (by omega)⟩

theorem risingFrom_erase (l : List (Nat × β)) (n a : Nat) (h : risingFrom n l = true) : risingFrom n (erase l a) = true := by
  induction l generalizing n with
  | nil => rfl
  | cons x r ih =>
    obtain ⟨k, w⟩ := x
    simp only [erase]
    split
    · simp only [risingFrom, Bool.and_eq_true, decide_eq_true_eq] at h
      exact risingFrom_mono r n (k + 1) h.2 (by omega)
    · split
      · exact h
      · simp only [risingFrom, Bool.and_eq_true, decide_eq_true_eq] at h ⊢
        exact ⟨h.1, ih (k + 1) h.2⟩

theorem mem_insertAt (l : List (Nat × β)) (a : Nat) (v : β) (x : Nat × β) (h : x ∈ insertAt l a v) : x = (a, v) ∨ x ∈ l := by
  induction l with
  | nil => simpa [insertAt] using h
  | cons y r ih =>
    obtain ⟨k, w⟩ := y
    simp only [insertAt] at h
    split at h
    · simpa using h
    · split at h
      · simp only [List.mem_cons] at h ⊢
        tauto
      · simp only [List.mem_cons] at h ⊢
        rcases h with h | h
        · tauto
        · rcases ih h with h | h <;> tauto

theorem mem_erase (l : List (Nat × β)) (a : Nat) (x : Nat × β) (h : x ∈ erase l a) : x ∈ l := by
  induction l with
  | nil => simp [erase] at h
  | cons y r ih =>
    obtain ⟨k, w⟩ := y
    simp only [erase] at h
    split at h
    · exact List.mem_cons_of_mem _ h
    · split at h
      · exact h
      · simp only [List.mem_cons] at h ⊢
        rcases h with h | h
        · tauto
        · exact Or.inr (ih h)

variable [DecidableEq β]

/-- A write keeps the canonical form. -/
theorem sparseWf_writeAt (d : β) (l : List (Nat × β)) (a : Nat) (v : β) (h : sparseWf d l = true) :
    sparseWf d (writeAt d l a v) = true := by
  simp only [sparseWf, Bool.and_eq_true, List.all_eq_true, decide_eq_true_eq] at h ⊢
  unfold writeAt
  split
  · exact ⟨risingFrom_erase l 0 a h.1, fun x hx => h.2 x (mem_erase l a x hx)⟩
  · refine ⟨risingFrom_insertAt l 0 a v h.1 (Nat.zero_le _), fun x hx => ?_⟩
    rcases mem_insertAt l a v x hx with rfl | hx
    · assumption
    · exact h.2 x hx

/-- A write reads back. -/
theorem readAt_writeAt_same (d : β) (l : List (Nat × β)) (a : Nat) (v : β) (h : sparseWf d l = true) :
    readAt d (writeAt d l a v) a = v := by
  simp only [sparseWf, Bool.and_eq_true] at h
  unfold writeAt readAt
  split
  · rw [look_erase l 0 a a h.1]; simp_all
  · rw [look_insertAt]; simp

/-- A write leaves every other key alone. -/
theorem readAt_writeAt_other (d : β) (l : List (Nat × β)) (a b : Nat) (v : β) (h : sparseWf d l = true) (hb : b ≠ a) :
    readAt d (writeAt d l a v) b = readAt d l b := by
  simp only [sparseWf, Bool.and_eq_true] at h
  unfold writeAt readAt
  split
  · rw [look_erase l 0 a b h.1, if_neg hb]
  · rw [look_insertAt, if_neg hb]

/-- Writes to consecutive keys keep the canonical form. -/
theorem sparseWf_writeRun (d : β) (ws : List β) (l : List (Nat × β)) (a : Nat) (h : sparseWf d l = true) :
    sparseWf d (writeRun d l a ws) = true := by
  induction ws generalizing l a with
  | nil => exact h
  | cons v r ih => exact ih _ _ (sparseWf_writeAt d l a v h)

end Sys2Proof.Machine
end

