-- ==== Sys2Proof/Laws/Memory.lean ====
section
/-! SUPPORT. The memories keep their canonical form: the live bank through a write of a slot and the freeing of slots, data
memory and the legacy area through their writes and clears. -/

namespace Sys2Proof.Machine

variable (s : State)

theorem sparseWf_filter {β : Type} [DecidableEq β] (d : β) (p : Nat × β → Bool) (l : List (Nat × β)) (h : sparseWf d l = true) :
    sparseWf d (l.filter p) = true := by
  simp only [sparseWf, Bool.and_eq_true, List.all_eq_true, decide_eq_true_eq] at h ⊢
  refine ⟨?_, fun x hx => h.2 x (List.mem_of_mem_filter hx)⟩
  have key : ∀ (l : List (Nat × β)) n, risingFrom n l = true → risingFrom n (l.filter p) = true := by
    intro l
    induction l with
    | nil => exact fun _ _ => rfl
    | cons x r ih =>
      obtain ⟨k, v⟩ := x
      intro n hn
      simp only [risingFrom, Bool.and_eq_true, decide_eq_true_eq] at hn
      simp only [List.filter]
      split
      · simp only [risingFrom, Bool.and_eq_true, decide_eq_true_eq]
        exact ⟨hn.1, ih _ hn.2⟩
      · exact ih n (risingFrom_mono _ n (k + 1) hn.2 (by omega))
  exact key l 0 h.1

@[simp] theorem mirror_img (d : DeltaRec) : (mirror d s).img = s.img := by unfold mirror; split <;> rfl
@[simp] theorem mirror_mem (d : DeltaRec) : (mirror d s).mem = s.mem := by unfold mirror; split <;> rfl

/-- The values in the live bank, data memory and the legacy area are the same in two states. -/
def SameWords (s t : State) : Prop := t.img.live = s.img.live ∧ t.mem.data = s.mem.data ∧ t.mem.legacy = s.mem.legacy

theorem sameWords_refl : SameWords s s := ⟨rfl, rfl, rfl⟩

theorem SameWords.trans {s t u : State} (h : SameWords s t) (g : SameWords t u) : SameWords s u :=
  ⟨g.1.trans h.1, g.2.1.trans h.2.1, g.2.2.trans h.2.2⟩

theorem sameWords_raiseVector (v : Nat) : SameWords s (raiseVector v s) := by
  simp only [raiseVector]
  split <;> exact ⟨rfl, rfl, rfl⟩

theorem sameWords_setCause (n : Nat) : SameWords s (setCause n s) := by
  have h : SameWords s (onRegs (fun r => { r with cause := r.cause ||| (1#11 <<< n) }) s) := ⟨rfl, rfl, rfl⟩
  simp only [setCause]
  split
  · refine h.trans ?_
    simp only [raiseDevice]
    split
    · exact sameWords_refl _
    · split
      · split
        · exact sameWords_refl _
        · exact SameWords.trans ⟨rfl, rfl, rfl⟩ (sameWords_raiseVector _ _)
      · exact SameWords.trans ⟨rfl, rfl, rfl⟩ (sameWords_raiseVector _ _)
  · exact h

theorem sameWords_capture (fw : Bool) (code : Nat) (data : Bytes) : SameWords s (capture fw code data s) := by
  simp only [capture]
  split
  · exact ⟨rfl, rfl, rfl⟩
  · exact SameWords.trans ⟨rfl, rfl, rfl⟩ (sameWords_setCause _ _)

theorem sameWords_mirror (d : DeltaRec) : SameWords s (mirror d s) := by
  unfold mirror
  split <;> exact ⟨rfl, rfl, rfl⟩

theorem sameWords_writeBlocks (n : Nat) : SameWords s (writeBlocks n s) := by
  induction n generalizing s with
  | zero => exact sameWords_refl s
  | succ n ih =>
    simp only [writeBlocks]
    split
    · exact sameWords_refl s
    · refine SameWords.trans ?_ (ih _)
      simp only [writeBlock]
      split <;> exact ⟨rfl, rfl, rfl⟩

theorem sameWords_onEnergy (f : Energy → Energy) : SameWords s (onEnergy f s) := ⟨rfl, rfl, rfl⟩

theorem sameWords_countStall : SameWords s (countStall s) := by
  simp only [countStall]
  split
  · exact sameWords_onEnergy s _
  · exact ((sameWords_onEnergy s _).trans (sameWords_onEnergy _ _)).trans (sameWords_capture _ _ _ _)

theorem sameWords_dirty (f : List (Nat × Nat) → List (Nat × Nat)) :
    SameWords s (onMem (fun m => { m with dirty := f m.dirty }) s) := ⟨rfl, rfl, rfl⟩

theorem sameWords_touchBlock (waits : Bool) (b : Nat) : SameWords s (touchBlock waits b s).2 := by
  simp only [touchBlock]
  split
  · exact sameWords_refl s
  · generalize (if waits && s.dev.st != .fault then min (blocksOver s) s.mem.dirty.length else 0) = k
    have h : SameWords s (if k = 0 then s else writeBlocks k (countStall s)) := by
      split
      · exact sameWords_refl s
      · exact (sameWords_countStall s).trans (sameWords_writeBlocks _ _)
    exact h.trans (sameWords_dirty _ (fun l => l ++ [(b, _)]))

theorem sameWords_touchWord (waits : Bool) (g i : Nat) (old new : TWord) : SameWords s (touchWord waits g i old new s).2 := by
  have h : ∀ (p : Prop) [Decidable p] (b : Nat) (t : State), SameWords t (if p then (0, t) else touchBlock waits b t).2 := by
    intro p _ b t
    split
    · exact sameWords_refl t
    · exact sameWords_touchBlock t _ _
  exact (h _ _ s).trans (h _ _ _)

theorem sameWords_persistSlot (waits : Bool) (a : Nat) (old new : TWord) : SameWords s (persistSlot waits a old new s).2 := by
  simp only [persistSlot]
  split
  · split
    · exact sameWords_touchWord s _ _ _ _ _
    · exact sameWords_refl s
  · exact sameWords_refl s

/-- The memories of a state are in canonical form. -/
def MemoriesWf (s : State) : Prop := s.img.wf = true ∧ s.mem.wf = true

theorem SameWords.wf {s t : State} (h : SameWords s t) (hs : MemoriesWf s) : MemoriesWf t := by
  obtain ⟨h1, h2, h3⟩ := h
  simp only [MemoriesWf, Image.wf, Memory.wf] at hs ⊢
  rw [h1, h2, h3]
  exact hs

/-- A write of a live word. -/
theorem writeLive_wf (waits : Bool) (a : Nat) (w : TWord) (h : MemoriesWf s) : MemoriesWf (writeLive waits a w s).2 := by
  have g := (sameWords_persistSlot s waits a (liveWord s a) w).wf h
  have k : MemoriesWf (onImg (fun i => { i with live := writeAt TWord.empty i.live a w })
      (persistSlot waits a (liveWord s a) w s).2) := ⟨sparseWf_writeAt _ _ _ _ g.1, g.2⟩
  simp only [writeLive]
  split
  · exact k
  · exact (sameWords_mirror _ _).wf k

/-- A write of a source, a command or a substitution. -/
theorem setLive_wf (a : Nat) (w : TWord) (h : MemoriesWf s) : MemoriesWf (setLive a w s) := writeLive_wf s true a w h

/-- A write of data memory. -/
theorem writePhys_wf (waits : Bool) (a : Nat) (w : TWord) (h : MemoriesWf s) : MemoriesWf (writePhys waits a w s).2 := by
  simp only [writePhys]
  refine (sameWords_mirror _ _).wf ?_
  have g : MemoriesWf (match groupOf s (.data (a / 1024) (a % 1024 / 64)) with
      | some g => touchWord waits g (a % 64) (readPhys s a) w s
      | none => (0, s)).2 := by
    split
    · exact (sameWords_touchWord s _ _ _ _ _).wf h
    · exact h
  refine ⟨g.1, ?_⟩
  have m := g.2
  simp only [Memory.wf, Bool.and_eq_true, onMem_mem] at m ⊢
  exact ⟨sparseWf_writeAt _ _ _ _ m.1, m.2⟩

/-- A store to the legacy area. -/
theorem setLegacy_wf (a : Nat) (w : BitVec 16) (h : MemoriesWf s) : MemoriesWf (setLegacy a w s) := by
  refine (sameWords_mirror _ _).wf ⟨h.1, ?_⟩
  have m := h.2
  simp only [Memory.wf, Bool.and_eq_true, onMem_mem] at m ⊢
  exact ⟨m.1, sparseWf_writeAt _ _ _ _ m.2⟩

/-- The filling of the legacy area with 0. -/
theorem clearLegacy_wf (h : MemoriesWf s) : MemoriesWf (clearLegacy s) := by
  have g : ∀ (l : List (Nat × BitVec 16)) (t : State), MemoriesWf t →
      MemoriesWf (l.foldl (fun t e => mirror (.legacy e.1 [0#16]) t) t) := by
    intro l
    induction l with
    | nil => exact fun _ h => h
    | cons x r ih => exact fun t h => ih _ ((sameWords_mirror t _).wf h)
  have k := g s.mem.legacy s h
  refine ⟨k.1, ?_⟩
  have m := k.2
  simp only [Memory.wf, Bool.and_eq_true] at m
  simp only [clearLegacy, Memory.wf, Bool.and_eq_true, onMem_mem]
  exact ⟨m.1, rfl⟩

/-- Slots are freed. -/
theorem filterLive_wf (p : Nat × TWord → Bool) (h : MemoriesWf s) :
    MemoriesWf (onImg (fun i => { i with live := i.live.filter p }) s) := ⟨sparseWf_filter _ _ _ h.1, h.2⟩

/-- Pages of data memory are given back. -/
theorem filterData_wf (p : Nat × TWord → Bool) (h : MemoriesWf s) :
    MemoriesWf (onMem (fun m => { m with data := m.data.filter p }) s) := by
  refine ⟨h.1, ?_⟩
  have m := h.2
  simp only [Memory.wf, Bool.and_eq_true, onMem_mem] at m ⊢
  exact ⟨sparseWf_filter _ _ _ m.1, m.2⟩

/-- Reset leaves empty memories. -/
theorem reset_memoriesWf : MemoriesWf State.reset := ⟨rfl, rfl⟩

end Sys2Proof.Machine
end

