-- ==== Sys2Proof/Laws/Run.lean ====
section
/-! SUPPORT. What an engine on its own does with one instruction, by the instruction's plan. -/

namespace Sys2Proof.Machine

open Sys2Proof.Safety

/-- An engine that runs a task is one of the sixteen in the table. -/
theorem eng_in_table (s : State) (e n : Nat) (h : (getEng s e).task = some n) : e < s.scan.engines.length := by
  by_contra hc
  unfold getEng nth at h
  rw [List.getElem?_eq_none (by omega)] at h
  exact absurd h (by simp [Engine.reset])

theorem getEng_onEng_same (s : State) (e : Nat) (f : Engine → Engine) (h : e < s.scan.engines.length) :
    getEng (onEng e f s) e = f (getEng s e) := by
  simp [getEng, onEng, nth, modifyNth, List.getElem?_eq_getElem h]

theorem getEng_onEng_other (s : State) (e d : Nat) (f : Engine → Engine) (h : d ≠ e) :
    getEng (onEng e f s) d = getEng s d := by
  simp [getEng, onEng, nth, modifyNth, h.symm]

/-- The view with which engine e begins an instruction is the one it has, without results. -/
theorem view_pc {s : State} {e n : Nat} {v : View} (ht : (getEng s e).task = some n) (h : viewOf (started e s) e = some v) :
    ∃ w, viewOf s e = some w ∧ w.d = v.d ∧ w.g.pc = v.g.pc ∧ w.s = s ∧ w.e = e := by
  have hl := eng_in_table s e n ht
  unfold viewOf started at h
  rw [getEng_onEng_same s e _ hl] at h
  unfold viewOf
  simp only [ht] at h ⊢
  simp only [onEng, onScan_chg] at h
  cases hr : s.chg.running with
  | none => rw [hr] at h; exact absurd h (by simp)
  | some p =>
    rw [hr] at h
    simp only [Option.map_eq_some_iff] at h ⊢
    obtain ⟨d, hd, rfl⟩ := h
    exact ⟨_, ⟨d, hd, rfl⟩, rfl, rfl, rfl, rfl⟩

/-- A view names its state and its engine. -/
theorem viewOf_names {s : State} {e : Nat} {v : View} (h : viewOf s e = some v) : v.s = s ∧ v.e = e := by
  unfold viewOf at h
  simp only at h
  split at h
  · obtain ⟨d, -, rfl⟩ := Option.map_eq_some_iff.mp h
    exact ⟨rfl, rfl⟩
  · exact absurd h (by simp)

/-- What the code store holds is no engine's. -/
theorem codeAt_onEng (s : State) (e d pc : Nat) (f : Engine → Engine) : codeAt (onEng e f s) d pc = codeAt s d pc := rfl

/-- An engine on its own carries the instruction out by runAlone. -/
theorem runInstr_alone {i : Instr} {e n : Nat} {v : View} {s : State} (h : Alone i e n v s) :
    runInstr e i s = runAlone n e i 8 (started e s) := by
  obtain ⟨hb, ht, hd, hv, hpg, hin, -, hc, hf⟩ := h
  obtain ⟨w, hw, hwd, hwp, hws, hwe⟩ := view_pc ht hv
  have hm : meets i w = true := by simp [meets, hws, hwe, hwp, hc]
  unfold runInstr
  simp only [hb, ht, hw, hwd, hwp, hpg, hin, hd, hf, hm, started, Bool.not_true, Bool.false_eq_true, if_false, Bool.and_false,
    Bool.or_self]

theorem fetched_alone {i : Instr} {e n : Nat} {v : View} {s : State} (h : Alone i e n v s) : fetched i v = sncPlan i v := by
  obtain ⟨-, -, -, hv, hpg, -, hc, hk, -⟩ := h
  obtain ⟨hs, he⟩ := viewOf_names hv
  have hk' : codeAt v.s v.e v.g.pc = some i := by rw [hs, he]; exact hk
  unfold fetched
  rw [if_neg (by simp only [hpg]; decide), if_neg (by simp only [hc]; decide), if_neg (by simp [hk'])]

/-- An instruction that asks for nothing completes. -/
theorem runInstr_done {i : Instr} {e n : Nat} {v : View} {s : State} {f : Effect} (h : Alone i e n v s)
    (hp : sncPlan i v = .done f) (hf : f.ends = false) :
    runInstr e i s = complete false n e (lengthOf i) f (started e s) := by
  rw [runInstr_alone h]
  have hfe := fetched_alone h
  obtain ⟨-, -, -, hv, -⟩ := h
  simp only [runAlone, hv, hfe, hp, hf, Bool.false_eq_true, if_false]

/-- An instruction that ends the activation. -/
theorem runInstr_ends {i : Instr} {e n : Nat} {v : View} {s : State} {f : Effect} (h : Alone i e n v s)
    (hp : sncPlan i v = .done f) (hf : f.ends = true) :
    runInstr e i s = settle (endActivation n none (complete false n e (lengthOf i) f (started e s))) := by
  rw [runInstr_alone h]
  have hfe := fetched_alone h
  obtain ⟨-, -, -, hv, -⟩ := h
  simp only [runAlone, hv, hfe, hp, hf, if_true]

theorem coreUnits_started (s : State) (e n c : Nat) : coreUnits (started e s) n c = coreUnits s n c := rfl

/-- An instruction that traps under END. -/
theorem runInstr_stop {i : Instr} {e n : Nat} {v : View} {s : State} {c u cy : Nat} (h : Alone i e n v s)
    (hp : sncPlan i v = .stop c u cy) :
    runInstr e i s = trapEnd n e c u (coreUnits s n cy) (started e s) := by
  rw [runInstr_alone h]
  have hfe := fetched_alone h
  obtain ⟨-, -, -, hv, -⟩ := h
  simp only [runAlone, hv, hfe, hp, coreUnits_started]

/-- An instruction that makes one operation outside the engine and then completes. -/
theorem runInstr_need {i : Instr} {e n : Nat} {v w : View} {s : State} {op : XOp} {f : Effect} (h : Alone i e n v s)
    (hp : sncPlan i v = .need op) (hw : viewOf (afterOp n e op (started e s)) e = some w) (hq : fetched i w = .done f)
    (hf : f.ends = false) :
    runInstr e i s = complete false n e (lengthOf i) f (afterOp n e op (started e s)) := by
  rw [runInstr_alone h]
  have hfe := fetched_alone h
  obtain ⟨-, -, -, hv, -⟩ := h
  unfold afterOp at hw ⊢
  unfold runAlone
  simp only [hv, hfe, hp]
  unfold runAlone
  simp only [hw, hq, hf, Bool.false_eq_true, if_false]

end Sys2Proof.Machine
end

