-- ==== Sys2Proof/Laws/Operation.lean ====
section
/-! SUPPORT. What an operation outside the engine leaves to the engine that makes it: the running program, the descriptors and the
engine's own registers stay, so that the instruction can go on to its end. -/

namespace Sys2Proof.Machine

open Sys2Proof.Safety

/-- t has the running program, the descriptors, the code store and, but for a requested stop, the engine e of s. -/
def SameEngine (e : Nat) (s t : State) : Prop :=
  t.chg.running = s.chg.running ∧ t.img.descs = s.img.descs ∧ t.mem.frames = s.mem.frames ∧
    ∃ p a, getEng t e = { getEng s e with preemptFor := p, preemptAt := a }

theorem SameEngine.refl (e : Nat) (s : State) : SameEngine e s s := ⟨rfl, rfl, rfl, _, _, rfl⟩

theorem SameEngine.trans {e : Nat} {s t u : State} (h : SameEngine e s t) (k : SameEngine e t u) : SameEngine e s u := by
  obtain ⟨h1, h2, h4, _, _, h3⟩ := h
  obtain ⟨k1, k2, k4, q, b, k3⟩ := k
  exact ⟨k1.trans h1, k2.trans h2, k4.trans h4, q, b, by rw [k3, h3]⟩

/-- A step that touches neither the running program, nor the descriptors, nor the code store, nor any engine. -/
structure Aside (s t : State) : Prop where
  running : t.chg.running = s.chg.running
  descs : t.img.descs = s.img.descs
  frames : t.mem.frames = s.mem.frames
  engines : t.scan.engines = s.scan.engines

theorem Aside.refl (s : State) : Aside s s := ⟨rfl, rfl, rfl, rfl⟩
theorem Aside.trans {s t u : State} (h : Aside s t) (k : Aside t u) : Aside s u :=
  ⟨k.running.trans h.running, k.descs.trans h.descs, k.frames.trans h.frames, k.engines.trans h.engines⟩
theorem Aside.same {s t : State} (h : Aside s t) (e : Nat) : SameEngine e s t :=
  ⟨h.running, h.descs, h.frames, (getEng s e).preemptFor, (getEng s e).preemptAt, by unfold getEng; rw [h.engines]⟩

theorem aside_onMem (s : State) (f) (h : (f s.mem).frames = s.mem.frames := by rfl) : Aside s (onMem f s) := ⟨rfl, rfl, h, rfl⟩
theorem aside_onLog (s : State) (f) : Aside s (onLog f s) := ⟨rfl, rfl, rfl, rfl⟩
theorem aside_onRegs (s : State) (f) : Aside s (onRegs f s) := ⟨rfl, rfl, rfl, rfl⟩
theorem aside_onEnergy (s : State) (f) : Aside s (onEnergy f s) := ⟨rfl, rfl, rfl, rfl⟩
theorem aside_onPair (s : State) (f) : Aside s (onPair f s) := ⟨rfl, rfl, rfl, rfl⟩
theorem aside_onDev (s : State) (f) : Aside s (onDev f s) := ⟨rfl, rfl, rfl, rfl⟩
theorem aside_onAct (n : Nat) (s : State) (f) : Aside s (onAct n f s) := ⟨rfl, rfl, rfl, rfl⟩
theorem aside_advance (t : Nat) (s : State) : Aside s (advance t s) := ⟨rfl, rfl, rfl, rfl⟩

theorem aside_mirror (d : DeltaRec) (s : State) : Aside s (mirror d s) := by
  unfold mirror
  split
  · exact aside_onPair s _
  · exact .refl s

theorem aside_onTask (n : Nat) (s : State) (f) : Aside s (onTask n f s) := by
  unfold onTask
  exact Aside.trans (t := onScan (fun x => { x with tasks := modifyNth x.tasks n f }) s) ⟨rfl, rfl, rfl, rfl⟩ (aside_mirror _ _)

theorem aside_raiseVector (v : Nat) (s : State) : Aside s (raiseVector v s) := by
  unfold raiseVector
  dsimp only
  split <;> exact aside_onRegs s _

theorem aside_raiseDevice (s : State) : Aside s (raiseDevice s) := by
  unfold raiseDevice
  split
  · exact .refl s
  · split
    · split
      · exact .refl s
      · exact (aside_onRegs s _).trans (aside_raiseVector _ _)
    · exact (aside_onRegs s _).trans (aside_raiseVector _ _)

theorem aside_setCause (n : Nat) (s : State) : Aside s (setCause n s) := by
  unfold setCause
  dsimp only
  split
  · exact (aside_onRegs s _).trans (aside_raiseDevice _)
  · exact aside_onRegs s _

theorem aside_capture (fw : Bool) (code : Nat) (data : Bytes) (s : State) : Aside s (capture fw code data s) := by
  unfold capture
  split
  · exact aside_onLog s _
  · exact (aside_onLog s _).trans (aside_setCause _ _)

theorem aside_logHw (code : Nat) (data : Bytes) (s : State) : Aside s (logHw code data s) := aside_capture _ _ _ s

/-! ### Persistence and live words -/

theorem aside_writeBlock (b : Nat) (s : State) : Aside s (writeBlock b s) := by
  unfold writeBlock
  split <;> exact aside_onMem s _

theorem aside_writeBlocks (k : Nat) (s : State) : Aside s (writeBlocks k s) := by
  induction k generalizing s with
  | zero => exact .refl s
  | succ k ih =>
    unfold writeBlocks
    split
    · exact .refl s
    · exact (aside_writeBlock _ s).trans (ih _)

theorem aside_countStall (s : State) : Aside s (countStall s) := by
  unfold countStall
  dsimp only
  split
  · exact aside_onEnergy s _
  · exact ((aside_onEnergy s _).trans (aside_onEnergy _ _)).trans (aside_logHw _ _ _)

theorem aside_touchBlock (w : Bool) (b : Nat) (s : State) : Aside s (touchBlock w b s).2 := by
  unfold touchBlock
  dsimp only
  split
  · exact .refl s
  · generalize (if (w && s.dev.st != .fault) = true then min (blocksOver s) s.mem.dirty.length else 0) = k
    dsimp only
    refine Aside.trans ?_ (aside_onMem _ _)
    split
    · exact .refl s
    · exact (aside_countStall s).trans (aside_writeBlocks _ _)

theorem aside_touchWord (w : Bool) (g i : Nat) (a b : TWord) (s : State) : Aside s (touchWord w g i a b s).2 := by
  unfold touchWord
  dsimp only
  have h1 : Aside s (if a.payload = b.payload then (0, s) else touchBlock w (5 * g + i / 16) s).2 := by
    split
    · exact .refl s
    · exact aside_touchBlock _ _ s
  split
  · exact h1
  · exact h1.trans (aside_touchBlock _ _ _)

theorem aside_persistSlot (w : Bool) (a : Nat) (x y : TWord) (s : State) : Aside s (persistSlot w a x y s).2 := by
  unfold persistSlot
  split
  · split
    · exact aside_touchWord _ _ _ _ _ s
    · exact .refl s
  · exact .refl s

theorem aside_writeLive (w : Bool) (a : Nat) (x : TWord) (s : State) : Aside s (writeLive w a x s).2 := by
  unfold writeLive
  dsimp only
  refine (aside_persistSlot w a (liveWord s a) x s).trans ?_
  refine Aside.trans (t := onImg (fun i => { i with live := writeAt TWord.empty i.live a x }) (persistSlot w a (liveWord s a) x s).2)
    ⟨rfl, rfl, rfl, rfl⟩ ?_
  split
  · exact .refl _
  · exact aside_mirror _ _

theorem aside_writeRunning (a : Nat) (x : TWord) (s : State) : Aside s (writeRunning a x s).2 := by
  unfold writeRunning
  dsimp only
  refine (aside_writeLive true a x s).trans ⟨rfl, ?_, rfl, rfl⟩
  simp only [onImg_img]
  split <;> rfl

/-! ### Triggers -/

theorem aside_headFreeze (s : State) : Aside s (headFreeze s) := by
  unfold headFreeze
  split
  · exact ⟨rfl, rfl, rfl, rfl⟩
  · exact .refl s

theorem aside_endFreeze (n : Nat) (s : State) : Aside s (endFreeze n s) := by
  unfold endFreeze
  refine Aside.trans ?_ (aside_headFreeze _)
  exact ⟨rfl, rfl, rfl, rfl⟩

theorem aside_emptyFreezes (k : Nat) (s : State) : Aside s (emptyFreezes k s) := by
  induction k generalizing s with
  | zero => exact .refl s
  | succ k ih =>
    unfold emptyFreezes
    split
    · split
      · exact (aside_endFreeze _ s).trans (ih _)
      · exact .refl s
    · exact .refl s

theorem aside_startFreeze (n : Nat) (s : State) : Aside s (startFreeze n s) := by
  unfold startFreeze
  split
  · refine Aside.trans ?_ (aside_emptyFreezes _ _)
    refine Aside.trans ?_ (aside_headFreeze _)
    exact ⟨rfl, rfl, rfl, rfl⟩
  · exact ⟨rfl, rfl, rfl, rfl⟩

theorem aside_fireTrigger (n src c : Nat) (w : TWord) (s : State) : Aside s (fireTrigger n src c w s).2 := by
  unfold fireTrigger
  dsimp only
  split
  · exact .refl s
  · split
    · unfold release releaseIn
      exact (aside_onTask n s _).trans (aside_startFreeze _ _)
    · unfold latchTrigger
      split <;> exact aside_onTask n s _

theorem aside_foldl {α : Type} (f : State → α → State) (h : ∀ s a, Aside s (f s a)) (l : List α) (s : State) :
    Aside s (l.foldl f s) := by
  induction l generalizing s with
  | nil => exact .refl s
  | cons a r ih => exact (h s a).trans (ih _)

theorem aside_withTriggers (l : List Nat) (f : State → State) (s : State) (h : Aside s (f s)) : Aside s (withTriggers l f s) := by
  unfold withTriggers
  exact h.trans (aside_foldl _ (fun u _ => aside_foldl _ (fun v n => aside_fireTrigger n _ _ _ v) _ u) _ _)

/-! ### Dispatch -/

/-- Dispatch takes free engines and asks for stops: an engine that runs a task goes on with its registers. -/
theorem same_dispatchOne {e n : Nat} {s : State} (m : Nat) (h : (getEng s e).task = some n) : SameEngine e s (dispatchOne m s) := by
  have hl := eng_in_table s e n h
  have stop : ∀ d a t, (getEng t e).task = some n →
      SameEngine e t (onEng d (fun g => { g with preemptFor := some m, preemptAt := a }) t) := by
    intro d a t ht
    by_cases hd : e = d
    · subst hd
      exact ⟨rfl, rfl, rfl, some m, a, getEng_onEng_same t e _ (eng_in_table t e n ht)⟩
    · exact ⟨rfl, rfl, rfl, _, _, getEng_onEng_other t d e _ hd⟩
  unfold dispatchOne
  split
  · rename_i d hf
    have hfree := List.find?_some hf
    simp only [Bool.and_eq_true, engineFree, Bool.or_eq_true, Bool.not_eq_true'] at hfree
    have hde : e ≠ d := by
      rintro rfl
      rw [h] at hfree
      simp at hfree
    unfold assign
    split
    · dsimp only
      refine SameEngine.trans ?_ (((aside_onTask m _ _).trans (aside_onAct m _ _)).same e)
      refine ⟨by split <;> rfl, by split <;> rfl, by split <;> rfl, (getEng s e).preemptFor, (getEng s e).preemptAt, ?_⟩
      split
      · rename_i hdual
        have hde2 : e ≠ d + 1 := by
          rintro rfl
          have h2 := hfree.2.2
          rw [hdual] at h2
          rw [h] at h2
          simp at h2
        exact (getEng_onEng_other _ (d + 1) e _ hde2).trans (getEng_onEng_other s d e _ hde)
      · exact getEng_onEng_other s d e _ hde
    · exact .refl e s
  · split
    · exact .refl e s
    · split
      · unfold requestStop
        dsimp only
        split
        · refine (stop _ _ s h).trans (stop _ _ _ ?_)
          obtain ⟨-, -, -, p, _, hp⟩ := stop (by assumption) s.dev.now s h
          rw [hp]; exact h
        · exact stop _ _ s h
      · exact .refl e s

theorem same_dispatch {e n : Nat} {s : State} (h : (getEng s e).task = some n) : SameEngine e s (dispatch s) := by
  unfold dispatch
  split
  · exact .refl e s
  · have : ∀ (l : List Nat) (t : State), (getEng t e).task = some n →
        SameEngine e t (l.foldl (fun u m => dispatchOne m u) t) := by
      intro l
      induction l with
      | nil => intro t _; exact .refl e t
      | cons m r ih =>
        intro t ht
        have h1 := same_dispatchOne m ht
        refine h1.trans (ih _ ?_)
        obtain ⟨-, -, -, p, _, hp⟩ := h1
        rw [hp]; exact ht
    exact this _ s h

/-! ### Operations -/

theorem aside_timerLead (n : Nat) (s : State) : Aside s (timerLead n s) := by
  unfold timerLead
  dsimp only
  split
  · split
    · unfold beginLead
      split
      · exact .refl s
      · exact aside_onMem s _
    · exact .refl s
  · exact .refl s

theorem aside_setLegacy (a : Nat) (w : BitVec 16) (s : State) : Aside s (setLegacy a w s) := by
  unfold setLegacy
  exact (aside_onMem s _).trans (aside_mirror _ _)

/-- What an operation on the outside leaves to the engine that makes it. -/
theorem same_perform {e n m : Nat} {s : State} (op : XOp) (h : (getEng s e).task = some m)
    (hop : op ≠ .timeNow) : SameEngine e s (perform n e op s).2.2 := by
  have after : ∀ t, Aside s t → SameEngine e s (dispatch t) := by
    intro t ht
    refine (ht.same e).trans (same_dispatch (n := m) ?_)
    unfold getEng at h ⊢
    rw [ht.engines]
    exact h
  cases op with
  | readData a => exact .refl e s
  | readSlot a => exact .refl e s
  | readDesc a k => exact .refl e s
  | readLegacy a => exact .refl e s
  | writeSlot a w =>
    simp only [perform]
    refine SameEngine.trans ?_ ((aside_onAct n _ _).same e)
    have hw : Aside s (withTriggers [a] (fun _ => if (!(changeTasks (writeRunning a w s).2 a (effWord s a)
        (effWord (writeRunning a w s).2 a)).isEmpty) = true then advance (engineNow s e) (writeRunning a w s).2
          else (writeRunning a w s).2) s) := by
      apply aside_withTriggers
      split
      · exact (aside_writeRunning a w s).trans (aside_advance _ _)
      · exact aside_writeRunning a w s
    split
    · rename_i hf
      simp only [hf, if_true] at hw ⊢
      exact after _ hw
    · rename_i hf
      simp only [hf, if_false, Bool.false_eq_true] at hw ⊢
      exact hw.same e
  | writeLegacy a w => exact (aside_setLegacy a _ s).same e
  | putLegacyBit a k w => exact (aside_setLegacy a _ s).same e
  | raise t w =>
    simp only [perform]
    apply after
    unfold raiseTask
    split
    · exact (aside_advance _ s).trans (aside_fireTrigger _ _ _ _ _)
    · exact aside_advance _ s
  | timerStart t =>
    simp only [perform]
    split
    · exact (((aside_advance _ s).trans (aside_onTask t _ _)).trans (aside_timerLead t _)).same e
    · exact .refl e s
  | timerStop t =>
    simp only [perform]
    split
    · exact (aside_onTask t s _).same e
    · exact .refl e s
  | logEvent c w => exact ((aside_advance _ s).trans (aside_logHw _ _ _)).same e
  | timeNow => exact absurd rfl hop
  | trapped c => exact .refl e s
  | ended => exact .refl e s
  | bufferFull => exact .refl e s

/-- The code that an engine meets is that of the running program in the code store. -/
theorem codeAt_of_store {s t : State} (h : t.chg.running = s.chg.running) (k : t.mem.frames = s.mem.frames) (e pc : Nat) :
    codeAt t e pc = codeAt s e pc := by
  unfold codeAt fetchWord parcel fetchLine storedFrame runningGen
  rw [h, k]

/-- The view after an operation: the same program and task, the same registers, one result more. -/
theorem view_afterOp {e n : Nat} {v : View} {s : State} (op : XOp) (hop : op ≠ .timeNow)
    (ht : (getEng s e).task = some n) (hv : viewOf s e = some v) :
    ∃ w, viewOf (afterOp n e op s) e = some w ∧ w.p = v.p ∧ w.d = v.d ∧ w.e = v.e ∧ w.s.img.descs = v.s.img.descs ∧
      w.g.regs = v.g.regs ∧ w.g.pc = v.g.pc ∧ w.g.ctxBad = v.g.ctxBad ∧ w.g.lgc = v.g.lgc ∧
      w.g.results = v.g.results ++ [(perform n e op s).1] ∧ (∀ pc, codeAt w.s w.e pc = codeAt v.s v.e pc) := by
  obtain ⟨h1, h2, h4, p, b, h3⟩ := same_perform op ht hop
  have ht' : (getEng (perform n e op s).2.2 e).task = some n := by rw [h3]; exact ht
  have hl := eng_in_table _ e n ht'
  have hg : getEng (afterOp n e op s) e = { getEng s e with
      preemptFor := p, preemptAt := b, results := (getEng s e).results ++ [(perform n e op s).1]
      clk := (getEng s e).clk + 10 * (perform n e op s).2.1 } := by
    unfold afterOp pushResult
    rw [getEng_onEng_same _ e _ (by simpa [onEng, onScan, modifyNth] using hl), getEng_onEng_same _ e _ hl, h3]
  unfold viewOf at hv ⊢
  rw [hg]
  have hr : (afterOp n e op s).chg.running = s.chg.running := h1
  rw [hr]
  simp only [ht] at hv ⊢
  cases hp : s.chg.running with
  | none => rw [hp] at hv; exact absurd hv (by simp)
  | some q =>
    rw [hp] at hv
    simp only [Option.map_eq_some_iff] at hv ⊢
    obtain ⟨d, hd, rfl⟩ := hv
    exact ⟨_, ⟨d, hd, rfl⟩, rfl, rfl, rfl, h2, rfl, rfl, rfl, rfl, rfl, fun pc => codeAt_of_store hr h4 e pc⟩

/-- The views that agree with v in all that the plan of an instruction with one operation looks at, with that operation's result. -/
def After (v : View) (r : TWord) (w : View) : Prop :=
  w.p = v.p ∧ w.d = v.d ∧ w.s.img.descs = v.s.img.descs ∧ w.g.regs = v.g.regs ∧ w.g.lgc = v.g.lgc ∧ w.g.results = [r]

theorem reg_after {v w : View} {r : TWord} (h : After v r w) (i : Fin 32) : reg w i = reg v i := by
  unfold reg; rw [h.2.2.2.1]

theorem address_after {v w : View} {r : TWord} (h : After v r w) (sp : Nat) (i : Fin 32) (d : Int) :
    address w sp i d = address v sp i d := by
  unfold address baseOf spaceSize; simp only [reg_after h, h.1, h.2.1]

theorem got_after {v w : View} {r : TWord} (h : After v r w) : got w 0 = some r := by
  unfold got; rw [h.2.2.2.2.2]; rfl

theorem slotRefused_after {v w : View} {r : TWord} (h : After v r w) (a : Nat) (x : TWord) :
    slotRefused w a x = slotRefused v a x := by
  unfold slotRefused descOf; simp only [h.2.2.1]

/-- An instruction that asks for one operation and, under its result, completes: what the engine answers. -/
theorem runInstr_makes {i : Instr} {e n : Nat} {v : View} {s : State} {op : XOp} {f : Effect} (h : Alone i e n v s)
    (hop : op ≠ .timeNow) (hp : sncPlan i v = .need op) (hf : f.ends = false)
    (hq : ∀ w, After v (perform n e op (started e s)).1 w → sncPlan i w = .done f) :
    runInstr e i s = complete false n e (lengthOf i) f (afterOp n e op (started e s)) := by
  have hv : viewOf (started e s) e = some v := h.2.2.2.1
  have hl := eng_in_table s e n h.2.1
  have ht : (getEng (started e s) e).task = some n := by
    unfold started; rw [getEng_onEng_same s e _ hl]; exact h.2.1
  obtain ⟨w, hw, h1, h2, -, h4, h5, h6, h7, h8, h9, h10⟩ := view_afterOp (n := n) op hop ht hv
  have hr : v.g.results = [] := by
    have hg : v.g = getEng (started e s) e := by
      unfold viewOf at hv
      simp only [ht] at hv
      cases hp : (started e s).chg.running with
      | none => rw [hp] at hv; exact absurd hv (by simp)
      | some q =>
        rw [hp] at hv
        simp only [Option.map_eq_some_iff] at hv
        obtain ⟨d, -, rfl⟩ := hv
        rfl
    rw [hg]; unfold started; rw [getEng_onEng_same s e _ hl]
  rw [hr, List.nil_append] at h9
  have hfw : fetched i w = .done f := by
    have hs : sncPlan i w = .done f := hq w ⟨h1, h2, h4, h5, h8, h9⟩
    obtain ⟨-, -, -, -, hpg, -, hc, hk, -⟩ := h
    have hk' : codeAt w.s w.e v.g.pc = some i := by
      obtain ⟨hvs, hve⟩ := viewOf_names hv
      rw [h10, hvs, hve]; exact hk
    unfold fetched
    rw [h2, h6, h7, if_neg (by simp only [hpg]; decide), if_neg (by simp only [hc]; decide), if_neg (by simp [hk']), hs]
  exact runInstr_need h hp hw hfw hf

end Sys2Proof.Machine
end

