-- ==== Sys2Proof/Machine/Pins.lean ====
section
/-! DEFINITION. The levels of the logic outputs (R257, R314, R322 to R324, R390): true is high; none is high impedance. -/

namespace Sys2Proof.Machine

/-- FAULT_N: high through its pull-up, and low in FAULT. -/
def pinFaultN (s : State) : Bool := s.dev.st != .fault

/-- RUN_IND: low through its pull-down, and high in RUN and CHANGING. -/
def pinRunInd (s : State) : Bool := s.dev.st == .run || s.dev.st == .changing

/-- FORCE_IND_N: low while a force is in the table (R99); the table is empty until step 4 of SELFTEST fills it. -/
def pinForceIndN (s : State) : Bool := s.img.forces.isEmpty

/-- PAIR_FAULT_N as the module drives it: low while a fault bit of STAT_DUAL is 1 (R314). -/
def pinPairFaultN (s : State) : Bool := s.scan.dualFault == 0

/-- XSPI_RESET_N and DDR_RESET_N: low until step 3 of BOOT. -/
def pinXspiResetN (s : State) : Bool := !s.fw.norReset

/-- ROLE_OUT: high while the module is cycle master on a pair port and not in FAULT (R322, R324). -/
def pinRoleOut (s : State) : Option Bool :=
  if s.dev.st.configured then some (s.pair.master && s.dev.st != .fault) else none

/-- What PEER_ALIVE_OUT carries (R323): static low, the ALIVE pattern of half-period 500 ns, or the PRIMARY pattern of 1,000 ns. -/
inductive AlivePattern where
  | low | alive | primary
  deriving DecidableEq, Repr

def pinPeerAlive (s : State) : Option AlivePattern :=
  if !s.dev.st.configured then none
  else if s.dev.st = .fault ∨ s.dev.stage = 2 then some .low
  else if s.dev.role = .primary ∨ (s.dev.role = .solo ∧ s.pair.member ∧ s.pair.master) then some .primary
  else some .alive

/-- TIME_PPS_OUT at the latest instant of the state: high for the first millisecond of each whole second of the timebase (R257), and low
through its pull-down before the exit from SELFTEST (R390). -/
def pinTimePps (s : State) : Bool := s.dev.st.configured && decide (ptpNs s s.dev.now % 1000000000 < 1000000)

end Sys2Proof.Machine
end

