-- ==== Sys2Proof/Machine/Wire.lean ====
section
/-! DEFINITION. What stands on the wires: the Ethernet frames of a port (R4, R241) and the Selvedge frames whose layout the spec gives
(R4, R327, R332). Fields are big-endian. -/

namespace Sys2Proof.Machine

/-! ### Ethernet frames (R241) -/

/-- One bit and one byte of the reflected CRC-32 of IEEE 802.3, the FCS of an Ethernet frame (R9). -/
def fcsBit (c : BitVec 32) : BitVec 32 := if c.getLsbD 0 then (c >>> 1) ^^^ 0xEDB88320#32 else c >>> 1
def fcsByte (c : BitVec 32) (b : Byte) : BitVec 32 :=
  fcsBit (fcsBit (fcsBit (fcsBit (fcsBit (fcsBit (fcsBit (fcsBit (c ^^^ b.setWidth 32))))))))
def fcs (b : Bytes) : BitVec 32 := b.foldl fcsByte 0xFFFFFFFF#32 ^^^ 0xFFFFFFFF#32

/-- The group address of downstream frames. -/
def groupAddress : Bytes := [0x0B, 0x4C, 0x57, 0x00, 0x00, 0x00]

/-- A Lacework frame: addresses, the tag with its priority, the EtherType, header and data, padding to 64 bytes, the FCS, whose least
significant byte goes first. -/
def ethernet (dst src : Bytes) (priority vid : Nat) (b : Bytes) : Bytes :=
  let x := dst ++ src ++ [0x81, 0x00] ++ beBytes 2 (8192 * priority + vid) ++ [0x88, 0xB6] ++ b
  let y := x ++ List.replicate (60 - x.length) 0
  y ++ leBytes 4 (fcs y).toNat

/-- A downstream frame of a port; its source is the port's own address. -/
def downstream (s : State) (p priority : Nat) (b : Bytes) : Bytes :=
  ethernet groupAddress (beBytes 6 (portRec s p).mac) priority (portRec s p).vid b

/-- The Lacework frames that a port sends in the cycle in progress, in their order: CONTROL, OUTPUT, SESSION_DOWN; a standby sends the
copies of its partner's (R250, R334). -/
def portFrames (s : State) (p : Nat) : List Bytes :=
  let x := getPort s p
  x.control.toList.map (downstream s p 7) ++ x.outputs.map (fun e => downstream s p 6 e.2) ++
    x.sessionDown.map (fun e => downstream s p 5 e.2) ++
    (s.pair.copies.filter (fun e => e.1 == p)).map (fun e =>
      downstream s p (match byteAt e.2 0 % 16 with
        | 1 => 7
        | 2 => 6
        | _ => 5) e.2)

/-! ### Selvedge frames (R327) -/

/-- A Selvedge frame: header, body, and the CRC-32C over both. -/
def selFrame (type : Nat) (resend : Bool) (epoch lseq tick : Nat) (body : Bytes) : Bytes :=
  let x := [b8 type, b8 (flag resend 0)] ++ beBytes 2 body.length ++ beBytes 4 epoch ++ beBytes 4 lseq ++
    beBytes 4 (tick % 2 ^ 32) ++ body
  x ++ beBytes 4 (crc32c x).toNat

/-- A received Selvedge frame: its type, its header and its body. A frame is valid when it passes its CRC (R326). -/
def parseSel (b : Bytes) : Nat × SelHeader × Bytes :=
  let n := beNat (slice b 2 2)
  let ok := b.length == 20 + n && decide (n ≤ 4096) && beNat (slice b (16 + n) 4) == (crc32c (slice b 0 (16 + n))).toNat
  (byteAt b 0,
    { crcOk := ok, resend := bitOf (byteAt b 1) 0, epoch := beNat (slice b 4 4), lseq := beNat (slice b 8 4),
      tick := beNat (slice b 12 4) }, slice b 16 n)

/-- The bit of a notice kind in the STATUS flags, in the order of R327. -/
def noticeBit : NoticeKind → Nat
  | .fault => 2 | .stage2 => 3 | .leave => 4 | .handoverRequest => 5 | .yielding => 6

/-- The notices among the frames of the last two ticks. -/
def noticeFlags (s : State) : Nat :=
  ([.fault, .stage2, .leave, .handoverRequest, .yielding] : List NoticeKind).foldl (fun n k =>
    n + flag (s.pair.outbox.any (fun e => match e.2.2.2 with
      | .notice j _ => j == k
      | _ => false)) (noticeBit k)) 0

/-- The body of the module's own STATUS (R327). -/
def statusBody (s : State) : Bytes :=
  [b8 s.dev.role.code, b8 s.dev.st.code, b8 (flag s.pair.sideB 0 + flag (eligible s) 1 + noticeFlags s), b8 s.fw.linkMajor] ++
    beBytes 4 ((s.pair.missing.head?).getD s.pair.lseqRx)

def statusFrame (s : State) : Bytes := selFrame 1 false s.pair.epoch s.pair.lseqTx s.dev.tick (statusBody s)

/-- A tagged word in encoding 0 of R332: the payload, then bits [39:32]. -/
def wordWire (w : TWord) : Bytes := beBytes 4 w.payload.toNat ++ [w.tag]

/-- The delta records whose bytes R332 gives: DATA, IMAGE and LEGACY runs, in encoding 0. -/
def runWire : DeltaRec → Option Bytes
  | .data a ws => some ([0x01] ++ beBytes 3 a ++ beBytes 2 ws.length ++ [0] ++ ws.flatMap wordWire)
  | .image a ws => some ([0x02] ++ beBytes 3 a ++ beBytes 2 ws.length ++ [0] ++ ws.flatMap wordWire)
  | .legacy a ws => some ([0x03] ++ beBytes 2 a ++ beBytes 2 ws.length ++ ws.flatMap (fun v => beBytes 2 v.toNat))
  | _ => none

end Sys2Proof.Machine
end

