-- ==== Sys2Proof/Tests/Slice0.lean ====
section
/-! SUPPORT. Tests of the model: ill-formed commands that WellFormed refuses, concrete states that meet the hypotheses of the
statements, clause by clause, and small checks of results against the numbers that spec/ gives. -/

namespace Sys2Proof.Tests

open Sys2Proof.Machine
open Sys2Proof.Safety

/-! ### Small states and requests -/

/-- The block after a start, in state st, with its service core running. -/
def ready (st : DevState) : State :=
  onFw (fun f => { f with coreUp := true }) (onDev (fun d => { d with st := st }) State.reset)

/-- A plain descriptor on CQ1 with the bytes given from byte 16 on. -/
def ask (b : Bytes) : Request :=
  { origin := .ring 1, time := 0, flags := 0, count := 1, cookie := 7, addr := 0, len := 0, params := sliceZ b 0 48,
    payload := [], object := [], auth := [] }

/-- A descriptor with a payload buffer of n units. -/
def askWith (b : Bytes) (n : Nat) (p : Bytes) : Request := { ask b with flags := 4, addr := 64, len := n, payload := p }

/-- A long operation that has been accepted. -/
def work (op : Nat) (r : Request) : LongOp := newOp op r 4 [] State.reset

/-- The handle table with operation o at index 0. -/
def withOp (o : LongOp) : State → State := onHost (fun h => { h with ops := [(0, o)] })

def program : Program :=
  { gen := 1, keySlot := 0, image := [], codeLength := 4096, dataWords := 16, retentiveWords := 0, trapPolicy := 0,
    layoutHash := [], buildId := [], tasks := [], code := [(0, [])], slotRefs := [], init := [], pageMap := [] }

def beside : Beside :=
  { prog := program, map := ⟨[], [], [], [], [], [], []⟩, saved := [] }

/-- Station 5 on port 0, admitted, in a schedule with it. -/
def withStation (st : MState) (s : State) : State :=
  onNet (fun n =>
    { n with
      cycling := true
      sched := some ⟨1, [⟨1, 0, 10, 20, 0x010000000000⟩, portOff, portOff, portOff], [⟨5, 0, 0, 0, 1, 4, 8, 0, 100⟩]⟩
      stations := [(5, { freshStation with st := st })] }) s

def eventTask : SchedRec := { schedDisabled with kind := 2, trigger := 5, budget := 100, engines := 1 }

/-! ### Witnesses: host commands that every check accepts -/

def noParams : List Cmd :=
  [cmdEcho, cmdGetInfo, cmdGetState, cmdHandleQuery, cmdHandleRelease, cmdHandleCancel, cmdResetDevice, cmdStopProgram,
    cmdTaskSuspend, cmdTaskResume, cmdTaskStatus, cmdForceClear, cmdForceClearAll, cmdNetHaltAllOutputs, cmdPairConfig, cmdPairStatus, cmdTimeGet, cmdLogMark, cmdLogClear, cmdFwStatus,
    cmdEnergyStatus, cmdPowerCapSet, cmdScrubConfig, cmdErrStatus, cmdFioStatus, cmdWdgEvidence, cmdTimeSet, cmdTrimCurveSet]

def scatter (n : Nat) : Bytes := sliceZ (leBytes 8 0x10000 ++ leBytes 4 n) 0 16

/-- Commands with the request and the state in which each is accepted. -/
def others : List (Cmd × Request × State) :=
  [(cmdProgramLoad, askWith (leBytes 4 4096) 1 (scatter 4096), ready .stop),
   (cmdProgramStart, ask [], onDev (fun d => { d with haltReqLow := false }) (onNet (fun n => { n with haltConfigure := false }) (ready .stop))),
   (cmdTaskConfig, ask [], ready .stop),
   (cmdEventTrigger, ask [], onTask 0 (fun t => { t with sched := eventTask }) (ready .run)),
   (cmdEngineSplit, ask [], ready .run),
   (cmdEngineJoin, ask [], ready .run),
   (cmdSlotAlloc, ask (List.replicate 8 0 ++ descBytes { freeDesc with dir := 3, subTy := Ty.int } false), ready .stop),
   (cmdSlotFree, ask [0, 0, 0, 0, 1], onImg (fun i => { i with runs := [(1, 0)] }) (ready .stop)),
   (cmdSlotRead, ask (leBytes 4 0 ++ leBytes 4 1 ++ [2]), ready .run),
   (cmdSnapshotRead, ask (leBytes 4 0 ++ leBytes 4 1), onImg (fun i => { i with descs := [(0, { freeDesc with dir := 3 })] }) (ready .run)),
   (cmdSlotWrite, ask [], onImg (fun i => { i with descs := [(0, { freeDesc with dir := 3 })] }) (ready .run)),
   (cmdForceSet, ask (leBytes 4 0 ++ leBytes 4 7 ++ [2]), onImg (fun i => { i with descs := [(0, { freeDesc with dir := 3 })] }) (ready .run)),
   (cmdForceList, askWith [] 1 [], ready .run),
   (cmdChangeStage, askWith (leBytes 4 4096 ++ leBytes 4 256) 1 (scatter 4352), ready .run),
   (cmdChangeCommit, ask ([0, 1, 0, 0] ++ leBytes 4 1 ++ leBytes 4 1), ready .changing),
   (cmdChangeAbort, ask [], ready .changing),
   (cmdChangeRevert, ask ([0, 1, 0, 0] ++ leBytes 4 1 ++ leBytes 4 1), onChg (fun c => { c with retained := some beside }) (ready .run)),
   (cmdChangeRelease, ask [], onChg (fun c => { c with retained := some beside }) (ready .run)),
   (cmdNetConfig, askWith [] 2 ((List.replicate 4 ([0, 0, 1, 0, 0, 0, 2] ++ List.replicate 25 0)).flatten), ready .stop),
   (cmdNetStart, ask [], withStation .absent (ready .stop)),
   (cmdNetStop, ask [], ready .stop),
   (cmdStationHaltOutputs, ask [5, 0, 0], withStation .admitted (ready .run)),
   (cmdStationAdmit, ask [5], withStation .absent (ready .run)),
   (cmdStationConfigure, askWith [5] 1 [], withStation .admitted (ready .run)),
   (cmdStationFirmware, ask [5, 0, 2], withStation .admitted (ready .run)),
   (cmdStationDiag, askWith [5] 1 [], withStation .admitted (ready .run)),
   (cmdStationRelease, ask [5], withStation .admitted (ready .run)),
   (cmdPairSync, ask [], onPair (fun p => { p with member := true }) (onChg (fun c => { c with running := some program }) (ready .stop))),
   (cmdPairSwitchover, ask [], onDev (fun d => { d with role := .primary }) (ready .run)),
   (cmdPairLeave, ask [], onDev (fun d => { d with role := .primary }) (ready .run)),
   (cmdTimeShift, ask [1, 0, 1], onCal (fun c => { c with valid := true }) (ready .run)),
   (cmdAlarmSet, ask [0, 1], onCal (fun c => { c with valid := true }) (ready .run)),
   (cmdPtpConfig, ask ([0, 0, 0, 0] ++ leBytes 4 1000), ready .run),
   (cmdLogRead, askWith [] 1 [], ready .run),
   (cmdLogExport, askWith [] 1 [], ready .run),
   (cmdFwData, askWith [] 1024 [], onFw (fun f => { f with upd := 1, updN := 2 }) (ready .run)),
   (cmdFwFinish, ask [], onFw (fun f => { f with upd := 1, updN := 2, updNext := 2 }) (ready .run)),
   (cmdFwActivate, ask [], onFw (fun f => { f with upd := 3 }) (ready .run)),
   (cmdFwRevert, ask [], onFw (fun f =>
     { f with running := 1, bankA := { f.bankA with control := true, seals := [⟨true, 0, 1, []⟩] } }) (ready .run)),
   (cmdHoldupConfig, ask (leBytes 4 1000 ++ leBytes 2 1000 ++ [50, 100] ++ leBytes 2 1 ++ leBytes 2 1 ++ leBytes 2 4 ++ leBytes 2 100), ready .run),
   (cmdCellConfig, ask [1, 0, 1, 1], ready .run),
   (cmdAuthNonce 5, ask [], ready .run),
   (cmdDebugUnlock, ask [1, 0, 0, 0, 1], ready .run),
   (cmdFuseRead, ask [0, 0, 1], ready .run),
   (cmdFuseProgram, ask [3, 0, 1], ready .stop),
   (cmdKeyRevoke, ask [0, 1], onSec (fun c => { c with shadows := true, fuses := [0, 4] }) (ready .stop)),
   (cmdMemFill, ask ([1, 0, 0, 0] ++ leBytes 4 0 ++ leBytes 4 1 ++ leBytes 4 7 ++ [2]), ready .stop),
   (cmdMemTest, ask ([0, 0, 0, 0] ++ leBytes 4 0 ++ leBytes 4 1), ready .run),
   (cmdFioConfig, askWith [] 4 ((List.replicate 32 [0, 0, 1, 0, 0, 0, 0, 0]).flatten), ready .stop),
   (cmdFioTestPulse, ask ([0, 0, 0, 1] ++ [2]), onFio (fun f => { f with ch := f.ch.map (fun c => { c with mode := 2 }) }) (ready .run)),
   (cmdWdgConfig, ask [1, 1, 0, 0, 1, 0, 2, 0], ready .run)]

/-- A firmware header for one block whose digest is that of the hash list given (R481). -/
def fwHeader (l : Bytes) : Bytes :=
  sliceZ ([0x5A, 0x46, 0x57, 0x49] ++ leBytes 2 1 ++ leBytes 2 512 ++ leBytes 2 0x6440 ++ [2, 0, 0, 1, 0, 0] ++ leBytes 4 1 ++
    leBytes 4 65536 ++ leBytes 4 4096 ++ leBytes 4 0 ++ sha384 l) 0 512

def fwOffer : Request := askWith [0, 0xFF] 9 (fwHeader (List.replicate 48 0) ++ List.replicate 48 0)

/-! ### WellFormed refuses each ill-formed term -/

theorem test_wf_good_request : WellFormed.command (.echo (ask [])) = true := by decide
theorem test_wf_count : WellFormed.command (.echo { ask [] with count := 256 }) = false := by decide
theorem test_wf_addr : WellFormed.command (.getInfo { ask [] with addr := 2 ^ 48 }) = false := by decide
theorem test_wf_len : WellFormed.command (.getState { ask [] with len := 65536 }) = false := by decide
theorem test_wf_auth_missing : WellFormed.command (.echo { ask [] with flags := 2 }) = false := by decide
theorem test_wf_auth_without_flag : WellFormed.command (.echo { ask [] with auth := [0] }) = false := by decide
theorem test_wf_params_ragged : WellFormed.command (.echo { ask [] with params := List.replicate 49 0 }) = false := by decide
theorem test_wf_params_long : WellFormed.command (.echo { ask [] with params := List.replicate 560 0 }) = false := by decide +kernel
theorem test_wf_payload_long : WellFormed.command (.memFill { ask [] with payload := [0] }) = false := by decide
theorem test_wf_entry :
    WellFormed.command (.descriptorTake 1 ⟨0, false, [List.replicate 63 0], [], []⟩) = false ∧
    WellFormed.command (.cq0DescriptorTake ⟨0, false, [List.replicate 64 0], [], []⟩) = true := by decide

def frame0 : NetFrame := ⟨true, 64, none, 0x88B5, 0, [], 0, false⟩
theorem test_wf_frame : WellFormed.command (.inputFrame 0 frame0) = true := by decide
theorem test_wf_frame_long : WellFormed.command (.inputFrame 0 { frame0 with len := 1537 }) = false := by decide
theorem test_wf_frame_type : WellFormed.command (.announce 0 { frame0 with etherType := 65536 }) = false := by decide
theorem test_wf_frame_bytes : WellFormed.command (.answer 0 { frame0 with bytes := List.replicate 1519 0 }) = false := by decide +kernel
theorem test_wf_frame_vid : WellFormed.command (.notify 0 { frame0 with vid := some 4096 }) = false := by decide

theorem test_wf_header :
    WellFormed.command (.deltaEnd ⟨true, false, 2 ^ 32, 0, 0⟩ 0 0) = false ∧
    WellFormed.command (.deltaEnd ⟨true, false, 0, 2 ^ 32, 0⟩ 0 0) = false ∧
    WellFormed.command (.deltaEnd ⟨true, false, 0, 0, 0⟩ 0 0) = true := by decide
theorem test_wf_offsets :
    WellFormed.command (.registerWrite 65536 4 0) = false ∧ WellFormed.command (.registerWrite 65532 4 0) = true ∧
    WellFormed.command (.msixTableWrite 2048 0) = false ∧ WellFormed.command (.msixTableWrite 2044 0) = true := by decide
theorem test_wf_response : WellFormed.command (.dbgResponse (List.replicate 135 0)) = false := by decide +kernel
theorem test_wf_sample :
    WellFormed.command (.fieldSample ⟨0, 0, 0, List.replicate 31 0, 0, 0⟩) = false ∧
    WellFormed.command (.energyIntervalEnd (List.replicate 5 0) 0 0) = false ∧
    WellFormed.command (.wdgServiceCapture (2 ^ 64)) = false ∧ WellFormed.command (.hostWatchdogExpiry (2 ^ 64)) = false := by decide

/-! ### A small state in which engine 0 runs task 0 -/

def task1 : TaskDef := ⟨eventTask, 0, [0], 16, 0, []⟩
def program1 : Program := { program with dataWords := 64, tasks := [task1], pageMap := [0] }

/-- Registers: G2 to G4 numbers, G5 REAL, G6 BOOL, G7 SLOTREF, G8 DATAREF, G9 and G31 CODEREF, G10 DURATION, G30 the frame base. -/
def regs1 : List TWord :=
  [TWord.empty, TWord.empty, .mk0 Ty.int 5, .mk0 Ty.int 3, .mk0 Ty.word 6, .mk0 Ty.real 0x40490FDB, .mk0 Ty.bool 1,
    .mk0 Ty.slotref 9, .mk0 Ty.dataref 8, .mk0 Ty.coderef 0x10000010, .mk0 Ty.duration 1000, .mk0 Ty.bool 0] ++
    List.replicate 18 TWord.empty ++ [.mk0 Ty.int 2, .mk0 Ty.coderef 0x10000020]

/-- The line of code that holds the word w at program counter 100, in its page's frame, with its CRC (R141, R191). -/
def codeLine (w : BitVec 32) : Bytes :=
  List.replicate 36 0 ++ [w.extractLsb' 16 8, w.extractLsb' 24 8, w.extractLsb' 0 8, w.extractLsb' 8 8] ++ List.replicate 24 0
def zeroLine : Bytes × Word := (List.replicate 64 0, crc32c (List.replicate 64 0))
def codeFrame (w : BitVec 32) : Frame :=
  { page := 0, gens := [1], lines := [zeroLine, (codeLine w, crc32c (codeLine w))] ++ List.replicate 62 zeroLine }

/-- Engine 0 runs task 0 and has the word w before it. Slot 9 is internal and typed INT; slot 10 is an output; the rest are free.
Input channel 24 exists always. -/
def aloneIn (w : BitVec 32) : State :=
  { ready .run with
    scan := { State.reset.scan with
      engines := State.reset.scan.engines.set 0 { Engine.reset with task := some 0, regs := regs1, pc := 100, loc := [(2, .mk0 Ty.int 4)] }
      tasks := State.reset.scan.tasks.set 0 { Task.reset with sched := eventTask, st := .running } }
    chg := { State.reset.chg with running := some program1 }
    img := { State.reset.img with descs := [(9, { freeDesc with dir := 3, ty := Ty.int, subTy := Ty.int }), (10, { freeDesc with dir := 2 })]
                                  live := [(9, .mk0 Ty.int 7), (10, .mk0 Ty.bool 1)] }
    mem := { State.reset.mem with frames := [(7, codeFrame w)], data := [(8, .mk0 Ty.int 4), (9, .mk0 Ty.int 2), (10, .mk0 Ty.bool 0)] } }

def seenIn (w : BitVec 32) : View := ⟨started 0 (aloneIn w), getEng (started 0 (aloneIn w)) 0, program1, task1, 0⟩

/-- Whatever instruction the word spells may begin on engine 0. -/
theorem alone_any (i : Instr) (w : BitVec 32) (h : codeAt (aloneIn w) 0 100 = some i) : Alone i 0 0 (seenIn w) (aloneIn w) := by
  have p : (seenIn w).g.pc = 100 := rfl
  have q : fetchLine (aloneIn w) 100 = some (codeLine w, crc32c (codeLine w)) := rfl
  have r : fetchLine (aloneIn w) 102 = some (codeLine w, crc32c (codeLine w)) := rfl
  refine ⟨rfl, rfl, rfl, rfl, ?_, ?_, rfl, ?_, ?_⟩ <;> rw [p]
  · rfl
  · exact (rfl : pageIn (aloneIn w) 0 = true)
  · exact h
  · simp [fetchPasses, q, r, lineIntact]

/-- NOP. -/
def alone0 : State := aloneIn 0xF4000000
def seen : View := seenIn 0xF4000000

def l (d a b : Fin 32) : LForm := ⟨d, a, b, false, 0⟩

/-! ### Witnesses: Synna Code -/

/-! Words written out field by field from the tables of chapters 06 and 07. -/

/-- ADD G1, G2, G3: I[31], op 0x00, d, a, b, fn 0, qb, xf. -/
theorem test_word_add : decodeSnc 0 0b1_000000_00001_00010_00011_000000_0_000 = some (.add 0 ⟨1, 2, 3, false, 0⟩) := by decide
/-- EQ of op 0x08 and fn 0 with qb, LDI of format W, ADDI of format I with −1, LD of format M in space 1. -/
theorem test_word_forms :
    decodeSnc 3 0b1_010101_00001_00000000000000000100 = some (.ldi 3 ⟨1, 4⟩) ∧
    decodeSnc 3 0b1_000001_00001_00010_111111111111111 = some (.addi 3 ⟨1, 2, 0x7FFF⟩) ∧
    decodeSnc 3 0b1_011100_00001_00111_01_0000000000010 = some (.ld 3 ⟨1, 7, 1, 2⟩) ∧
    decodeSnc 3 0b1_111010_00000_00000_00000_000001_0_000 = some (.endAct 3 ⟨0, 0, 0, false, 0⟩) := by decide
/-- Short forms, with the parcel as I[31:16]: C.MOV of op4 1, C.BR of op4 12, C.SYS of op4 15 with sop 2. -/
theorem test_word_short :
    decodeSnc 0 0b0_0001_00001_00010_0_0000000000000000 = some (.cMov 0 ⟨1, 2, false⟩) ∧
    decodeSnc 0 0b0_1100_00000000011_0000000000000000 = some (.cBr 0 3) ∧
    decodeSnc 0 0b0_1111_00010_000000_0000000000000000 = some (.cSysEnd 0 0) := by decide
/-- A parcel of zeros, op 0x3C, an op of no instruction, a function of none, and a sop above 3 spell none (R145, R146, R164). -/
theorem test_word_none :
    decodeSnc 0 0 = none ∧ decodeSnc 0 0b1_111100_0000000000000000000000000 = none ∧
    decodeSnc 0 0b1_000100_0000000000000000000000000 = none ∧ decodeSnc 0 0b1_000000_00000_00000_00000_001010_0_000 = none ∧
    decodeSnc 0 0b0_1111_00100_000000_0000000000000000 = none := by decide
/-- The word in memory is the word the engine fetches, and its instruction may begin. -/
theorem witness_alone :
    codeAt (aloneIn 0xF4000000) 0 100 = some (.nop 0 (l 0 0 0)) ∧ codeAt (aloneIn 0xF4000010) 0 100 = some (.endAct 0 (l 0 0 0)) ∧
    codeAt (aloneIn 0xF4000020) 0 100 = some (.trap 0 (l 0 0 0)) ∧ codeAt (aloneIn 0xC0100009) 0 100 = some (.ldsA 0 ⟨1, 9⟩) ∧
    codeAt (aloneIn 0xAA100004) 0 100 = some (.ldi 0 ⟨1, 4⟩) ∧ codeAt (aloneIn 0x80110C00) 0 100 = some (.add 0 (l 1 2 3)) := by
  decide
theorem witness_code_words : (encodeSnc (.nop 0 (l 0 0 0))) = some (0, 0xF4000000) ∧
    decodeSnc 0 0xF4000000 = some (.nop 0 (l 0 0 0)) ∧ (0xF4000000 : BitVec 32).getLsbD 31 = true ∧
    decodeSnc 0 0x08440000 = some (.cMov 0 ⟨1, 2, false⟩) ∧ (0x08440000 : BitVec 32).extractLsb' 0 16 = 0 := by decide

theorem witness_plan_done : ∃ f, sncPlan (.nop 0 (l 0 0 0)) seen = .done f ∧ f.ends = false := ⟨_, rfl, rfl⟩
theorem witness_plan_ends : ∃ f, sncPlan (.endAct 0 (l 0 0 0)) seen = .done f ∧ f.ends = true := ⟨_, rfl, rfl⟩
theorem witness_plan_stop : ∃ c u k, sncPlan (.trap 0 (l 0 0 0)) seen = .stop c u k := ⟨_, _, _, rfl⟩
/-- A load of slot 9, which reads outside the engine first. -/
def loads0 : State := aloneIn 0xC0100009
def seenLoad : View := seenIn 0xC0100009
def afterLoad : State := afterOp 0 0 (.readSlot 9) (started 0 loads0)
theorem witness_plan_need : sncPlan (.ldsA 0 ⟨1, 9⟩) seenLoad = .need (.readSlot 9) ∧
    viewOf afterLoad 0 = some ⟨afterLoad, getEng afterLoad 0, program1, task1, 0⟩ ∧
    (match fetched (.ldsA 0 ⟨1, 9⟩) ⟨afterLoad, getEng afterLoad 0, program1, task1, 0⟩ with
      | .done f => !f.ends
      | _ => false) = true := ⟨rfl, rfl, by decide +kernel⟩

/-- The same engine at other program counters and with a damaged context, for what the fetch refuses. -/
def aloneAt (pc : Nat) (bad : Bool) : State := onEng 0 (fun g => { g with pc := pc, ctxBad := bad }) alone0

/-- Another CRC beside the line than its bytes have. -/
def brokenLine : State :=
  onMem (fun m => { m with frames := [(7, { codeFrame 0xF4000000 with lines := [zeroLine, (codeLine 0xF4000000, 0)] })] }) alone0

theorem witness_fetch :
    (mayBegin (aloneAt 4096 false) 0 = true ∧ task1.pages.contains ((getEng (aloneAt 4096 false) 0).pc / 4096) = false) ∧
    (fetchPasses brokenLine 100 = false ∧ pageIn brokenLine 0 = true) ∧
    (codeAt alone0 0 100 = some (.nop 0 (l 0 0 0)) ∧ fetchPasses alone0 100 = true) ∧
    (mayBegin (aloneAt 100 true) 0 = true ∧ (getEng (aloneAt 100 true) 0).ctxBad = true) ∧
    (codeAt (aloneIn 0xF8000000) 0 100 = none ∧ (getEng (aloneIn 0xF8000000) 0).ctxBad = false) := by
  decide +kernel
/-- The last parcel of the page begins a word of 32 bits (R141). -/
def straddling : State :=
  onEng 0 (fun g => { g with pc := 4094 }) (onMem (fun m =>
    { m with frames := [(7, { codeFrame 0 with lines := List.replicate 63 zeroLine ++ [(List.replicate 62 0 ++ [0, 0xF4], 0)] })] }) alone0)
theorem witness_straddle : (fetchWord straddling 4094).getLsbD 31 = true ∧ codeAt straddling 0 4094 = none := by decide +kernel
theorem witness_fetch_nothing : (getEng (ready .run) 0).task = none ∧
    (getEng (onEng 0 (fun g => { g with halted := true }) alone0) 0).halted = true ∧
    (onDev (fun d => { d with role := .standby }) alone0).dev.role = .standby := by decide

theorem witness_frame : ∃ f, sncPlan (.ldi 0 ⟨1, 4⟩) seen = .done f ∧ f.ends = false ∧ f.data = [] ∧ f.marked = none :=
  ⟨_, rfl, rfl, rfl, rfl⟩

/-- The same program on engine 0 of a joined pair. -/
def paired0 : State :=
  onTask 0 (fun t => { t with sched := { t.sched with dual := true } })
    (onEng 1 (fun g => { g with task := some 0, pc := 100, regs := regs1 }) (aloneIn 0xAA100004))
def seenPair : View := ⟨started 0 paired0, getEng (started 0 paired0) 0, program1, task1, 0⟩
theorem witness_paired : mayBegin paired0 0 = true ∧ (getTask paired0 0).sched.dual = true ∧ pageIn paired0 0 = true ∧
    codeAt paired0 0 100 = some (.ldi 0 ⟨1, 4⟩) ∧ fetchPasses paired0 100 = true := by decide +kernel
theorem witness_paired_view : viewOf (started 0 paired0) 0 = some seenPair ∧
    (match fetched (.ldi 0 ⟨1, 4⟩) seenPair with
      | .done f => !f.ends && f.marked.isNone && f.data.isEmpty
      | _ => false) = true := ⟨rfl, by decide +kernel⟩

theorem witness_operands : lBad ⟨1, 2, 3, true, 0⟩ true 0 true true true = false ∧ lBad ⟨1, 2, 0, true, 0⟩ true 0 true true false = false ∧
    poisonous (reg seen 1) = false ∧ poisonous (reg seen 2) = false ∧ poisonous (reg seen 3) = false := by decide

theorem witness_integers : ∃ a b c : TWord, a.ty = Ty.int ∧ b.ty = Ty.int ∧ b.payload = 0 ∧ c.ty = Ty.int ∧ c.payload ≠ 0 :=
  ⟨.mk0 Ty.int 0x80000000, .mk0 Ty.int 0, .mk0 Ty.int 0xFFFFFFFF, by decide⟩
theorem witness_words : ∃ a b c d : TWord, a.ty = Ty.word ∧ b.ty = Ty.word ∧ a.payload = 0 ∧ b.payload.getLsbD 31 = true ∧
    c.ty = Ty.int ∧ d.ty = Ty.int ∧ c.payload = BitVec.ofInt 32 (-32768) ∧ d.payload = BitVec.ofInt 32 (-1) :=
  ⟨.mk0 Ty.word 0, .mk0 Ty.word 0x80000000, .mk0 Ty.int 0xFFFF8000, .mk0 Ty.int 0xFFFFFFFF, by decide⟩

theorem witness_types : lBad (l 1 2 0) false 0 true true false = false ∧ wellFormed (reg seen 2) = true ∧
    lBad (l 1 2 3) false 0 true true true = false ∧ countOk (reg seen 3) = true ∧
    lBad ⟨1, 2, 0, true, 3⟩ true 3 true true false = false ∧ lBad ⟨1, 2, 3, true, 1⟩ true 1 true true true = false := by decide

theorem witness_loads :
    address seen 0 8 0 = .ok 8 ∧ (descOf alone0 9).dir ≠ 0 ∧ address seen 1 7 0 = .ok 9 ∧ address seen 1 7 1 = .ok 10 ∧
    address seen 2 30 0 = .ok 2 ∧ address seen 3 2 0 = .ok 5 ∧ alone0.mem.legacyBad.contains 5 = false ∧
    poisonous (perform 0 0 (.readData 8) (started 0 alone0)).1 = false ∧
    poisonous (perform 0 0 (.readSlot 9) (started 0 alone0)).1 = false ∧
    poisonous (perform 0 0 (.readLegacy 5) (started 0 alone0)).1 = false ∧
    poisonous (readLocal 0 2 (started 0 alone0)).1 = false ∧ (reg seen 2).ty = Ty.int ∧ poisonous (reg seen 30) = false ∧
    lBad ⟨1, 7, 0, false, 3⟩ false 3 true true false = false := by decide

theorem witness_stores :
    slotRefused seen 9 (reg seen 2) = false ∧ slotRefused seen 10 (reg seen 6) = false ∧ (reg seen 2).q = Q.good ∧
    poisonous (reg seen 6) = false ∧ lBad (l 6 7 0) false 0 true true false = false := by decide

theorem witness_makes : ∀ op ∈ [XOp.timerStart 3, .timerStop 3, .raise 3 (reg seen 2), .writeSlot 9 (reg seen 2),
      .writeLegacy 5 (reg seen 2), .logEvent 1 (reg seen 2)],
    (viewOf (afterOp 0 0 op (started 0 alone0)) 0).isSome = true := by decide

theorem witness_branches :
    targetOk seen ((seen.g.pc : Int) + 2 * (8 : Int)) = true ∧ targetOk seen ((seen.g.pc : Int) + 2 * (4096 : Int)) = false ∧
    (reg seen 6).ty = Ty.bool ∧ (reg seen 9).ty = Ty.coderef ∧ (reg seen 9).payload.toNat / 2 ^ 28 = program1.gen % 16 ∧
    targetOk seen ((((reg seen 9).payload.toNat % 2 ^ 28 : Nat)) : Int) = true ∧
    (nth TWord.empty seen.g.regs 31).payload.toNat / 2 ^ 28 = program1.gen % 16 ∧
    targetOk seen (((nth TWord.empty seen.g.regs 31).payload.toNat % 2 ^ 28 : Nat) : Int) = true := by decide

/-- Data memory with a timer block at 16 and a counter block at 24, and bases for them in G12 and G13. -/
def blocks0 : State :=
  onMem (fun m => { m with data := [(16, .mk0 Ty.duration 5), (17, .mk0 Ty.duration 0), (19, .mk0 Ty.int 0),
                                    (24, .mk0 Ty.int 2), (25, .mk0 Ty.int 1), (26, .mk0 Ty.bool 0)] })
    (onEng 0 (fun g => { g with regs := (g.regs.set 12 (.mk0 Ty.dataref 16)).set 13 (.mk0 Ty.dataref 24) }) (aloneIn 0xC8161800))
def seenBlocks : View := ⟨started 0 blocks0, getEng (started 0 blocks0) 0, program1, task1, 0⟩

theorem witness_blocks_alone : Alone (.ton 0 (l 1 12 6)) 0 0 seenBlocks blocks0 := by
  have p : seenBlocks.g.pc = 100 := rfl
  refine ⟨rfl, rfl, rfl, rfl, ?_, ?_, rfl, ?_, ?_⟩ <;> rw [p] <;> decide +kernel
theorem witness_blocks :
    blockBase seenBlocks 12 4 = .ok 16 ∧ blockBase seenBlocks 13 4 = .ok 24 ∧ (reg seenBlocks 6).ty = Ty.bool ∧
    (List.range 4).map (fun k => readData blocks0 (16 + k)) =
      [.mk0 Ty.duration 5, .mk0 Ty.duration 0, TWord.empty, .mk0 Ty.int 0] ∧
    ((List.range 4).map (fun k => readData blocks0 (24 + k))).any poisonous = false ∧
    lBad (l 1 12 6) false 0 true true true = false := by decide

/-- The results that a timer and a counter instruction have when their words have been read. -/
def withResults (ws : List TWord) : View := { seenBlocks with g := { seenBlocks.g with results := ws } }
theorem witness_timer_results :
    (withResults [.mk0 Ty.duration 5, .mk0 Ty.duration 0, .mk0 Ty.stamp 3, .mk0 Ty.int 999, .mk0 Ty.stamp 9]).g.results.length = 5 ∧
    blockBase (withResults [.mk0 Ty.int 2, .mk0 Ty.int 1, .mk0 Ty.bool 0]) 13 3 = .ok 24 ∧
    (0 : Int) + ((999 + ((9 : Word) - 3).toNat) / 1000 : Nat) < 5 := by decide

theorem witness_sampling : lBad (l 1 0 0) false 0 true false false = false ∧ lBad (l 1 14 0) false 0 true true false = false ∧
    inputInUse alone0 24 = true ∧ (.mk0 Ty.int 24 : TWord).payload.toInt = 24 := by decide
theorem witness_local_stores : address seen 2 30 1 = .ok 3 ∧ poisonous (reg seen 4) = false ∧
    sparseWf TWord.empty alone0.mem.data = true ∧ sparseWf (0#16) alone0.mem.legacy = true ∧ alone0.chg.running.isSome = true := by
  decide
theorem witness_legacy_bits : lBad (l 6 2 3) false 0 true true true = false ∧ countOk (reg seen 3) = true ∧
    address seen 3 2 0 = .ok 5 ∧ (reg seen 6).q = Q.good := by decide
theorem witness_system : lBad (l 0 0 0) false 0 false false false = false ∧ lBad (l 1 0 0) false 0 true false false = false ∧
    lBad (l 0 4 0) false 0 false true false = false ∧ (reg seen 4).ty = Ty.word ∧
    lBad ⟨1, 0, 0, false, 3⟩ false 3 true false false = false := by decide
theorem witness_select : (reg seen 6).ty = Ty.bool ∧ poisonous (reg seen 6) = false ∧ lBad (l 6 2 3) true 0 true true true = false := by
  decide

/-! ### A smallest program image and a carry map for it (R158 to R161, R213, R214) -/

/-- A header for a code of one page, the task table at 256, one page record at 4,352 and the signature block at 8,480. -/
def imageHeader : Bytes :=
  [0x53, 0x4E, 0x43, 0x50, 1, 0, 0, 1, 1, 0, 0, 1, 0, 0, 0, 0] ++ leBytes 4 4096 ++ leBytes 4 1024 ++ leBytes 4 0 ++
    leBytes 4 256 ++ leBytes 4 4352 ++ leBytes 4 1 ++ leBytes 4 0 ++ leBytes 4 0 ++ leBytes 4 0 ++ leBytes 4 0 ++ leBytes 4 8480 ++
    List.replicate 196 0
/-- 64 disabled tasks, one page of zeros, and a signature block that a BLANK module does not read (R459). -/
def imageBytes : Bytes :=
  imageHeader ++ (List.range 64).flatMap (fun n => BitVec.ofNat 8 n :: List.replicate 63 0) ++ List.replicate 4224 0
def loadOf : Request := { ask (leBytes 4 8576) with object := imageBytes }
theorem witness_load : ((checkLoad (ready .stop) loadOf).getLeft?).isSome = true := by decide +kernel
/-- A carry map without entries, between two layouts whose hashes are 0. -/
def mapBytes : Bytes :=
  [0x53, 0x4E, 0x43, 0x43, 1, 0, 160, 0] ++ List.replicate 32 0 ++ leBytes 4 160 ++ List.replicate 212 0
def stageOf : Request := { ask (leBytes 4 8576 ++ leBytes 4 256) with object := imageBytes ++ mapBytes }
def stageFrom : State :=
  onChg (fun c => { c with running := some { program1 with layoutHash := List.replicate 48 0 } }) (ready .run)
theorem witness_stage : ((checkStage stageFrom stageOf).getLeft?).isSome = true := by decide +kernel
/-- A carry map that frees slot 9, and a module in which that slot is forced. -/
def freeMap : Bytes :=
  [0x53, 0x4E, 0x43, 0x43, 1, 0, 160, 0] ++ List.replicate 16 0 ++ leBytes 4 160 ++ leBytes 4 1 ++ List.replicate 8 0 ++
    leBytes 4 224 ++ List.replicate 116 0 ++ [2, 0, 0, 0, 9, 0, 0, 0] ++ List.replicate 152 0
def stageForced : State :=
  onImg (fun i => { i with runs := [(9, 0)], descs := [(9, { freeDesc with dir := 3 })], forces := [⟨9, .mk0 Ty.int 1, 0⟩] }) stageFrom
def freeRequest : Request := { ask (leBytes 4 8576 ++ leBytes 4 320) with object := imageBytes ++ freeMap }
theorem witness_stage_forced :
    (match checkStage stageForced freeRequest with
      | .inl b => forcedIn stageForced (b.map.actions.map conflictRange) == [9]
      | .inr _ => false) = true := by decide +kernel

/-! ### Witnesses: events -/

def ringsOn : State :=
  onKq 1 (fun q => { q with enable := true, running := true, sizeLog2 := 4, intEnable := true, armed := true, tail := 2, irqTime := 5, written := [(0, 0), (1, 7)] })
    (onCq 1 (fun q => { q with enable := true, running := true, sizeLog2 := 4, kq := 1, pi := 3 }) (ready .run))
def urgentOn : State :=
  onHost (fun h => { h with urgent := [none] }) (onCq 0 (fun q => { q with enable := true, running := true, sizeLog2 := 4, pi := 1 })
    (ready .run))
/-- A read of one descriptor with the descriptor count given. -/
def readOf (error : Bool) (count : Byte) : HostRead :=
  ⟨0, error, [[0x01, 0x00, 0x01, count] ++ List.replicate 60 0], [], []⟩

/-- No write of URG_COMMAND waits, so the endpoint withholds nothing. -/
theorem none_withheld (s : State) (h : s.host.withheld = []) (u : s.host.urgent = []) (i : Instr) : withholds i s = false := by
  simp [withholds, urgentWrites, h, u]
theorem witness_nothing_withheld : (∀ i, withholds i ringsOn = false) ∧ (∀ i, withholds i (ready .run) = false) :=
  ⟨none_withheld _ rfl rfl, none_withheld _ rfl rfl⟩
/-- Sixteen writes of URG_COMMAND wait: the next one is withheld (R19). -/
theorem witness_withheld :
    withholds (.urgCommand 0 0) (onHost (fun h => { h with urgent := List.replicate 16 (some 0) }) (ready .run)) = true := by decide
theorem witness_rings :
    look (getKq ringsOn 1).written (getKq ringsOn 1).head = some 0 ∧ (getKq ringsOn 1).irqTime ≤ 5 ∧
    hostAccess ringsOn = true ∧ (getCq (ready .run) 1).enable = false ∧ (0x501 : Word).getLsbD 0 = true ∧
    (getCq ringsOn 1).enable = true ∧ (0x500 : Word).getLsbD 0 = false ∧ (getKq (ready .run) 1).enable = false ∧
    (getKq ringsOn 1).enable = true ∧ ringsOn.host.kq.length = 64 ∧ (getCq ringsOn 1).running = true ∧
    bits (2 : Word).toNat 11 0 < (getKq ringsOn 1).size ∧ (getKq ringsOn 1).intEnable = true ∧ (getKq ringsOn 1).armed = true ∧
    0 < (getKq ringsOn 1).unconsumed ∧ 0 < (getKq ringsOn 1).irqTime := by decide
theorem witness_descriptors :
    served (.ring 1) ringsOn = true ∧ nextServed ringsOn = some 1 ∧ (readOf true 1).error = true ∧
    (readOf false 0).error = false ∧ entryCount (readOf false 0) = 0 ∧ entryCount (readOf false 9) = 9 ∧
    entryCount (readOf false 1) = 1 ∧ 1 ≤ (getCq ringsOn 1).published ∧ windowHolds (entryOp (readOf false 1)) ringsOn = false ∧
    served (.ring 0) urgentOn = true ∧ cq0Ready urgentOn = true ∧ urgentOn.host.urgent.head? = some none := by decide
theorem witness_urgent :
    bits (0 : Word).toNat 31 26 ≠ 0x2D ∧ bits (0xB400400A : Word).toNat 31 26 = 0x2D ∧ (ready .run).chg.window = none ∧
    (ready .run).host.urgent = [] := by decide

def busyOp (op : Nat) (cancel : Option Nat) (past : Bool) : State :=
  withOp { work op (ask []) with cancel := cancel, past := past } (ready .stop)
theorem witness_final :
    abortsHere 0xB001 = true ∧ stopAsked (busyOp 0xB001 (some 0) false) { work 0xB001 (ask []) with cancel := some 0 } = true ∧
    stopAsked (busyOp 0xB001 none false) (work 0xB001 (ask [])) = false ∧
    opsProceed (busyOp 0xB001 (some 0) false) = true ∧ opsProceed (busyOp 0xB001 none false) = true ∧
    (work 0xB001 (ask [])).cancel ≠ some 0 ∧ (getOp (busyOp 0xB001 none false) 0).isSome = true ∧ (work 0xB001 (ask [])).done = false := by decide

def wdgOn (armed : Bool) (v : Word) : State :=
  onWdg (fun w => { w with enabled := true, armed := armed, openMs := 1, closeMs := 2, openNow := 1, closeNow := 2, queue := [v] })
    (ready .run)
theorem witness_registers :
    (wdgOn false 0).host.withheld = [] ∧ (wdgOn false 0).host.urgent = [] ∧ hostAccess (wdgOn false 0) = true ∧ wdgCounts (wdgOn false 0) = true ∧ (wdgOn false 0).wdg.queue.length < 4 ∧
    (wdgTo 9000 (onWdg (fun w => { w with queue := [] }) (wdgOn false 0xA5E1))).wdg.armed = false ∧
    (wdgTo 9000 (onWdg (fun w => { w with queue := [] }) (wdgOn true 0x1E5A))).wdg.armed = true ∧
    wdgOpen (wdgTo 9000 (onWdg (fun w => { w with queue := [] }) (wdgOn true 0x1E5A))).wdg ≤ 9000 ∧
    7999 < wdgOpen (wdgTo 7999 (onWdg (fun w => { w with queue := [] }) (wdgOn true 0x1E5A))).wdg ∧
    (wdgOn false 0).wdg.s + 8000 * (wdgOn false 0).wdg.closeNow ≤ 16000 ∧ (wdgOn false 0).regs.ringErr = 0 := by decide

/-- A debug grant on a provisioned module whose fuses ask for one. -/
def locked : State := onSec (fun c => { c with shadows := true, fuses := [0x1F, 0x10000] }) (ready .stop)
def granted : State := onSec (fun c => { c with grant := some (true, true, 1000) }) locked
/-- A blank module, whose debug level is OPEN. -/
def tapOpen : State := onSec (fun c => { c with shadows := true }) (ready .stop)
theorem witness_debug :
    (selectIr 0x10 locked).sec.ir = 0x10 ∧ (selectIr 0x11 locked).sec.ir = 0x11 ∧
    (selectIr 0x20 granted).sec.ir = 0x20 ∧ mayObserve (selectIr 0x20 locked) = false ∧
    mayObserve (selectIr 0x20 granted) = true ∧ dbgHas 0 (2 ^ 60) = false ∧ dbgHas 5 2 = false ∧ dbgHas 5 0 = true ∧ dbgHas 7 0 = true ∧
    mayControl (selectIr 0x20 locked) = false ∧ mayControl (selectIr 0x20 granted) = true ∧
    tapOpen.dev.st.honoursExtest = true ∧ (selectIr 0x00 tapOpen).sec.ir = 0x00 ∧
    (selectIr 0x00 tapOpen).sec.tlr = false ∧ served .uart (ready .recovery) = true := by decide

def off0 : State := onDev (fun d => { d with st := .off, vaon := false, railsGood := false }) State.reset
def retain0 : State := onDev (fun d => { d with st := .retain, vaon := true, railsGood := false }) State.reset
def holdup (stage : Nat) : State := onDev (fun d => { d with stage := stage }) (ready .holdup)
theorem witness_power :
    (off0.dev.vaon = false ∧ off0.dev.st = .off ∧ off0.dev.railsGood = false) ∧ retain0.dev.st = .retain ∧
    (retain0.dev.railsGood = false ∧ retain0.dev.pwrRstLow = false ∧ retain0.dev.powerFailLow = false) ∧
    ((ready .run).dev.st ≠ .off ∧ (ready .run).dev.st ≠ .retain ∧ (ready .run).dev.st ≠ .holdup) ∧
    ((holdup 1).dev.st = .holdup ∧ (holdup 1).log.stopped = false) ∧
    (onDev (fun d => { d with pwrRstLow := true }) State.reset).dev.st = .boot ∧
    ((holdup 2).dev.stage = 2 ∧ (onLog (fun l => { l with stopped := true }) (holdup 2)).log.stopped = true) ∧
    ((onEnergy (fun e => { e with cfg := { e.cfg with ride := 1 } }) (onDev (fun d => { d with now := 6000000000 }) (holdup 1))).energy.cfg.ride = 1 ∧
      1000 ≤ stage1Time (onDev (fun d => { d with now := 60000000000 }) (holdup 1))) ∧
    ((holdup 2).dev.resetWaits = false ∧ (holdup 2).dev.powerBack = false) := by decide

def bootReady : State := onFw (fun f => { f with bankA := { f.bankA with control := true, seals := [⟨true, 0, 1, []⟩] } }) State.reset
/-- The state on which BOOT decides. -/
def bootView (s : State) : State :=
  onPair (fun p => { p with sideB := false }) (onSec (fun c => { c with shadows := true }) (startLog s))
theorem witness_boot :
    State.reset.dev.st = .boot ∧ State.reset.dev.pwrRstLow = false ∧ State.reset.dev.powerFailLow = false ∧
    State.reset.dev.startCause ≠ 3 ∧ bootRecovers ⟨0, true, false, true⟩ (bootView State.reset) = true ∧
    bootRecovers ⟨0, false, false, true⟩ (bootView State.reset) = false ∧ bootBank (countPowerCycle (bootView State.reset)) = none ∧
    bootRecovers ⟨0, false, false, true⟩ (bootView bootReady) = false ∧ bootBank (countPowerCycle (bootView bootReady)) = some 0 ∧
    (countPowerCycle (bootView bootReady)).fw.failed < 2 := by decide
theorem witness_starts :
    ((ready .selftest).fw.coreUp = true ∧ (loadCurve (ready .selftest)).dev.cfgValid = false) ∧
    (onDev (fun d => { d with cfgValid := true, cfgFormat := d.cfgFormat }) (ready .selftest)).dev.cfgValid = true ∧
    ((onPair (fun p => { p with deciding := some 0, line := 2 }) (ready .stop)).pair.line = 2) ∧
    ((onPair (fun p => { p with deciding := some 0, line := 0 }) (onDev (fun d => { d with now := 600000000 }) (ready .stop))).dev.now
      = 600000000) ∧
    ((onDev (fun d => { d with resetScope := some 2 }) (ready .stop)).dev.resetScope = some 2) ∧
    ((ready .run).dev.st = .run ∧ (ready .run).sec.coreHeld = false ∧ (ready .run).fw.coreUp = true) ∧
    ((onFw (fun f => { f with coreUp := false }) (ready .run)).fw.coreUp = false) ∧
    (dieUp (ready .run) = true ∧ (ready .run).dev.st.configured = true ∧ (ready .run).dev.role = .solo) := by decide


def windowed (halt : Bool) : State :=
  onChg (fun c => { c with window := some ⟨0, 0, 0, 0, [], 0, 0, halt, false, 0⟩ }) (ready .run)
theorem witness_scan :
    dieUp (ready .run) = true ∧ (windowed false).chg.window.isSome = true ∧
    (onScan (fun x => { x with freezes := [3] }) (ready .run)).scan.freezes.head? = some 3 ∧
    ((getEng (onEng 0 (fun g => { g with preemptFor := some 1 }) alone0) 0).task = some 0 ∧
      (getEng (onEng 0 (fun g => { g with preemptFor := some 1 }) alone0) 0).preemptFor.isSome = true) ∧
    ((getTask (onTask 0 (fun t => { t with timer := some 5 }) (ready .run)) 0).timer = some 5) ∧
    (getPair (onScan (fun x => { x with pairs := x.pairs.set 0 .verifying }) (ready .stop)) 0 = .verifying) ∧
    ((ready .stop).scan.pairs.length = 8 ∧ (ready .stop).scan.engines.length = 16 ∧ pairOp (ready .stop) 0x1009 0 = none) := by
  decide

def activation0 : Activation :=
  { tick := 0, releasedAt := 0, capture := 0, source := 5, coalesced := 0, arg := TWord.empty, frozen := true, ctx := none,
    fabricTicks := 0, writes := [], ending := none }
/-- Task 0 has an activation that has run for longer than its budget. -/
def overBudget : State := onTask 0 (fun t => { t with act := some activation0 }) alone0
theorem witness_budget : budgetReached overBudget 0 (advance 6000000 overBudget).dev.now = true := by decide +kernel

def fullPair : State :=
  onEng 1 (fun g => { g with issued := some (.bufferFull, .nop 1 (l 0 0 0)) })
    (onEng 0 (fun g => { g with issued := some (.bufferFull, .nop 0 (l 0 0 0)) }) paired0)
theorem witness_commit : (getEng fullPair 0).task = some 0 ∧
    (getEng fullPair 0).issued = some (.bufferFull, .nop 0 (l 0 0 0)) ∧
    (getEng fullPair 1).issued = some (.bufferFull, .nop 1 (l 0 0 0)) ∧ (commitPair 0 0 fullPair).1 = true := by decide
/-- The two buffers differ: the commit finds a mismatch. -/
def splitPair : State := onEng 1 (fun g => { g with buf := [(1, .mk0 Ty.int 1)] }) fullPair
theorem witness_commit_mismatch : (commitPair 0 0 splitPair).1 = false := by decide

/-- The page of the running program is resident by plan and absent, with its line CRC table kept. -/
def lacking : State :=
  keepTable program1 (onMem (fun m => { m with frames := [], resident := [(1, 0)] }) alone0)
/-- The same with a store in which nothing is left beside the reserve. -/
def crowded : State :=
  onMem (fun m => { m with frames := (List.range 2032).map (fun i => (i, { page := i + 5, gens := [1], lines := [] })) }) lacking
theorem witness_fill :
    (pagerActive lacking = true ∧ (nextFills lacking).contains (1, 0) = true ∧ frameLeft lacking 1 0 = true) ∧
    (pagerActive crowded = true ∧ (nextFills crowded).contains (1, 0) = true ∧ frameLeft crowded 1 0 = false ∧
      evictPage crowded = some 0) := by decide +kernel
theorem witness_frames :
    (progOf lacking 1).isSome = true ∧ stored lacking 1 0 = false ∧ failingLine lacking 1 0 (codePage program1 0) = none ∧
    twinFrame lacking 0 (codePage program1 0) = none ∧ freeFrame lacking = some 0 ∧
    failingLine (onMem (fun m => { m with tables := [] }) lacking) 1 0 (codePage program1 0) = some 0 := by decide +kernel
/-- Engine 0 waits at a line of frame 7. -/
theorem witness_refetch :
    look lacking.mem.frames 7 = none ∧ (look alone0.mem.frames 7).isSome = true ∧ alone0.dev.st ≠ .fault ∧
    (codeFrame 0xF4000000).gens.contains (runningGen alone0) = true ∧ progOf alone0 (runningGen alone0) = some program1 ∧
    linePasses (keepTable program1 alone0) 1 0 0 (lineBytes (codePage program1 0) 0) = true ∧
    linePasses alone0 1 0 0 (lineBytes (codePage program1 0) 0) = false := by decide +kernel
def badPage (archive : Bool) : State :=
  onChg (fun c => { c with archive := if archive then some (1, 0, imageBytes) else none })
    (onMem (fun m => { m with badPages := [(1, 0)] }) lacking)
theorem witness_rebuild :
    (nextRebuild (badPage true) = some (1, 0) ∧ pagerActive (badPage true) = true ∧ firmwareServes (badPage true) = true ∧
      (freeFrame (badPage true)).isSome = true ∧ (badPage true).mem.spares < 256) ∧
    (match archivedPage (badPage true) 1 0 with
      | some b => failingLine (badPage true) 1 0 b == none
      | none => false) = true ∧ archivedPage (badPage false) 1 0 = none := by decide +kernel
theorem witness_writer :
    writerReady (writeMarker (onMem (fun m => { m with dirty := [(0, 0)], groups := [(0, .slots 0)] })
      (onDev (fun d => { d with now := 6000000 }) (ready .run)))) = true ∧ (ready .run).dev.st ≠ .off := by decide
theorem witness_interval_proceeds : opsProceed (sampleBank 0 (ready .run)) = true ∧
    opsProceed (sampleBank 0 (onFw (fun f => { f with coreUp := false }) (ready .run))) = false := by decide
theorem witness_interval : (meterStage (onEnergy (fun e =>
      { e with rails := List.replicate 6 0, samples := [0], average := 0 }) (advance 0 (ready .run)))).dev.st ≠ .holdup := by decide

theorem witness_clocks :
    State.reset.dev.vaon = true ∧ (onCal (fun c => { c with pendingSet := some c.fields }) State.reset).cal.pendingSet.isSome = true ∧
    nonceCurrent State.reset = none ∧ grantLeft State.reset = 0 ∧ State.reset.dev.railsGood = true ∧ writerOn (ready .run) = true := by
  decide

/-- Port 0 in a mode (0 line, 1 ring, 2 time link), up, in a schedule with station 5 in a state. -/
def portOn (mode : Nat) (st : DevState) (x : Station) : State :=
  onNet (fun n => { n with
    source := 2, tlPort := 0, domain := 0, tb := .acquiring, cycling := true
    ports := modifyNth n.ports 0 (fun p => { p with linkUp := true, oneEnd := 3 })
    sched := some ⟨1, [⟨1, mode, 10, 20, 0x010000000000⟩, portOff, portOff, portOff], [⟨5, 0, 0, 0, 1, 4, 8, 0, 100⟩]⟩
    stations := [(5, x)] }) (ready st)
def upFrame (t : Byte) : NetFrame := ⟨true, 64, none, 0x88B6, 0x010000000000, [5] ++ List.replicate 13 0 ++ [t], 0, false⟩
def ptpFrame : NetFrame := ⟨true, 64, none, 0x88F7, 0, List.replicate 40 0, 0, false⟩
def session0 (st : SState) (grants resends : Nat) : Session :=
  { kind := 1, st := st, handle := none, seq := 1, msgType := 1, body := [], sent := true, grants := grants, resends := resends,
    rejected := false, restarted := false, chunk := 0, chunks := 0, waitCycle := 0, waited := 240000, firstIdent := none, cycle := 0, committed := false }
def talking (st : SState) (grants resends : Nat) : State :=
  portOn 0 .run { freshStation with st := .admitted, session := some (session0 st grants resends) }

theorem witness_network :
    (dieUp (portOn 0 .run freshStation) = true ∧ (portOn 0 .run freshStation).net.cycling = true ∧
      (portOn 0 .run freshStation).net.lastCut ≠ some (portOn 0 .run freshStation).dev.tick) ∧
    upType (upFrame 0x41) = 0x41 ∧ upType (upFrame 0x42) = 0x42 ∧ upType (upFrame 0x43) = 0x43 ∧
    (ptpFrame.etherType = 0x88F7 ∧ isTimeLink (portRec (portOn 0 .run freshStation) 0) = false) ∧
    (isTimeLink (portRec (portOn 2 .run freshStation) 0) = true ∧ portHears (portOn 2 .run freshStation) 0 = true ∧
      ptpThisSecond (portOn 2 .run freshStation) 0 < 64 ∧ servoRuns (portOn 2 .run freshStation) = true ∧
      byteAt ptpFrame.bytes 4 = (portOn 2 .run freshStation).net.domain) ∧
    (lineKey (portOn 1 .run freshStation) 0 = 0 ∧ isRing (portRec (portOn 1 .run freshStation) 0) = true ∧
      3 ≤ (getPort (portOn 1 .run freshStation) 0).oneEnd ∧ (getPort (portOn 1 .run freshStation) 0).broken = false) := by
  decide
theorem witness_timebase :
    (portOn 2 .run freshStation).net.tb ≠ .free ∧
    (onNet (fun n => { n with stepOffset := 5000, threshold := 1000 }) (portOn 2 .stop freshStation)).net.stepOffset.natAbs = 5000 ∧
    (mayStep (portOn 2 .stop freshStation) = true ∧
      (onNet (fun n => { n with stepDue := true }) (portOn 2 .stop freshStation)).net.stepDue = true) ∧
    servoRuns (onNet (fun n => { n with source := 1 }) (portOn 2 .run freshStation)) = true := by decide
theorem witness_sessions :
    (runningSession (talking .opening 4 0) 5 = some (session0 .opening 4 0)) ∧
    (runningSession (talking .opening 4 3) 5 = some (session0 .opening 4 3)) ∧
    (runningSession (talking .waiting 0 0) 5 = some (session0 .waiting 0 0) ∧ (session0 .waiting 0 0).waited = 240000) ∧
    (runningSession (talking .probing 4 0) 5 = some (session0 .probing 4 0)) ∧
    (∃ x, getStn (onDev (fun d => { d with tick := 4000 }) (portOn 0 .run { freshStation with st := .verifying })) 5 = some x ∧
      x.st = .verifying ∧ x.session = none ∧ x.verifyDue = false ∧ x.verifyCycle + 4000 ≤ 4000) ∧
    (∃ x, getStn (onDev (fun d => { d with tick := 240000 }) (portOn 0 .run { freshStation with returning := some (0, 0) })) 5 = some x ∧
      x.returning = some (0, 0)) ∧ sessionsRun (portOn 0 .run freshStation) = true :=
  ⟨by decide, by decide, by decide, by decide, ⟨_, rfl, by decide⟩, ⟨_, rfl, rfl⟩, by decide⟩

def header0 : SelHeader := ⟨true, false, 0, 0, 0⟩
/-- The role, with the link up and the first ports those of the pair. -/
def linked (r : Role) : State :=
  onPair (fun p => { p with linkUp := true, ports := 1 }) (onDev (fun d => { d with role := r }) (ready .run))
theorem witness_link :
    (dieUp (linked .solo) = true ∧ (hear header0 (linked .solo)).dev.role = .solo ∧ (hear header0 (linked .solo)).pair.syncPaused = false) ∧
    ((hear header0 (linked .standby)).dev.role = .standby ∧ (hear header0 (linked .syncing)).dev.role = .syncing ∧
      (hear header0 (linked .standby)).pair.deltas = []) ∧
    (pairPort (hear header0 (linked .solo)) 0 = true ∧ pairPort (hear header0 (linked .solo)) 1 = false) := by decide
/-- Deltas of the two sides of the limit, 2 µs before the boundary t(2): one that waits for more frames, one that comes too late. -/
theorem witness_delta :
    fullTick (linked .standby) 0 = 0 ∧ deltaLate (linked .standby) 0 = false ∧
    deltaLate (onDev (fun d => { d with now := d.tickAt + 3000000 - 12000 }) (linked .standby)) 0 = false ∧
    deltaLate (onDev (fun d => { d with now := d.tickAt + 3000000 - 11999 }) (linked .standby)) 0 = true ∧
    (onPair (fun p => { p with deltas := [(0, [.mark .switch], none)] }) (linked .standby)).pair.deltas =
      [] ++ (0, [.mark .switch], none) :: [] := by decide
theorem witness_pair :
    ((onPair (fun p => { p with takeoverDue := some (0, 1) }) (linked .standby)).pair.takeoverDue = some (0, 1) ∧
      (0 : Nat) ≤ (linked .standby).dev.tick) ∧
    (onPair (fun p => { p with yieldDue := true }) (linked .primary)).pair.yieldDue = true ∧
    ((onPair (fun p => { p with handoverDue := true }) (linked .primary)).pair.handoverDue = true ∧
      (markedDelta (onPair (fun p => { p with deltas := [(0, [.mark .handover], some (1, 2))] }) (linked .standby))).isSome = true ∧
      (linked .standby).pair.handoverAt = none) ∧
    ((onPair (fun p => { p with handoverAt := some 0 }) (linked .standby)).pair.handoverAt = some 0) ∧
    ((linked .solo).pair.linkUp = true ∧ (linked .solo).pair.line ≠ 2 ∧ (linked .solo).pair.syncPhase = 0) ∧
    ((linked .solo).scan.dualFault = 0 ∧ (linked .solo).pair.peerFault = false) ∧
    ((linked .syncing).dev.role = .syncing ∧ (linked .syncing).pair.line = 0) ∧
    ((onPair (fun p => { p with syncPaused := true, syncPhase := 1 }) (linked .primary)).pair.syncPhase ≠ 0 ∧
      (onPair (fun p => { p with syncPaused := true, syncPhase := 1 }) (linked .syncing)).pair.syncPaused = true) := by decide

def fieldOn : State := onFio (fun f => { f with linkUp := true, sampleWaiting := true }) (ready .run)
/-- Channel 3 of the field die as given. -/
def channelOf (x : Channel → Channel) : State := onFio (fun f => { f with ch := modifyNth f.ch 3 x }) fieldOn
theorem witness_field :
    (dieUp fieldOn = true ∧ fieldOn.fio.linkUp = true ∧ fieldOn.fio.sampleWaiting = true ∧ fieldOn.fio.test = none) ∧
    (ready .run).fio.linkUp = false ∧
    (isInput 3 (getCh (channelOf (fun c => { c with mode := 1, filter := 1, diffA := 2, diffB := 2 })) 3) = true ∧
      filterN (getCh (channelOf (fun c => { c with mode := 1, filter := 1, diffA := 2, diffB := 2 })) 3) ≤ 2) ∧
    ((getCh (channelOf (fun c => { c with mode := 1, filter := 1, wbe := true, breakCount := 2 })) 3).broken = false) ∧
    ((getCh (channelOf (fun c => { c with mode := 2 })) 3).outputFault = false ∧
      (getCh (channelOf (fun c => { c with mode := 2, readbackCount := 4 })) 3).readbackFault = false) ∧
    (supplyNext { fieldOn.fio.supplyA with cond := 0, below19 := 4 } = 1 ∧
      supplyNext { fieldOn.fio.supplyA with cond := 1, above19 := 200 } = 0) := by decide
/-- A test pulse in progress on channel 24, and its driver due. -/
def pulsing : State :=
  onFio (fun f => { f with test := some (0, [24], some (24, 0)), command := 0x01000000, configured := true,
                           supplyB := { f.supplyB with cond := 0 }, supplyA := { f.supplyA with cond := 0 } }) fieldOn
theorem witness_pulse : pulsing.fio.testHit = false ∧ heldOff pulsing 24 = false ∧ pulsing.fio.command.getLsbD 24 = true := by decide

/-- A fill that is asked to end, and one that is not. -/
theorem witness_fill_ends :
    stopAsked (withOp { work 0xB001 (ask []) with cancel := some 0 } (ready .stop)) { work 0xB001 (ask []) with cancel := some 0 } = true ∧
    opsProceed (ready .stop) = true ∧ stopAsked (withOp (work 0xB001 (ask [])) (ready .stop)) (work 0xB001 (ask [])) = false := by decide

theorem witness_units :
    (opIndex (withOp { work 0xB003 (ask []) with admitted := true } (ready .run)) 0xB003 = some 0) ∧
    (opIndex (withOp { work 0xA005 (ask []) with past := true, aux := [0, 5, 6] } (ready .stop)) 0xA005 = some 0) ∧
    ((onChg (fun c => { c with traced := [3] }) (ready .run)).chg.traced.contains 3 = true ∧ firmwareServes (ready .run) = true) ∧
    (loadIndex (withOp (work 0x1001 (ask [])) (ready .stop)) = some 0 ∧
      checkLoad (withOp (work 0x1001 (ask [])) (ready .stop)) (ask []) = .inr (stBadParam, 0)) ∧
    (opIndex (withOp (work 0x3001 (ask [])) (ready .run)) 0x3001 = some 0 ∧ (ready .run).chg.staged = none) := by decide

/-- A load and a stage at each of their steps: waiting for admission, admitted, past their cancel point and doomed. -/
def stepsOf (op : Nat) : List LongOp :=
  [work op (ask []), { work op (ask []) with admitted := true, past := true },
    { work op (ask []) with admitted := true, past := true, aux := [7] },
    { work op (ask []) with admitted := true, past := true, doomed := true }]
theorem witness_steps : ∀ o ∈ stepsOf 0x1001 ++ stepsOf 0x3001,
    getOp (withOp o (ready .run)) 0 = some o ∧ o.done = false ∧ o.suspended = false ∧ o.cancel ≠ some 0 ∧
    (o.past = true ∨ stopAsked (withOp o (ready (if o.opcode = 0x1001 then .stop else .run))) o = false) := by decide
theorem witness_stage_partner :
    (ready .run).dev.role ≠ .primary ∧ effState (ready .run) = .run ∧ effState (ready .halted) ≠ .run ∧
    hasStandby (onPair (fun p => { p with partnerRole := some 2 }) (linked .primary)) = true ∧
    hasStandby (onPair (fun p => { p with partnerRole := none }) (linked .primary)) = false := by decide

/-! ### Witnesses: how commands are judged -/

theorem witness_queue : ({ State.reset with pending := [.baseTick, .bucketLeak] } : State).pending = .baseTick :: [.bucketLeak] := by
  decide
theorem witness_shapes : shapes State.reset = true ∧ memories State.reset = true := by decide
theorem witness_well_formed_queue :
    ({ State.reset with pending := [.echo (ask [])] } : State).pending.all WellFormed.command = true := by decide
theorem witness_sparse : sparseWf TWord.empty [(3, .mk0 Ty.int 1), (9, .mk0 Ty.bool 1)] = true := by decide
theorem witness_checks :
    (pathTakes cmdProgramLoad (ask []) (ready .run) = true ∧ structureOk cmdProgramLoad (ask []) (ready .run) = false) ∧
    (pathTakes cmdSlotFree (ask []) (ready .run) = true ∧ structureOk cmdSlotFree (ask []) (ready .run) = true ∧
      stateOk cmdMemFill (ask [1]) (ready .run) = false ∧ structureOk cmdMemFill (ask [1]) (ready .run) = true) ∧
    (structureOk cmdPairSwitchover (ask []) (ready .run) = true ∧ stateOk cmdPairSwitchover (ask []) (ready .run) = true ∧
      legalRole cmdPairSwitchover.op (ready .run).dev.role = false) ∧
    (legalRole cmdTimeShift.op (ready .run).dev.role = true ∧ (cmdTimeShift.range (ask []) (ready .run)).isSome = true) := by decide

/-- A module whose lifecycle is PROVISIONED: what changes it needs a token (R459, R463). -/
def provisioned : State := onSec (fun c => { c with shadows := true, fuses := [0x1F] }) (ready .stop)
theorem witness_auth :
    urgentPath (ask [3, 0, 1]).origin = false ∧ pathTakes cmdFuseProgram (ask [3, 0, 1]) provisioned = true ∧
    judgeEarly cmdFuseProgram (ask [3, 0, 1]) provisioned = none ∧ authNeeded cmdFuseProgram (ask [3, 0, 1]) provisioned = true ∧
    hasAuth (ask [3, 0, 1]) = false ∧
    hasAuth { ask [3, 0, 1] with flags := 2, count := 3, auth := List.replicate 128 0 } = true ∧
    judgeEarly cmdFuseProgram { ask [3, 0, 1] with flags := 2, count := 3, auth := List.replicate 128 0 } provisioned = none ∧
    authorized cmdFuseProgram { ask [3, 0, 1] with flags := 2, count := 3, auth := List.replicate 128 0 } provisioned = false := by
  decide

theorem witness_urgent_path :
    urgentPath (.urg) = true ∧ urgentPath (.ring 0) = true ∧ served .urg (ready .run) = true ∧ (ready .run).chg.window = none ∧
    urgentOps.contains cmdEcho.op = false ∧ urgentOps.contains cmdNetHaltAllOutputs.op = true ∧
    judgeEarly cmdNetHaltAllOutputs { ask [] with origin := .urg, flags := 1 } (ready .run) = none := by decide

theorem witness_completion :
    (ringsOn.host.kq.length = 64 ∧ ringsOn.host.cq.length = 64 ∧ (getCq ringsOn 1).kq < 64 ∧ (getKq ringsOn (getCq ringsOn 1).kq).room = true) ∧
    (getKq (ready .run) (getCq (ready .run) 1).kq).room = false := by decide

/-- An operation with handle 4,096 (index 0, generation 1), done or pending. -/
def handleState (d : Bool) : State :=
  onHost (fun h => { h with ops := [(0, { work 0xB001 (ask []) with done := d })] }) (ready .run)
theorem witness_handles :
    accepted cmdHandleRelease (ask (leBytes 4 (handleOf (handleState true) 0))) (handleState true) = true ∧
    (findOp (handleState true) (handleOf (handleState true) 0)).map (·.done) = some true ∧
    accepted cmdHandleRelease (ask (leBytes 4 (handleOf (handleState false) 0))) (handleState false) = true ∧
    (findOp (handleState false) (handleOf (handleState false) 0)).map (·.done) = some false := by decide

theorem witness_ranges :
    (structureOk cmdForceClear (ask (leBytes 4 262144)) (ready .run) = true ∧ stateOk cmdForceClear (ask (leBytes 4 262144)) (ready .run) = true ∧
      legalRole 0x2006 (ready .run).dev.role = true ∧ pField (ask (leBytes 4 262144)) 16 4 = 262144) ∧
    (structureOk cmdWdgEvidence (ask [3]) (ready .run) = true ∧ stateOk cmdWdgEvidence (ask [3]) (ready .run) = true ∧
      pByte (ask [3]) 16 = 3 ∧ pByte (ask [2, 1]) 16 = 2 ∧ accepted cmdWdgEvidence (ask [2, 1]) (ready .run) = true) ∧
    (structureOk cmdTimeShift (ask [1, 0, 1]) (onCal (fun c => { c with hold := 4, valid := true }) (ready .run)) = true ∧
      stateOk cmdTimeShift (ask [1, 0, 1]) (onCal (fun c => { c with hold := 4, valid := true }) (ready .run)) = true ∧
      pField (ask [0xFF, 0x7F, 1]) 16 2 = 32767 ∧ pField (ask [0, 0x80, 1]) 16 2 = 32768 ∧ pField (ask [0, 0, 1]) 16 2 = 0) := by
  decide

theorem test_accepts_plain : noParams.all (fun c => accepted c (ask []) (ready .run)) = true := by decide
theorem test_accepts_others : others.all (fun x => accepted x.1 x.2.1 x.2.2) = true := by decide
theorem test_accepts_fw_begin : accepted cmdFwBegin fwOffer (ready .stop) = true := by decide +kernel

theorem test_no_bits (n w : Nat) : decodeTableWord n w = none := rfl

/-! ### A token that verifies (R36, R460, R463). The digest of the token is the x coordinate of a point of P-384, and the key is
that point less the base point: with r and s both the digest, both scalars of the verification are 1. -/

def tokenKey : Bytes :=
  [4] ++ beBytes 48 0x7F8C82F2434390F35D0E2B795B46DA118009434D8A48F09F827622BAFBBB3E3A2B30BB3483C7443ABCF32F4AE2A6455A ++
    beBytes 48 0xE0644A94A4DFBF13363E3E2B5592574DF9132EAB978B0651653410A59A9299C2ADBA52E472F6E9EF1397F1CC0FF0F52C
def keyHash : List Word :=
  [0x0FC18340, 0xE2ED3C54, 0xAE760116, 0x2DC5DCED, 0xEE86FD9A, 0xBD618E26,
    0xE0A40C24, 0x779D055F, 0xACC9538B, 0x4C080BD2, 0x7314AF65, 0xA23D461F]
def tokenState : State :=
  onSec (fun c => { c with
    shadows := true, fuses := [0x1F] ++ List.replicate 55 0 ++ keyHash ++ List.replicate 48 0 ++ [0x479B2A12]
    keys := List.replicate 4 none ++ [some tokenKey], nonce := some (2, 0) }) (ready .stop)
def tokenDigest0 : Nat := 0xFE76D30EFE065FDB8147A7D3787CC207EC3B6F7D3A616827F6D2804CEFE614C959C430CDBAA1E9CB955BA36278F75B36
def tokenAuth : Bytes :=
  [0, 1, 0, 0, 0, 0, 0, 0] ++ [2] ++ List.replicate 23 0 ++ beBytes 48 tokenDigest0 ++ beBytes 48 tokenDigest0
def tokenAsk : Request := { ask [3, 0, 1] with flags := 2, count := 3, auth := tokenAuth }
theorem witness_token :
    authNeeded cmdFuseProgram tokenAsk tokenState = true ∧ judgeEarly cmdFuseProgram tokenAsk tokenState = none ∧
    authorized cmdFuseProgram tokenAsk tokenState = true ∧
    (judgeLate cmdFuseProgram tokenAsk (judged cmdFuseProgram tokenAsk (withOp (work 0xA005 (ask [])) tokenState))).isSome = true ∧
    judgeLate cmdFuseProgram tokenAsk (judged cmdFuseProgram tokenAsk tokenState) = none := by
  decide +kernel
/-- The same token a second time fails: the nonce is used (R37). -/
theorem test_token_once : authorized cmdFuseProgram tokenAsk (useNonce tokenState) = false := by decide +kernel

/-! ### Results that the spec's worked examples and tables give -/

/-- 06, worked example: 412.5 STALE and 3.0 with F give 415.5, STALE, with F. -/
theorem test_add_real :
    aluAdd false ⟨false, true, Q.good, Ty.real, 0x40400000⟩ ⟨false, false, Q.stale, Ty.real, 0x43CE4000⟩ = .ok Ty.real 0x43CFC000 false ∧
    (resultWord false [⟨false, true, Q.good, Ty.real, 0x40400000⟩, ⟨false, false, Q.stale, Ty.real, 0x43CE4000⟩] Ty.real 0x43CFC000).bits
      = 0x6443CFC000 := by decide +kernel
/-- 07, worked example: the third activation, across the turn of the timebase. -/
theorem test_timer_across_turn :
    timerUpdate 5000 0x00000F28 ⟨0, 0, some 0xFFFFD8F0⟩ = ⟨13, 880, some 0xFFFFD8F0⟩ ∧
    stepTon 5000 0x00000F28 true ⟨13, 880, some 0xFFFFD8F0⟩ = (⟨13, 880, some 0x00000F28⟩, false) := by decide
/-- 07, worked example: activation 502 reaches the preset and saturates. -/
theorem test_timer_saturates :
    timerUpdate 5000 10000 ⟨4993, 880, some 0⟩ = ⟨5000, 0, some 0⟩ ∧
    (stepTon 5000 10000 true ⟨5000, 0, some 0⟩).2 = true := by decide

def dateOf (cc yy mo dd hh mi ss : Byte) : CalFields := ⟨ss, mi, hh, 1, dd, mo, yy, cc⟩
/-- 16, worked examples: the rollover of the values in the table. -/
theorem test_rollovers :
    rollFields (dateOf 0x20 0x26 0x02 0x30 0x23 0x59 0x59) = { dateOf 0x20 0x26 0x03 0x01 0 0 0 with weekday := 2 } ∧
    rollFields (dateOf 0x20 0x26 0x05 0x00 0x23 0x59 0x59) = { dateOf 0x20 0x26 0x05 0x01 0 0 0 with weekday := 2 } ∧
    rollFields (dateOf 0x20 0x31 0x13 0x31 0x23 0x59 0x59) = { dateOf 0x20 0x32 0x01 0x01 0 0 0 with weekday := 2 } ∧
    rollFields (dateOf 0x20 0x26 0x02 0x03 0x12 0x34 0x7A) = dateOf 0x20 0x26 0x02 0x03 0x12 0x35 0 ∧
    rollFields (dateOf 0x20 0x99 0x12 0x31 0x23 0x59 0x59) = { dateOf 0x21 0x00 0x01 0x01 0 0 0 with weekday := 2 } ∧
    rollFields (dateOf 0x21 0x00 0x02 0x28 0x23 0x59 0x59) = { dateOf 0x21 0x00 0x03 0x01 0 0 0 with weekday := 2 } := by decide

/-- 18, worked example: the window of 40 ms and 100 ms after a good service at tick 1,000,000. -/
def served0 (s : Nat) : State :=
  onWdg (fun w => { w with enabled := true, armed := true, s := s, openMs := 40, closeMs := 100, openNow := 40, closeNow := 100 }) (ready .run)
theorem test_watchdog_edges :
    (wdgOpen (served0 1000000).wdg = 1320000 ∧ wdgClose (served0 1000000).wdg = 1800000) ∧
    (wdgJudge 1320000 0x1E5A (served0 1000000)).wdg.s = 1320000 ∧
    (wdgJudge 1320020 0x1E5A (served0 1320000)).wdg.lastCause = 1 ∧
    (wdgJudge 1320020 0x1E5A (served0 1320000)).wdg.evHost.where1 = 20 ∧
    (wdgTo 2120020 (served0 1320020)).wdg.lastCause = 4 ∧ (wdgTo 2120020 (served0 1320020)).wdg.s = 2120020 ∧
    (wdgTo 2120020 (served0 1320020)).wdg.armed = false := by decide +kernel

/-- R168, R169 and R174 at their edges. -/
theorem test_integer_edges :
    aluAdd false (.mk0 Ty.int 0x7FFFFFFF) (.mk0 Ty.int 1) = .fail cOverflow Ty.int 0x7FFFFFFF ∧
    aluDiv false (.mk0 Ty.int 0xFFFFFFF9) (.mk0 Ty.int 2) = .ok Ty.int 0xFFFFFFFD false ∧
    aluMod false (.mk0 Ty.int 0xFFFFFFF9) (.mk0 Ty.int 2) = .ok Ty.int 0xFFFFFFFF false ∧
    aluClz (.mk0 Ty.word 0) = .ok Ty.int 32 false ∧ aluPopc (.mk0 Ty.word 0xF0F) = .ok Ty.int 8 false := by decide
theorem test_serial_stamps :
    order Ty.stamp 0x00000F28 0xFFFFD8F0 = some .gt ∧ order Ty.stamp 0 0x80000000 = none ∧ order Ty.stamp 5 5 = some .eq := by decide

/-- The CRC-32C of the ASCII digits 1 to 9, the check value of that code; SHA-384 of the empty string and of abc (FIPS 180-4). -/
theorem test_crc : crc32c [0x31, 0x32, 0x33, 0x34, 0x35, 0x36, 0x37, 0x38, 0x39] = 0xE3069283 := by decide +kernel
theorem test_sha384 :
    beNat (sha384 [0x61, 0x62, 0x63]) =
      0xCB00753F45A35E8BB5A03D699AC65007272C32AB0EDED1631A8B605A43FF5BED8086072BA1E7CC2358BAECA134C825A7 := by decide +kernel

/-- One step: the command at the front runs, the rest waits. -/
theorem test_step : (match step ({ aloneIn 0xAA4FFFFF with pending := [.ldi 0 ⟨4, 0xFFFFF⟩, .bucketLeak] } : State) with
    | .next t => decide (nth TWord.empty (getEng t 0).regs 4 = .mk0 Ty.int 0xFFFFFFFF) && decide (t.pending = [.bucketLeak]) &&
        (getEng t 0).pc == 104
    | _ => false) = true := by decide +kernel

end Sys2Proof.Tests
end

section
/-! SUPPORT. What the ring registers, the taking of descriptors, the urgent path and the final completions do, one lemma per case
(R26 to R30, R33, R41 to R43, R53 to R56), and the settlement of O48. -/

namespace Sys2Proof.Proofs

open Sys2Proof.Machine
open Sys2Proof.Safety

variable {s : State}

/-! ### Registers of the rings -/

theorem bitOf_toNat (v : Word) (i : Nat) : bitOf v.toNat i = v.getLsbD i := by
  rw [← BitVec.testBit_toNat, Nat.testBit_eq_decide_div_mod_eq]
  rfl

theorem onKq_onKq (n : Nat) (f g : KqRing → KqRing) (s : State) : onKq n g (onKq n f s) = onKq n (g ∘ f) s := by
  simp only [onKq, onHost, modifyNth, List.modify_modify_eq]

theorem getKq_onKq_same (f : KqRing → KqRing) {n : Nat} (h : n < s.host.kq.length) :
    getKq (onKq n f s) n = f (getKq s n) := by
  simp [getKq, onKq, nth, modifyNth, List.getElem?_eq_getElem h]

theorem getKq_onKq_other (f : KqRing → KqRing) {n k : Nat} (h : k ≠ n) : getKq (onKq n f s) k = getKq s k := by
  simp [getKq, onKq, nth, modifyNth, h.symm]

/-- An update of a completion ring goes by what it makes of the ring as it stands. -/
theorem onKq_congr {n : Nat} {f g : KqRing → KqRing} (h : f (getKq s n) = g (getKq s n)) : onKq n f s = onKq n g s := by
  have hm : modifyNth s.host.kq n f = modifyNth s.host.kq n g := by
    apply List.ext_getElem?
    intro i
    by_cases hi : n = i
    · subst hi
      cases hq : s.host.kq[n]? with
      | none => simp [modifyNth, hq]
      | some q => simpa [modifyNth, getKq, nth, hq] using h
    · simp [modifyNth, hi]
  simp only [onKq, onHost, hm]

/-- A host's access that reaches BAR0 and does not wait for credit has its effect. -/
theorem hostReg_reaches {i : Instr} (f : State → State) (h : hostAccess s = true) (hw : withholds i s = false) :
    hostReg i f s = .next (keep s (f s)) := by
  simp [hostReg, finish, keep, h, hw]

/-- A host's access that reaches BAR0 while posted-write credit is withheld waits behind those before it (R19). -/
theorem hostReg_waits {i : Instr} (f : State → State) (h : hostAccess s = true) (hw : withholds i s = true) :
    hostReg i f s = .next (keep s (onHost (fun h => { h with withheld := h.withheld ++ [i] }) s)) := by
  simp [hostReg, finish, keep, h, hw]

theorem enableCq_disabled {n : Nat} {v : Word} (he : (getCq s n).enable = false) (hv : v.getLsbD 0 = true) {u : State}
    (hu : u = onCq n (fun q => { q with kq := bits v.toNat 21 16, sizeLog2 := bits v.toNat 11 8 }) s) :
    enableCq n v s =
      (if 4 ≤ bits v.toNat 11 8 ∧ bits v.toNat 11 8 ≤ 12 ∧ (getKq u (bits v.toNat 21 16)).enable = true then startCq n u
       else stopRing n 4 u) := by
  simp only [enableCq, writeCqCtrl, bitOf_toNat, he, hv, ← hu, Bool.not_false, Bool.not_true, Bool.and_self, if_true,
    Bool.false_eq_true, if_false, Bool.and_eq_true, decide_eq_true_eq, and_assoc]

theorem disableCq_enabled {n : Nat} {v : Word} (he : (getCq s n).enable = true) (hv : v.getLsbD 0 = false) :
    disableCq n v s = drain (onCq n (fun q => { q with enable := false, running := false }) s) := by
  simp only [disableCq, writeCqCtrl, bitOf_toNat, he, hv, Bool.not_false, Bool.and_self, if_true, Bool.false_eq_true, if_false]

theorem enableKq_disabled {n : Nat} {v : Word} (he : (getKq s n).enable = false) (hv : v.getLsbD 0 = true) {u : State}
    (hu : u = onKq n (fun q =>
      { q with intEnable := v.getLsbD 24, vector := bits v.toNat 22 16, sizeLog2 := bits v.toNat 11 8 }) s) :
    enableKq n v s =
      (if 4 ≤ bits v.toNat 11 8 ∧ bits v.toNat 11 8 ≤ 12 then startKq n u else onKq n (fun q => { q with error := 4 }) u) := by
  have hk : onKq n (fun q => { q with sizeLog2 := bits v.toNat 11 8 })
      (onKq n (fun q => { q with intEnable := v.getLsbD 24, vector := bits v.toNat 22 16 }) s) = u := by
    rw [onKq_onKq, hu]; rfl
  simp only [enableKq, writeKqCtrl, bitOf_toNat, he, hv, hk, Bool.not_false, Bool.not_true, Bool.and_self, if_true,
    Bool.false_eq_true, if_false, Bool.and_eq_true, decide_eq_true_eq]

theorem disableKq_enabled {n : Nat} {v : Word} (he : (getKq s n).enable = true) (hv : v.getLsbD 0 = false) :
    disableKq n v s = onKq n (fun q =>
      { q with intEnable := v.getLsbD 24, vector := bits v.toNat 22 16, enable := false, running := false }) s := by
  simp only [disableKq, writeKqCtrl, bitOf_toNat, he, hv, onKq_onKq, Bool.not_false, Bool.and_self, if_true,
    Bool.false_eq_true, if_false]
  rfl

theorem doorbellWrite_running {n : Nat} {v : Word} (he : (getCq s n).enable = true) (hr : (getCq s n).running = true)
    {u : State} (hu : u = onCq n (fun q => { q with pi := bits v.toNat 11 0 }) s) :
    doorbellWrite n v s =
      drain (if (getCq s n).size ≤ bits v.toNat 11 0 then stopRing n 1 u else onHost (ringDoorbell n) u) := by
  simp only [doorbellWrite, writeCqPi, he, hr, ← hu, Bool.and_self, Bool.not_true, Bool.false_eq_true, if_false]

theorem writeKqHead_inside {n : Nat} {v : Word} (h : bits v.toNat 11 0 < (getKq s n).size) :
    writeKqHead n v s = kqCheck n (flushKq n
      (onKq n (fun q => { q with head := bits v.toNat 11 0, armed := q.armed || v.getLsbD 31 }) s)) := by
  have hs := Nat.not_le.mpr h
  unfold writeKqHead
  dsimp only
  rw [onKq_congr (g := fun q => { q with head := bits v.toNat 11 0, armed := q.armed || v.getLsbD 31 }) (if_neg hs)]

/-- The arm bit leaves the index of a write to RING_KQ_HEAD as it is. -/
theorem bits_index_arm (v : Word) : bits (v ||| 0x80000000#32).toNat 11 0 = bits v.toNat 11 0 := by
  have h : (v ||| 0x80000000#32).toNat % 2 ^ 12 = v.toNat % 2 ^ 12 := by
    rw [BitVec.toNat_or, Nat.or_mod_two_pow]
    simp
  simpa [bits] using h

theorem armKq_inside {n : Nat} {v : Word} (h : bits v.toNat 11 0 < (getKq s n).size) :
    armKq n v s = kqCheck n (flushKq n (onKq n (fun q => { q with head := bits v.toNat 11 0, armed := true }) s)) := by
  have hb : (v ||| 0x80000000#32).getLsbD 31 = true := by simp
  rw [armKq, writeKqHead_inside (by rwa [bits_index_arm]), bits_index_arm, hb]
  simp only [Bool.or_true]

/-- The oldest entry of an armed ring has waited for the time threshold: the vector is raised (R42). -/
theorem completionDue_raises {n us t0 : Nat} (hi : (getKq s n).intEnable = true) (ha : (getKq s n).armed = true)
    (hc : 0 < (getKq s n).unconsumed) (ht : 0 < (getKq s n).irqTime) (hus : (getKq s n).irqTime ≤ us)
    (hl : look (getKq s n).written (getKq s n).head = some t0) :
    completionDue n us s = raiseVector (getKq s n).vector
      (onKq n (fun q => { q with armed := false }) (advance (t0 + 6000 * us) s)) := by
  have hread : ∀ d, readAt d (getKq s n).written (getKq s n).head = t0 := fun d => by simp [readAt, hl]
  have hdue : (getKq s n).due (max s.dev.now (t0 + 6000 * us)) = true := by
    simp only [KqRing.due, hread, Bool.or_eq_true, Bool.and_eq_true, bne_iff_ne, decide_eq_true_eq]
    right
    refine ⟨⟨?_, ?_⟩, ?_⟩ <;> omega
  have hget : getKq (advance (t0 + 6000 * us) s) n = getKq s n := rfl
  simp only [completionDue, if_neg (Nat.ne_of_gt hc), hread, kqCheck, hget, advance_now, hi, ha, hdue, Bool.and_self, if_true]

/-! ### Descriptors and urgent commands -/

/-- The state in which firmware reads ring n in its turn. -/
def inTurn (n : Nat) (s : State) : State :=
  onHost (fun h => { h with lastServed := n, doorbells := h.doorbells.filter (· != n) }) s

theorem execDescriptorTake_inTurn {n : Fin 64} {rd : HostRead} {u : State} (hu : u = advance rd.time s) (hn : n.val ≠ 0)
    (hs : served (.ring n) u = true) (ht : nextServed u = some n.val) :
    execDescriptorTake n rd s = .next (keep s (takeFrom n rd u)) := by
  subst hu
  simp [execDescriptorTake, finish, keep, hn, hs, ht]

theorem takeFrom_error {n : Fin 64} {rd : HostRead} (h : rd.error = true) :
    takeFrom n rd s = stopRing n.val 3 (inTurn n.val s) := by
  simp only [takeFrom, h, if_true, inTurn]

theorem takeFrom_badCount {n : Fin 64} {rd : HostRead} (h : rd.error = false) (hc : entryCount rd = 0 ∨ 8 < entryCount rd) :
    takeFrom n rd s = stopRing n.val 2 (inTurn n.val s) := by
  simp only [takeFrom, h, hc, Bool.false_eq_true, if_false, if_true, inTurn]

theorem takeFrom_serves {n : Fin 64} {rd : HostRead} (h : rd.error = false) (h1 : 1 ≤ entryCount rd) (h8 : entryCount rd ≤ 8)
    (hp : entryCount rd ≤ (getCq (inTurn n.val s) n.val).published) (hw : windowHolds (entryOp rd) (inTurn n.val s) = false) :
    takeFrom n rd s = serveOp (entryOp rd) (requestOf (.ring n) rd (rd.entries.take (entryCount rd)))
      (passEntries n.val (entryCount rd) (inTurn n.val s)) := by
  have hc : ¬(entryCount rd = 0 ∨ 8 < entryCount rd) := by omega
  unfold inTurn at *
  simp only [takeFrom, h, hw, if_neg hc, if_neg (Nat.not_lt.mpr hp), Bool.false_eq_true, if_false]

theorem takeCq0_serves {rd : HostRead} (h : rd.error = false) (hw : windowHolds (entryOp rd) s = false) :
    takeCq0 rd s = serveOp (entryOp rd) (requestOf (.ring 0) rd (rd.entries.take 1))
      (passEntries 0 1 (onHost (fun h => { h with cq0Upto := some (h.cq0Upto.getD (getCq s 0).pi) }) s)) := by
  simp only [takeCq0, h, hw, Bool.false_eq_true, if_false]

theorem execCq0DescriptorTake_ready {rd : HostRead} {u : State} (hu : u = advance rd.time s)
    (hs : served (.ring 0) u = true) (hr : cq0Ready u = true) (hh : u.host.urgent.head? = some none) :
    execCq0DescriptorTake rd s = .next (keep s (drainAll (takeCq0 rd u))) := by
  subst hu
  simp only [execCq0DescriptorTake, finish, keep, hs, hr, hh, Bool.and_self, beq_self_eq_true, if_true]

theorem satTo_eq_min (a b : Nat) : satTo a b = min a b := by
  unfold satTo
  split <;> omega

theorem writeUrg_wrongKey {v : Word} (h : bits v.toNat 31 26 ≠ 0x2D) :
    writeUrg v s = onHost (fun h => { h with keyErrors := min 255 (h.keyErrors + 1) }) s := by
  simp only [writeUrg, if_pos h, satTo_eq_min]

/-- A good write with nothing before it in the queue and no switch window is carried out at once (R54, R55). -/
theorem writeUrg_alone {v : Word} (h : bits v.toNat 31 26 = 0x2D) (hq : s.host.urgent = []) (hw : s.chg.window = none) :
    writeUrg v s = serveUrg v (onHost (fun h => { h with urgent := [] }) s) := by
  simp [writeUrg, drain, drainUrgent, windowHolds, onHost, h, hq, hw]

/-! ### Final completions -/

/-- FINAL_COMPLETION finds operation o, PENDING and not suspended, while firmware runs. -/
theorem execFinalCompletion_pending {idx time : Nat} {io : IoResult} {u : State} {o : LongOp} (hu : u = advance time s)
    (ho : getOp u idx = some o) (hd : o.done = false) (hs : o.suspended = false) (hp : opsProceed u = true) :
    execFinalCompletion idx time io s = .next (keep s
      (if o.opcode = 0xB001 ∧ stopAsked u o = true then cutFill idx o u
       else if abortsHere o.opcode = true ∧ ((o.past = false ∧ stopAsked u o = true) ∨ o.cancel = some 0) then
         endOp idx stAborted [] u
       else finishOp idx io o u)) := by
  subst hu
  simp only [execFinalCompletion, finish, keep, ho, hp, hd, hs, goOn, Bool.not_true, Bool.not_false, Bool.false_eq_true, if_false,
    Bool.and_true, Bool.or_self, Bool.and_eq_true, Bool.or_eq_true, decide_eq_true_eq, beq_iff_eq,
    Bool.not_eq_true']
  by_cases hc : o.opcode = 0xB001 ∧ stopAsked (advance time s) o = true
  · rw [if_pos hc, if_pos hc]
  · rw [if_neg hc, if_neg hc]
    by_cases ha : abortsHere o.opcode = true
    · simp only [ha, if_true, true_and]
    · simp only [ha, if_false, false_and, Bool.false_eq_true]

/-! ### O48 -/

/-- Settles O48: each event is its register write, its taking or its completion, by the lemma of its case. -/
theorem ringAndDescriptorEventsRun : Obligations.RingAndDescriptorEventsRun := by
  unfold Obligations.RingAndDescriptorEventsRun
  refine ⟨fun n v s ha hw => ⟨?cqEnable, ?cqDisable, ?kqEnable, ?kqDisable, ?doorbell, ?head, ?threshold⟩,
    ?descriptor, ?cq0, ?urgent, ?final⟩
  case cqEnable =>
    intro he hv u hu
    rw [← enableCq_disabled he hv hu]
    exact hostReg_reaches (enableCq n.val v) ha (hw _)
  case cqDisable =>
    intro he hv
    rw [← disableCq_enabled he hv]
    exact hostReg_reaches (disableCq n.val v) ha (hw _)
  case kqEnable =>
    intro he hv u hu _
    rw [← enableKq_disabled he hv hu]
    exact hostReg_reaches (enableKq n.val v) ha (hw _)
  case kqDisable =>
    intro he hv hl
    have hn : n.val < s.host.kq.length := by rw [hl]; exact n.isLt
    have hsame := getKq_onKq_same (fun q =>
      { q with intEnable := v.getLsbD 24, vector := bits v.toNat 22 16, enable := false, running := false }) hn
    refine ⟨_, hostReg_reaches (disableKq n.val v) ha (hw _), ?_⟩
    rw [disableKq_enabled he hv]
    exact ⟨congrArg (·.enable) hsame, congrArg (·.running) hsame, fun k hk => getKq_onKq_other _ hk, rfl⟩
  case doorbell =>
    intro he hr u hu
    rw [← doorbellWrite_running he hr hu]
    exact hostReg_reaches (doorbellWrite n.val v) ha (hw _)
  case head =>
    rintro w rfl hlt
    rw [← writeKqHead_inside hlt, ← armKq_inside hlt]
    exact ⟨hostReg_reaches (writeKqHead n.val v) ha (hw _), hostReg_reaches (armKq n.val v) ha (hw _)⟩
  case threshold =>
    intro hi har hc ht us t0 hus hl
    rw [← completionDue_raises hi har hc ht hus hl]
    simp only [Claims.Leaves, exec_completionInterrupt, execCompletionInterrupt, ha, if_true]
    rfl
  case descriptor =>
    rintro n rd s u hu hn hs ht w rfl
    have hx := execDescriptorTake_inTurn hu hn hs ht
    refine ⟨fun h => ?_, fun h hc => ?_, fun h h1 h8 hp hh => ?_⟩
    · exact hx.trans (by rw [takeFrom_error h]; rfl)
    · exact hx.trans (by rw [takeFrom_badCount h hc]; rfl)
    · exact hx.trans (by rw [takeFrom_serves h h1 h8 hp hh]; rfl)
  case cq0 =>
    intro rd s u hu hs hr hh he hw
    exact (execCq0DescriptorTake_ready hu hs hr hh).trans (by rw [takeCq0_serves he hw]; rfl)
  case urgent =>
    rintro v time s u rfl ha
    refine ⟨fun hw => hostReg_waits (s := advance time s) (writeUrg v) ha hw, fun hq hu => ?_⟩
    have hw : withholds (.urgCommand v time) (advance time s) = false := by simp [withholds, urgentWrites, hq, hu]
    have hx : exec (.urgCommand v time) s = .next (keep s (writeUrg v (advance time s))) := hostReg_reaches (writeUrg v) ha hw
    exact ⟨fun hk => hx.trans (by rw [writeUrg_wrongKey hk]),
      fun hk hn => hx.trans (by rw [writeUrg_alone (s := advance time s) hk hu hn])⟩
  case final =>
    intro idx time io s u o hu ho hd hs hp
    have hx := execFinalCompletion_pending (io := io) hu ho hd hs hp
    refine ⟨fun hf hq => ?_, fun hf ha hc => ?_, fun hc hf => ?_⟩
    · exact hx.trans (by rw [if_pos ⟨hf, hq⟩])
    · exact hx.trans (by rw [if_neg (fun h => hf h.1), if_pos ⟨ha, hc⟩])
    · have hno : ¬(o.opcode = 0xB001 ∧ stopAsked u o = true) := fun h => by simp [hf h.1] at h
      have hgo : ¬(abortsHere o.opcode = true ∧ ((o.past = false ∧ stopAsked u o = true) ∨ o.cancel = some 0)) := by
        rintro ⟨ha, hs⟩
        rcases hc with hc | ⟨hc | hc, hn⟩ <;> simp_all
      exact hx.trans (by rw [if_neg hno, if_neg hgo])

end Sys2Proof.Proofs
end

section
/-! SUPPORT. What ends of operations, dispatch and `settle` leave of the compare pairs: a pair that is neither JOINING nor
SPLITTING stays as it is (R316). With it the settlement of O53. -/

namespace Sys2Proof.Proofs

open Sys2Proof.Machine
open Sys2Proof.Safety

/-! ### Operations that leave the scan or the host interface alone -/

section
variable (s : State)

@[simp] theorem mirror_scan (d : DeltaRec) : (mirror d s).scan = s.scan := by unfold mirror; split <;> rfl
@[simp] theorem mirror_host (d : DeltaRec) : (mirror d s).host = s.host := by unfold mirror; split <;> rfl

/-- Mirroring a list of changes touches nothing but the delta. -/
theorem foldl_mirror {α : Type} (f : α → DeltaRec) (l : List α) :
    (l.foldl (fun t a => mirror (f a) t) s).scan = s.scan ∧ (l.foldl (fun t a => mirror (f a) t) s).host = s.host := by
  induction l generalizing s with
  | nil => exact ⟨rfl, rfl⟩
  | cons a r ih => simpa using ih (mirror (f a) s)

@[simp] theorem clearDiscrepancies_scan : (clearDiscrepancies s).scan = s.scan := (foldl_mirror s _ _).1
@[simp] theorem clearDiscrepancies_host : (clearDiscrepancies s).host = s.host := (foldl_mirror s _ _).2

theorem onRegs_onRegs (f g : Regs → Regs) : onRegs f (onRegs g s) = onRegs (f ∘ g) s := rfl
theorem onRegs_id : onRegs id s = s := rfl

/-- A vector is raised in the registers alone. -/
theorem raiseVector_eq_onRegs (v : Nat) : ∃ f, raiseVector v s = onRegs f s := by
  unfold raiseVector
  dsimp only
  split <;> exact ⟨_, rfl⟩

theorem raiseDevice_eq_onRegs : ∃ f, raiseDevice s = onRegs f s := by
  have raised : ∀ g, ∃ f, raiseVector s.regs.devVector (onRegs g s) = onRegs f s := fun g => by
    obtain ⟨f, hf⟩ := raiseVector_eq_onRegs (onRegs g s) s.regs.devVector
    exact ⟨_, hf.trans (onRegs_onRegs ..)⟩
  unfold raiseDevice
  split
  · exact ⟨id, (onRegs_id s).symm⟩
  · split
    · split
      · exact ⟨id, (onRegs_id s).symm⟩
      · exact raised _
    · exact raised _

theorem setCause_eq_onRegs (n : Nat) : ∃ f, setCause n s = onRegs f s := by
  unfold setCause
  dsimp only
  split
  · obtain ⟨f, hf⟩ := raiseDevice_eq_onRegs (onRegs (fun r => { r with cause := r.cause ||| (1#11 <<< n) }) s)
    exact ⟨_, hf.trans (onRegs_onRegs ..)⟩
  · exact ⟨_, rfl⟩

/-- An event is captured in the event record, and one that is lost shows in the registers too. -/
theorem capture_eq_onRegs_onLog (fw : Bool) (code : Nat) (data : Bytes) :
    ∃ f g, capture fw code data s = onRegs f (onLog g s) := by
  unfold capture
  split
  · exact ⟨id, _, (onRegs_id _).symm⟩
  · obtain ⟨f, hf⟩ := setCause_eq_onRegs (onLog (fun l => { l with lost := satTo 255 (l.lost + 1), lostNew := l.lostNew + 1 }) s) 9
    exact ⟨f, _, hf⟩

@[simp] theorem raiseVector_scan (v : Nat) : (raiseVector v s).scan = s.scan := by
  obtain ⟨f, hf⟩ := raiseVector_eq_onRegs s v
  rw [hf, onRegs_scan]

@[simp] theorem setCause_scan (n : Nat) : (setCause n s).scan = s.scan := by
  obtain ⟨f, hf⟩ := setCause_eq_onRegs s n
  rw [hf, onRegs_scan]

@[simp] theorem setCause_host (n : Nat) : (setCause n s).host = s.host := by
  obtain ⟨f, hf⟩ := setCause_eq_onRegs s n
  rw [hf, onRegs_host]

@[simp] theorem capture_scan (fw : Bool) (code : Nat) (data : Bytes) : (capture fw code data s).scan = s.scan := by
  obtain ⟨f, g, h⟩ := capture_eq_onRegs_onLog s fw code data
  rw [h, onRegs_scan, onLog_scan]

@[simp] theorem capture_host (fw : Bool) (code : Nat) (data : Bytes) : (capture fw code data s).host = s.host := by
  obtain ⟨f, g, h⟩ := capture_eq_onRegs_onLog s fw code data
  rw [h, onRegs_host, onLog_host]

@[simp] theorem capture_dev (fw : Bool) (code : Nat) (data : Bytes) : (capture fw code data s).dev = s.dev := by
  obtain ⟨f, g, h⟩ := capture_eq_onRegs_onLog s fw code data
  rw [h, onRegs_dev, onLog_dev]

/-- A base tick leaves the device state: its boundary is what may change it. -/
theorem nextTick_st : (nextTick s).dev.st = s.dev.st := by
  unfold nextTick stepTimebase
  split
  · simp only [logFw, capture_dev, onNet_dev]
    rfl
  · rfl

@[simp] theorem kqWrite_scan (k : Nat) (c : Completion) : (kqWrite k c s).scan = s.scan := by
  unfold kqWrite kqCheck
  dsimp only
  split
  · rw [raiseVector_scan]; rfl
  · rfl

@[simp] theorem onOp_scan (i : Nat) (f : LongOp → LongOp) : (onOp i f s).scan = s.scan := by unfold onOp; split <;> rfl

@[simp] theorem postFinal_scan (i : Nat) (o : LongOp) (status : Nat) (result : Bytes) :
    (postFinal i o status result s).scan = s.scan := by
  unfold postFinal
  dsimp only
  split
  · split
    · simp
    · rfl
  · rfl
  · rfl

@[simp] theorem endOp_scan (i status : Nat) (result : Bytes) : (endOp i status result s).scan = s.scan := by
  unfold endOp
  split
  · rfl
  · split
    · rfl
    · simp

@[simp] theorem onTask_scan (n : Nat) (f : Task → Task) :
    (onTask n f s).scan = { s.scan with tasks := modifyNth s.scan.tasks n f } := by
  simp [onTask]

@[simp] theorem setPair_scan (k : Nat) (p : PState) :
    (setPair k p s).scan = { s.scan with pairs := modifyNth s.scan.pairs k (fun _ => p) } := by
  simp [setPair]

@[simp] theorem setPair_host (k : Nat) (p : PState) : (setPair k p s).host = s.host := by simp [setPair]

@[simp] theorem joinPair_scan (k : Nat) :
    (joinPair k s).scan = { s.scan with pairs := modifyNth s.scan.pairs k (fun _ => .joined) } := by
  simp [joinPair]

@[simp] theorem joinPair_host (k : Nat) : (joinPair k s).host = s.host := by simp [joinPair]

end

/-! ### What a pair keeps -/

/-- t has the state of compare pair k that s has, and the verified bits, the fault bits and the count of failed verifications. -/
structure KeepsPair (k : Nat) (s t : State) : Prop where
  pair : getPair t k = getPair s k
  verified : t.scan.verified = s.scan.verified
  dualFault : t.scan.dualFault = s.scan.dualFault
  fails : t.scan.verifyFails = s.scan.verifyFails

section
variable {k : Nat} {s t u : State}

theorem KeepsPair.refl (k : Nat) (s : State) : KeepsPair k s s := ⟨rfl, rfl, rfl, rfl⟩

theorem KeepsPair.trans (h : KeepsPair k s t) (g : KeepsPair k t u) : KeepsPair k s u :=
  ⟨g.pair.trans h.pair, g.verified.trans h.verified, g.dualFault.trans h.dualFault, g.fails.trans h.fails⟩

theorem KeepsPair.of_scan (h : t.scan = s.scan) : KeepsPair k s t := by
  constructor <;> simp only [getPair, h]

theorem keepsPair_onEng (e : Nat) (f : Engine → Engine) (s : State) : KeepsPair k s (onEng e f s) := ⟨rfl, rfl, rfl, rfl⟩

theorem keepsPair_onAct (n : Nat) (f : Activation → Activation) (s : State) : KeepsPair k s (onAct n f s) := ⟨rfl, rfl, rfl, rfl⟩

theorem keepsPair_onTask (n : Nat) (f : Task → Task) (s : State) : KeepsPair k s (onTask n f s) := by
  constructor <;> simp [getPair]

theorem keepsPair_onScan_engines (g : Scan → List Engine) (s : State) :
    KeepsPair k s (onScan (fun x => { x with engines := g x }) s) := ⟨rfl, rfl, rfl, rfl⟩

theorem keepsPair_keep (s t : State) : KeepsPair k t (keep s t) := ⟨rfl, rfl, rfl, rfl⟩

theorem keepsPair_foldl {α : Type} (f : State → α → State) (h : ∀ s a, KeepsPair k s (f s a)) (l : List α) (s : State) :
    KeepsPair k s (l.foldl f s) := by
  induction l generalizing s with
  | nil => exact .refl k s
  | cons a r ih => exact (h s a).trans (ih _)

/-! ### Dispatch -/

theorem keepsPair_assign (n e : Nat) (s : State) : KeepsPair k s (assign n e s) := by
  unfold assign
  split
  · dsimp only
    refine KeepsPair.trans ?_ ((keepsPair_onTask n _ _).trans (keepsPair_onAct n _ _))
    split
    · exact (keepsPair_onEng e _ s).trans (keepsPair_onEng (e + 1) _ _)
    · exact keepsPair_onEng e _ s
  · exact .refl k s

theorem keepsPair_requestStop (n e : Nat) (s : State) : KeepsPair k s (requestStop n e s) := by
  unfold requestStop
  dsimp only
  split
  · exact (keepsPair_onEng e _ s).trans (keepsPair_onEng (e + 1) _ _)
  · exact keepsPair_onEng e _ s

theorem keepsPair_dispatchOne (n : Nat) (s : State) : KeepsPair k s (dispatchOne n s) := by
  unfold dispatchOne
  split
  · exact keepsPair_assign n _ s
  · split
    · exact .refl k s
    · split
      · exact keepsPair_requestStop n _ s
      · exact .refl k s

theorem keepsPair_dispatch (s : State) : KeepsPair k s (dispatch s) := by
  unfold dispatch
  split
  · exact .refl k s
  · exact keepsPair_foldl _ (fun t n => keepsPair_dispatchOne n t) _ s

theorem keepsPair_unassign (e : Nat) (s : State) : KeepsPair k s (unassign e s) := by
  unfold unassign
  dsimp only
  split
  · split
    · exact .refl k s
    · exact (keepsPair_onScan_engines _ s).trans (keepsPair_onTask _ _ _)
  · exact .refl k s

theorem keepsPair_reopen (s : State) : KeepsPair k s (reopen s) := by
  unfold reopen
  split
  · exact .refl k s
  · exact (keepsPair_onScan_engines _ s).trans (keepsPair_foldl _ (fun t e => keepsPair_unassign e t) _ _)

/-! ### The pair states that follow the engines -/

theorem keepsPair_setPair {j : Nat} (h : j ≠ k) (p : PState) (s : State) : KeepsPair k s (setPair j p s) := by
  constructor <;> simp [getPair, nth, modifyNth, h]

theorem keepsPair_joinPair {j : Nat} (h : j ≠ k) (s : State) : KeepsPair k s (joinPair j s) :=
  (keepsPair_setPair h .joined s).trans (.of_scan (clearDiscrepancies_scan _))

/-- Progress of pair j leaves pair k alone: another pair, or one that is neither JOINING nor SPLITTING. -/
theorem keepsPair_pairProgress1 (j : Nat) {s : State} (hj : getPair s k ≠ .joining) (hs : getPair s k ≠ .splitting) :
    KeepsPair k s (pairProgress1 j s) := by
  have other : ∀ p, getPair s j = p → p = .joining ∨ p = .splitting → j ≠ k := by
    rintro p hp (rfl | rfl) rfl
    · exact hj hp
    · exact hs hp
  unfold pairProgress1
  split
  next h =>
    have hne := other _ h (.inl rfl)
    have hset := fun p => keepsPair_setPair hne p s
    split
    · exact (hset _).trans (.of_scan (endOp_scan ..))
    · split
      · dsimp only
        split
        · exact (hset _).trans (.of_scan (onOp_scan ..))
        · exact hset _
      · exact .refl k s
  next h =>
    have hne := other _ h (.inr rfl)
    split
    · exact (keepsPair_joinPair hne s).trans (.of_scan (endOp_scan ..))
    · split
      · dsimp only
        split
        · exact (keepsPair_setPair hne _ s).trans (.of_scan (endOp_scan ..))
        · exact keepsPair_setPair hne _ s
      · exact .refl k s
  next => exact .refl k s

/-- The pair states follow the engines and what is ready is dispatched: a pair that is neither JOINING nor SPLITTING stays. -/
theorem keepsPair_settle {s : State} (hj : getPair s k ≠ .joining) (hs : getPair s k ≠ .splitting) :
    KeepsPair k s (settle s) := by
  have progress : ∀ (l : List Nat) (t : State), getPair t k ≠ .joining → getPair t k ≠ .splitting →
      KeepsPair k t (l.foldl (fun t j => pairProgress1 j t) t) := by
    intro l
    induction l with
    | nil => exact fun t _ _ => .refl k t
    | cons j r ih =>
      intro t h1 h2
      have h := keepsPair_pairProgress1 j h1 h2
      exact h.trans (ih _ (h.pair ▸ h1) (h.pair ▸ h2))
  exact (progress _ s hj hs).trans ((keepsPair_reopen _).trans (keepsPair_dispatch _))

end

/-! ### The verification activation (R315 to R317) -/

/-- The local stores of pair k as its verification activation leaves them. -/
def wiped (k : Nat) (s : State) : State :=
  onEng (2 * k + 1) (fun g => { g with loc := [] }) (onEng (2 * k) (fun g => { g with loc := [] }) s)

theorem pairOp_congr {s t : State} (h : t.host = s.host) (op k : Nat) : pairOp t op k = pairOp s op k := by
  unfold pairOp
  rw [h]

theorem endPairOp_none {op k : Nat} {s : State} (h : pairOp s op k = none) (status : Nat) (res : Bytes) :
    endPairOp op k status res s = s := by
  simp only [endPairOp, h]

/-- Pair k has passed its verification. -/
def passed (k : Nat) (s : State) : State :=
  onScan (fun x => { x with verified := x.verified ||| (1#8 <<< k) }) (joinPair k (wiped k s))

/-- Pair k has failed its verification. -/
def failed (k : Nat) (s : State) : State :=
  logHw 0x1007 [b8 k] (setDualFault k (onScan (fun x => { x with verifyFails := satTo 0xFF (x.verifyFails + 1) })
    (setPair k .split (wiped k s))))

section
variable (k : Nat) (s : State)

@[simp] theorem passed_host : (passed k s).host = s.host := by simp [passed, wiped, onEng]
@[simp] theorem failed_host : (failed k s).host = s.host := by simp [failed, logHw, setDualFault, wiped, onEng]

theorem passed_scan : (passed k s).scan =
    { (wiped k s).scan with
      pairs := modifyNth s.scan.pairs k (fun _ => .joined), verified := s.scan.verified ||| (1#8 <<< k) } := by
  simp [passed, wiped, onEng]

theorem failed_scan : (failed k s).scan =
    { (wiped k s).scan with
      pairs := modifyNth s.scan.pairs k (fun _ => .split), verifyFails := min 255 (s.scan.verifyFails + 1)
      dualFault := s.scan.dualFault ||| (1#8 <<< k) } := by
  simp [failed, logHw, setDualFault, wiped, onEng, satTo_eq_min]

end

section
variable {k : Fin 8} {s : State}

theorem verificationActivation_takes (hv : getPair s k.val = .verifying) (hc : s.dev.st.configured = true) :
    ¬((decide (getPair s k.val ≠ .verifying) || !execVerificationActivation.hostOn s) = true) := by
  unfold execVerificationActivation.hostOn
  cases hs : s.dev.st <;> simp_all [DevState.configured]

theorem execVerificationActivation_pass (hv : getPair s k.val = .verifying) (hc : s.dev.st.configured = true)
    (h9 : pairOp s 0x1009 k.val = none) (hA : pairOp s 0x100A k.val = none) :
    execVerificationActivation k true s = .next (keep s (settle (passed k.val s))) := by
  have g9 : pairOp (passed k.val s) 0x1009 k.val = none := (pairOp_congr (passed_host _ s) ..).trans h9
  have he := endPairOp_none ((pairOp_congr (passed_host k.val s) ..).trans hA) stOk [3, 0]
  unfold passed wiped at he g9 ⊢
  simp only [execVerificationActivation, finish, keep, if_neg (verificationActivation_takes hv hc), if_true, he, g9,
    Option.isSome_none, Bool.false_eq_true, if_false]

theorem execVerificationActivation_fail (hv : getPair s k.val = .verifying) (hc : s.dev.st.configured = true)
    (h9 : pairOp s 0x1009 k.val = none) (hA : pairOp s 0x100A k.val = none) :
    execVerificationActivation k false s = .next (keep s (settle (failed k.val s))) := by
  have he := endPairOp_none ((pairOp_congr (failed_host k.val s) ..).trans h9) stOk [0, 0]
  have hf := endPairOp_none ((pairOp_congr (failed_host k.val s) ..).trans hA) stIntegrity [0, 0]
  unfold failed wiped at he hf ⊢
  simp only [execVerificationActivation, finish, keep, if_neg (verificationActivation_takes hv hc), Bool.false_eq_true, if_false,
    he, hf]

theorem getLsbD_or_bit (x : BitVec 8) (k : Fin 8) : (x ||| (1#8 <<< k.val)).getLsbD k.val = true := by
  simp

theorem getPair_of_modified {p : PState} {t : State} (h : k.val < s.scan.pairs.length)
    (ht : t.scan.pairs = modifyNth s.scan.pairs k.val (fun _ => p)) : getPair t k.val = p := by
  simp [getPair, ht, nth, modifyNth, List.getElem?_eq_getElem h]

end

/-! ### O53 -/

/-- Settles O53: each event is its meaning in the case at hand; a verified pair stays as the verification leaves it, because
`settle` takes only JOINING and SPLITTING pairs on. -/
theorem scanEventsRun : Obligations.ScanEventsRun := by
  unfold Obligations.ScanEventsRun
  refine ⟨?tick, ?window, ?freeze, ?stop, ?budget, ?timer, ?flush, ?verify⟩
  case tick =>
    intro s h
    simp only [Claims.Leaves, exec_baseTick, execBaseTick, h, nextTick_st, Bool.not_true, Bool.false_eq_true, if_false]
    rfl
  case window =>
    intro time s h
    simp only [Claims.Leaves, exec_switchWindowEnd, execSwitchWindowEnd, h, if_true]
    rfl
  case freeze =>
    intro task time s h
    simp only [Claims.Leaves, exec_freezeEnd, execFreezeEnd, h, if_true]
    rfl
  case stop =>
    rintro e time s u n rfl ht hp
    obtain ⟨m, hm⟩ := Option.isSome_iff_exists.mp hp
    have ht' : (getEng s e.val).task = some n := ht
    have hm' : (getEng s e.val).preemptFor = some m := hm
    simp only [Claims.Leaves, exec_preemptionStop, execPreemptionStop, ht', hm']
    rfl
  case budget =>
    rintro task time s u rfl h
    simp only [Claims.Leaves, exec_budgetExpiry, execBudgetExpiry, h, if_true]
    rfl
  case timer =>
    rintro task time due s u rfl ht hd
    simp only [Claims.Leaves, exec_taskTimerExpiry, execTaskTimerExpiry, ht, if_pos hd]
    rfl
  case flush =>
    intro k s n i j ht hi hj
    refine ⟨fun u hu => ?_, ?_⟩
    · simp only [Claims.Leaves, exec_commitFlush, execCommitFlush, ht, hi, hj, ← hu, Bool.false_eq_true, if_false]
      rfl
    · rintro u w hu rfl
      simp only [Claims.Leaves, exec_commitFlush, execCommitFlush, ht, hi, hj, ← hu, if_true]
      rfl
  case verify =>
    intro k s hv hc hl _ h9 hA
    have hk : k.val < s.scan.pairs.length := by rw [hl]; exact k.isLt
    constructor
    · have hp := getPair_of_modified hk (congrArg (·.pairs) (passed_scan k.val s))
      have hs := (keepsPair_settle (k := k.val) (s := passed k.val s) (by simp [hp]) (by simp [hp])).trans (keepsPair_keep s _)
      refine ⟨_, execVerificationActivation_pass hv hc h9 hA, hs.pair.trans hp, ?_⟩
      rw [hs.verified, passed_scan, getLsbD_or_bit]
    · have hp := getPair_of_modified hk (congrArg (·.pairs) (failed_scan k.val s))
      have hs := (keepsPair_settle (k := k.val) (s := failed k.val s) (by simp [hp]) (by simp [hp])).trans (keepsPair_keep s _)
      refine ⟨_, execVerificationActivation_fail hv hc h9 hA, hs.pair.trans hp, ?_, ?_⟩
      · rw [hs.dualFault, failed_scan, getLsbD_or_bit]
      · rw [hs.fails, failed_scan]

end Sys2Proof.Proofs
end

section
/-! SUPPORT. What a reset of the die, a loss of power, and the seal leave of the device state and of the always-on domain
(R59, R366 to R373, R382), and the settlement of O51. -/

namespace Sys2Proof.Proofs

open Sys2Proof.Machine
open Sys2Proof.Safety

/-! ### The reset of the die and the always-on domain -/

section
variable (s : State)

@[simp] theorem leaveExtest_dev (st : DevState) : (leaveExtest st s).dev = s.dev := by
  unfold leaveExtest
  split <;> rfl

@[simp] theorem resetDie_dev : (resetDie s).dev =
    { s.dev with st := .boot, role := .solo, ret := none, stage := 0, resetScope := none, resetWaits := false,
                 powerBack := false, releasing := none } := by
  simp only [resetDie, leaveExtest_dev]

@[simp] theorem beginBoot_dev (cause : Nat) : (beginBoot cause s).dev =
    { (resetDie s).dev with startCause := cause, changeTick := s.dev.tick % 2 ^ 32 } := by
  simp only [beginBoot, onDev_dev, resetDie_dev]

end

section
variable {s : State}

/-- VAON comes up with the main rails absent: RETAIN, with the always-on state lost (R59, R373). -/
theorem execVaonRise_off (hv : s.dev.vaon = false) (hst : s.dev.st = .off) (hg : s.dev.railsGood = false) :
    execVaonRise s = finish s (onDev (fun d => { d with st := .retain })
      (onDev (fun d => { d with vaon := true }) (loseAon s))) := by
  simp only [execVaonRise, hv, hst, hg, Bool.not_false, and_self, if_true, Bool.false_eq_true, if_false]

/-- VAON is lost in RETAIN: OFF (R59, R373). -/
theorem execRetainLost_retain (hst : s.dev.st = .retain) :
    execRetainLost s = finish s (onDev (fun d => { d with st := .off })
      (onDev (fun d => { d with vaon := false }) (loseAon s))) := by
  simp only [execRetainLost, hst, if_true]

end

/-! ### Loss and return of main power -/

section
variable {s : State}

/-- Good rails start the module when neither input holds it (R518). -/
theorem tryBoot_starts (hst : s.dev.st = .off ∨ s.dev.st = .retain) (hg : s.dev.railsGood = true)
    (hr : s.dev.pwrRstLow = false) (hp : s.dev.powerFailLow = false) :
    tryBoot s = beginBoot 0 (onDev (fun d => { d with powerUp := true }) s) := by
  have hd : (s.dev.st == .off || s.dev.st == .retain) = true := by
    rcases hst with h | h <;> rw [h] <;> rfl
  simp only [tryBoot, hd, hg, hr, hp, Bool.not_false, Bool.and_self, if_true]

theorem railsBack_absent (h : s.dev.railsGood = false) :
    railsBack s = onDev (fun d => { d with railsGood := true, optimeAt := d.now }) s := by
  simp only [railsBack, h, Bool.false_eq_true, if_false]

/-- Good rails end OFF and RETAIN with a start for cause 0 (R455, R518). -/
theorem execMainRailsGood_starts (hg : s.dev.railsGood = false) (hst : s.dev.st = .off ∨ s.dev.st = .retain)
    (hr : s.dev.pwrRstLow = false) (hp : s.dev.powerFailLow = false) :
    execMainRailsGood s = finish s (beginBoot 0 (onDev (fun d => { d with powerUp := true })
      (onDev (fun d => { d with railsGood := true, optimeAt := d.now }) s))) := by
  simp only [execMainRailsGood, hg, Bool.false_eq_true, if_false, railsBack_absent hg]
  rw [tryBoot_starts]
  exacts [hst, rfl, hr, hp]

/-- A configured state is held up (R367). -/
theorem powerLoss_configured (drop : State → State)
    (h : s.dev.st = .configure ∨ s.dev.st = .stop ∨ s.dev.st = .run ∨ s.dev.st = .changing ∨ s.dev.st = .halted) :
    powerLoss drop s = enterHoldup s := by
  unfold powerLoss
  rcases h with h | h | h | h | h <;> rw [h]

/-- A state without hold-up drops (R59). -/
theorem powerLoss_unheld (drop : State → State)
    (h : s.dev.st = .boot ∨ s.dev.st = .selftest ∨ s.dev.st = .recovery ∨ s.dev.st = .fault) :
    powerLoss drop s = drop s := by
  unfold powerLoss
  rcases h with h | h | h | h <;> rw [h]

/-- A second failure in HOLDUP takes a remembered return back. -/
theorem powerLoss_holdup (drop : State → State) (h : s.dev.st = .holdup) :
    powerLoss drop s = onDev (fun d => { d with powerBack := false }) s := by
  unfold powerLoss
  rw [h]

end

/-! ### The seal -/

section
variable (s : State)

@[simp] theorem writeBlock_dev (b : Nat) : (writeBlock b s).dev = s.dev := by
  unfold writeBlock
  split <;> rfl

@[simp] theorem writeBlocks_dev (n : Nat) : (writeBlocks n s).dev = s.dev := by
  induction n generalizing s with
  | zero => rfl
  | succ n ih =>
    unfold writeBlocks
    split
    · rfl
    · rw [ih, writeBlock_dev]

@[simp] theorem writeRepeat_dev : (writeRepeat s).dev = s.dev := by
  unfold writeRepeat
  split <;> rfl

@[simp] theorem pushRecord_dev (x : LogRec) : (pushRecord x s).dev = s.dev := by
  simp only [pushRecord, settleNewest, onLog_dev, writeRepeat_dev]

@[simp] theorem issueSeq_dev : (issueSeq s).2.dev = s.dev := rfl
@[simp] theorem foldRepeat_dev (e : Event) : (foldRepeat e s).dev = s.dev := rfl

@[simp] theorem writeEvent_dev (e : Event) : (writeEvent e s).2.dev = s.dev := by
  unfold writeEvent
  dsimp only
  split <;> simp only [pushRecord_dev, issueSeq_dev]

@[simp] theorem takeEvent_dev : (takeEvent s).dev = s.dev := by
  unfold takeEvent
  split
  · rfl
  · simp only [logHw, apply_ite State.dev, capture_dev, onLog_dev, foldRepeat_dev, writeEvent_dev, ite_self]

@[simp] theorem takeEvents_dev (n : Nat) : (takeEvents n s).dev = s.dev := by
  induction n generalizing s with
  | zero => rfl
  | succ n ih => rw [takeEvents, ih, takeEvent_dev]

/-- The seal changes nothing of the device state but the operating time that it saves: a waiting reset still waits, and a
remembered return is still remembered. -/
theorem sealNow_dev : (sealNow s).dev = { s.dev with optimeSaved := (sealNow s).dev.optimeSaved } := by
  simp only [sealNow, logHw, onDev_dev, onLog_dev, onMem_dev, takeEvents_dev, capture_dev, writeBlocks_dev]

@[simp] theorem sealNow_resetWaits : (sealNow s).dev.resetWaits = s.dev.resetWaits := by rw [sealNow_dev]
@[simp] theorem sealNow_powerBack : (sealNow s).dev.powerBack = s.dev.powerBack := by rw [sealNow_dev]

end

/-! ### O51 -/

/-- Settles O51: each event is its meaning in the case at hand. The ends of power show in the device state that a reset of the die
leaves; the seal ends the hold-up itself, because it leaves both the waiting reset and the returned power as they were. -/
theorem powerEventsRun : Obligations.PowerEventsRun := by
  unfold Obligations.PowerEventsRun
  refine ⟨?vaonRise, ?retainLost, ?railsGood, ?rstAssert, ?rstRelease, ?fail, ?trip, ?back, ?sample, ?ride, ?sealing⟩
  case vaonRise =>
    intro s hv hst hg
    exact ⟨_, execVaonRise_off hv hst hg, rfl, rfl, rfl, rfl, rfl⟩
  case retainLost =>
    intro s hst
    exact ⟨_, execRetainLost_retain hst, rfl, rfl, rfl, rfl, rfl, rfl⟩
  case railsGood =>
    intro s hg hst hr hp
    refine ⟨_, execMainRailsGood_starts hg hst hr hp, ?_⟩
    simp only [beginBoot_dev, resetDie_dev, onDev_dev, and_self]
  case rstAssert =>
    rintro time s u rfl
    constructor
    · intro hoff hret hhold
      simp only [Claims.Leaves, exec_pwrRstAssert, execPwrRstAssert, hoff, hret, hhold, or_self, false_and, if_false]
      rfl
    · intro hst hlog
      simp only [Claims.Leaves, exec_pwrRstAssert, execPwrRstAssert, hst, hlog]
      rfl
  case rstRelease =>
    rintro s u hlow rfl hst
    simp only [Claims.Leaves, exec_pwrRstRelease, execPwrRstRelease, hlow, onDev_dev, hst, Bool.not_true, Bool.false_eq_true,
      if_false, if_true]
    rfl
  case fail =>
    rintro time s u rfl
    refine ⟨fun h => ?_, fun h => ?_, fun h => ?_⟩
    · simp only [Claims.Leaves, exec_powerFail, execPowerFail, powerLoss_configured leaveService h]
      rfl
    · simp only [Claims.Leaves, exec_powerFail, execPowerFail, powerLoss_unheld leaveService h]
      rfl
    · simp only [Claims.Leaves, exec_powerFail, execPowerFail, powerLoss_holdup leaveService h]
      rfl
  case trip =>
    rintro time s u rfl hst h2 hlog
    simp only [Claims.Leaves, exec_mainRailTrip, execMainRailTrip, hst, h2, hlog, and_self, if_true]
    rfl
  case back =>
    rintro time s u rfl hst
    constructor
    · intro h1
      simp only [Claims.Leaves, exec_powerReturn, execPowerReturn, hst, h1, if_true]
      rfl
    · intro h2 hlog
      simp only [Claims.Leaves, exec_powerReturn, execPowerReturn, hst, h2, hlog, if_true]
      rfl
  case sample =>
    rintro mv time s u w rfl hst h1 rfl
    simp only [Claims.Leaves, exec_holdupSample, execHoldupSample, hst, h1, and_self, if_true]
    rfl
  case ride =>
    rintro time s u rfl hst h1 hride htime
    simp only [Claims.Leaves, exec_rideThroughExpiry, execRideThroughExpiry, hst, h1, ne_eq, hride.ne', not_false_eq_true, htime,
      and_self, if_true]
    rfl
  case sealing =>
    rintro time s u rfl hst h2 hlog hwait hback
    simp only [Claims.Leaves, exec_seal, execSeal, hst, h2, hlog, sealNow_resetWaits, sealNow_powerBack, hwait, hback,
      Bool.not_false, and_self, if_true, Bool.false_eq_true, if_false]
    rfl

end Sys2Proof.Proofs
end

section
/-! SUPPORT. Two sparse memories in canonical form that read alike are one list, and the settlement of O7 (R71, R72, R138). -/

namespace Sys2Proof.Proofs

open Sys2Proof.Machine

variable {β : Type} {d : β}

theorem readAt_cons_same (k : Nat) (v : β) (r : List (Nat × β)) : readAt d ((k, v) :: r) k = v := by
  simp only [readAt, look, if_true, Option.getD_some]

theorem readAt_cons_other {k b : Nat} (h : k ≠ b) (v : β) (r : List (Nat × β)) :
    readAt d ((k, v) :: r) b = readAt d r b := by
  simp only [readAt, look, if_neg h]

/-- A sparse list in canonical form whose keys are all n or more: `sparseWf` with the bound on the keys that an induction needs. -/
def CanonicalFrom (d : β) (n : Nat) (l : List (Nat × β)) : Prop := risingFrom n l = true ∧ ∀ e ∈ l, e.2 ≠ d

theorem sparseWf_iff_canonicalFrom [DecidableEq β] {l : List (Nat × β)} : sparseWf d l = true ↔ CanonicalFrom d 0 l := by
  simp only [sparseWf, CanonicalFrom, Bool.and_eq_true, List.all_eq_true, decide_eq_true_eq]

theorem canonicalFrom_cons {n k : Nat} {v : β} {r : List (Nat × β)} :
    CanonicalFrom d n ((k, v) :: r) ↔ n ≤ k ∧ v ≠ d ∧ CanonicalFrom d (k + 1) r := by
  simp only [CanonicalFrom, risingFrom, Bool.and_eq_true, decide_eq_true_eq, List.forall_mem_cons]
  tauto

/-- A key below the bound of a canonical list reads as the default. -/
theorem CanonicalFrom.readAt_below {n b : Nat} {l : List (Nat × β)} (h : CanonicalFrom d n l) (hb : b < n) : readAt d l b = d := by
  rw [readAt, look_none_below l n b h.1 hb, Option.getD_none]

/-- The first key of a canonical list tells it from every canonical list whose keys lie above that key. -/
theorem CanonicalFrom.readAt_head_ne {n k : Nat} {v : β} {r m : List (Nat × β)} (h : CanonicalFrom d n ((k, v) :: r))
    (hm : CanonicalFrom d (k + 1) m) : readAt d ((k, v) :: r) k ≠ readAt d m k := by
  rw [readAt_cons_same, hm.readAt_below k.lt_succ_self]
  exact (canonicalFrom_cons.mp h).2.1

/-- Canonical lists that read alike under every key are equal. -/
theorem CanonicalFrom.ext {n : Nat} {l m : List (Nat × β)} (hl : CanonicalFrom d n l) (hm : CanonicalFrom d n m)
    (h : ∀ b, readAt d l b = readAt d m b) : l = m := by
  have nil (k : Nat) : CanonicalFrom d k [] := ⟨rfl, by simp⟩
  induction l generalizing m n with
  | nil =>
    cases m with
    | nil => rfl
    | cons y q => exact absurd (h y.1).symm (hm.readAt_head_ne (nil _))
  | cons x r ih =>
    cases m with
    | nil => exact absurd (h x.1) (hl.readAt_head_ne (nil _))
    | cons y q =>
      obtain ⟨k, v⟩ := x
      obtain ⟨j, w⟩ := y
      obtain ⟨-, hv, hr⟩ := canonicalFrom_cons.mp hl
      obtain ⟨-, hw, hq⟩ := canonicalFrom_cons.mp hm
      rcases Nat.lt_trichotomy k j with hkj | rfl | hjk
      · exact absurd (h k) (hl.readAt_head_ne (canonicalFrom_cons.mpr ⟨hkj, hw, hq⟩))
      · have hvw : v = w := by simpa only [readAt_cons_same] using h k
        have htail : ∀ b, readAt d r b = readAt d q b := by
          intro b
          by_cases hb : k = b
          · subst hb
            rw [hr.readAt_below k.lt_succ_self, hq.readAt_below k.lt_succ_self]
          · simpa only [readAt_cons_other hb] using h b
        rw [hvw, ih hr hq htail]
      · exact absurd (h j).symm (hm.readAt_head_ne (canonicalFrom_cons.mpr ⟨hjk, hv, hr⟩))

/-- Settles O7: the laws of a write, and the extensionality of the canonical form. -/
theorem sparseWriteReadsBack : Obligations.SparseWriteReadsBack := by
  unfold Obligations.SparseWriteReadsBack
  intro l a w hl
  refine ⟨sparseWf_writeAt _ l a w hl, readAt_writeAt_same _ l a w hl, fun b hb => readAt_writeAt_other _ l a b w hl hb, ?_⟩
  intro m hm h
  exact (sparseWf_iff_canonicalFrom.mp hl).ext (sparseWf_iff_canonicalFrom.mp hm) h

end Sys2Proof.Proofs
end

section
/-! SUPPORT. The worst quality of the operands of a result as a maximum of quality codes (R73, R74, R151), and the settlement of
O34. -/

namespace Sys2Proof.Proofs

open Sys2Proof.Machine

theorem toNat_worse (a b : BitVec 2) : (worse a b).toNat = max a.toNat b.toNat := by
  unfold worse
  split <;> omega

/-- Taking the worse quality word by word, from any quality on, is taking the larger code. -/
theorem toNat_foldl_worse (ws : List TWord) (q : BitVec 2) :
    (ws.foldl (fun q w => worse q w.q) q).toNat = (ws.map (fun w => w.q.toNat)).foldl max q.toNat := by
  induction ws generalizing q with
  | nil => rfl
  | cons w r ih => rw [List.foldl_cons, ih, toNat_worse, List.map_cons, List.foldl_cons]

theorem toNat_worstQ (ws : List TWord) : (worstQ ws).toNat = (ws.map (fun w => w.q.toNat)).foldl max 0 :=
  toNat_foldl_worse ws Q.good

theorem orF_iff (ws : List TWord) : orF ws = true ↔ ∃ w ∈ ws, w.forced = true := List.any_eq_true

theorem orS_iff (ws : List TWord) : orS ws = true ↔ ∃ w ∈ ws, w.sub = true := List.any_eq_true

/-- Settles O34: a result word takes `worstQ`, `orF` and `orS` of its operands, and GOOD for the first where it is quality-blind. -/
theorem resultTakesWorstQuality : Obligations.ResultTakesWorstQuality := by
  unfold Obligations.ResultTakesWorstQuality
  intro ws ty p
  refine ⟨by decide, toNat_worstQ ws, rfl, fun qb => ⟨orF_iff ws, orS_iff ws, rfl, rfl⟩⟩

end Sys2Proof.Proofs
end

section
/-! SUPPORT. A command that serves a host request runs its effect (R45), what the force table holds once an entry is cleared (R101),
and the settlements of O14 and O24. -/

namespace Sys2Proof.Proofs

open Sys2Proof.Machine
open Sys2Proof.Safety

/-! ### Host commands -/

/-- An instruction that serves its request runs the command's effect. -/
theorem runs_of_serve {c : Cmd} {r : Request} {i : Instr} {out : State → Answer × State}
    (hi : ∀ s, exec i s = finish s (serve c r s)) (ho : c.effect r = out) : Runs c r i out := by
  intro s h
  rw [hi, finish_eq, serve_of_accepted c r s h, ho]
  rfl

/-- The range check of a request that is accepted passes. -/
theorem range_of_accepted {c : Cmd} {r : Request} {s : State} (h : accepted c r s = true) : c.range r (advance r.time s) = none := by
  simp only [accepted, Bool.and_eq_true, Option.isNone_iff_eq_none] at h
  obtain ⟨⟨-, he⟩, -⟩ := h
  unfold judgeEarly at he
  split_ifs at he
  exact he

/-- A request that steps 2 to 4 let pass is judged by its range check. -/
theorem judgeEarly_eq_range {c : Cmd} {r : Request} {s : State} (h1 : structureOk c r s = true) (h2 : stateOk c r s = true)
    (h3 : legalRole c.op s.dev.role = true) : judgeEarly c r s = c.range r s := by
  simp only [judgeEarly, h1, h2, h3, Bool.not_true, Bool.false_eq_true, if_false]

/-- The byte that tells whether a condition holds. -/
theorem b8_flag (b : Bool) : b8 (if b then 1 else 0) = if b then 1 else 0 := by
  cases b <;> rfl

theorem badIf_eq_none_iff {b : Bool} : badIf b = none ↔ b = false := by
  cases b <;> simp [badIf, bad]

/-- Settles O14: each slot command serves its request, and its effect is the one stated. -/
theorem slotCommandsRun : Obligations.SlotCommandsRun := by
  unfold Obligations.SlotCommandsRun
  intro r
  refine ⟨?alloc, ?free, ?read, ?snapshot, ?write, ?forceSet, ?forceClear, ?forceList, ?forceClearAll⟩ <;>
    exact runs_of_serve (fun _ => rfl) rfl

/-! ### The force table -/

section
variable (s : State)

@[simp] theorem capture_img (fw : Bool) (code : Nat) (data : Bytes) : (capture fw code data s).img = s.img := by
  obtain ⟨f, g, h⟩ := capture_eq_onRegs_onLog s fw code data
  rw [h, onRegs_img, onLog_img]

@[simp] theorem recordForce_img (slot action : Nat) (old new : Option TWord) :
    (recordForce slot action old new s).img = s.img := capture_img s true ..

@[simp] theorem reserve_img (o : Origin) : (reserve o s).img = s.img := by
  unfold reserve
  split
  · split <;> rfl
  · rfl

/-- No command's judging touches the image. -/
@[simp] theorem begins_img (c : Cmd) (r : Request) : (begins c r s).img = s.img := by
  have hj : (judged c r s).img = s.img := by
    unfold judged
    split <;> rfl
  unfold begins
  split
  · rfl
  · rw [reserve_img, hj]

theorem clearForce_unforced {action slot : Nat} (h : forceOf s slot = none) : clearForce action slot s = s := by
  simp only [clearForce, h]

theorem clearForce_forces (action slot : Nat) :
    (clearForce action slot s).img.forces = s.img.forces.filter (fun f => f.slot != slot) := by
  cases h : forceOf s slot with
  | none =>
    rw [clearForce_unforced s h]
    refine (List.filter_eq_self.mpr fun f hf => ?_).symm
    simpa using List.find?_eq_none.mp h f hf
  | some f => simp only [clearForce, h, recordForce_img, mirror_img, onImg_img, markForces]

theorem forceOf_clearForce_same (action slot : Nat) : forceOf (clearForce action slot s) slot = none := by
  simp [forceOf, clearForce_forces]

theorem forceOf_clearForce_other (action : Nat) {slot a : Nat} (h : a ≠ slot) :
    forceOf (clearForce action slot s) a = forceOf s a := by
  simp only [forceOf, clearForce_forces, List.find?_filter]
  congr 1
  funext f
  by_cases hf : f.slot = a
  · simp [hf, h]
  · simp [hf]

end

/-! ### FORCE_CLEAR -/

/-- Settles O24: the effect of FORCE_CLEAR, what it leaves in the force table, and its range check. -/
theorem forceClearRemovesEntry : Obligations.ForceClearRemovesEntry := by
  unfold Obligations.ForceClearRemovesEntry
  intro r s
  constructor
  · intro h
    have hrange : pField r 16 4 < 262144 := by
      simpa [cmdForceClear, badIf_eq_none_iff] using range_of_accepted h
    have hforce : forceOf (begins cmdForceClear r s) (pField r 16 4) = forceOf s (pField r 16 4) := by
      simp only [forceOf, begins_img]
    refine ⟨hrange, settle (withTriggers [pField r 16 4] (clearForce 2 (pField r 16 4)) (begins cmdForceClear r s)), ?_, rfl,
      fun u => ⟨forceOf_clearForce_same u 2 _, fun a ha => forceOf_clearForce_other u 2 ha, ?_⟩⟩
    · obtain ⟨-, -, -, -, -, -, hrun, -⟩ := slotCommandsRun r
      simp only [hrun s h, hforce, b8_flag, stOk]
    · intro hu
      exact clearForce_unforced u (Option.isNone_iff_eq_none.mp hu)
  · intro hp hs hst hr hlarge
    have hjudge : judgeEarly cmdForceClear r (advance r.time s) = some { status := 0x11 } := by
      rw [judgeEarly_eq_range hs hst hr]
      simp [cmdForceClear, badIf, bad, hlarge]
    rw [exec_forceClear, execForceClear, serve_of_plainly_refused _ _ _ _ hp hjudge (by decide)]
    rfl

end Sys2Proof.Proofs
end

section
/-! SUPPORT. Instructions that make one operation outside their engine (R301): such a plan asks for the operation while it has no
result and completes under one. With it the settlement of O40 (R89, R153, R179, R185, R187, R188). -/

namespace Sys2Proof.Proofs

open Sys2Proof.Machine
open Sys2Proof.Safety

/-! ### Plans of one operation -/

/-- The plan that asks for one operation while there is no result of it, and completes with an effect of its result. -/
def oneOp (result : Option TWord) (op : XOp) (f : TWord → Effect) : Plan :=
  match result with
  | some r => .done (f r)
  | none => .need op

/-- Two views give the operands of a store, a raise or a record alike: the registers, the addresses and what a slot refuses. -/
structure SameOperands (v w : View) : Prop where
  reg : ∀ i, reg w i = reg v i
  address : ∀ sp i d, address w sp i d = address v sp i d
  refused : ∀ a x, slotRefused w a x = slotRefused v a x

theorem SameOperands.refl (v : View) : SameOperands v v := ⟨fun _ => rfl, fun _ _ _ => rfl, fun _ _ => rfl⟩

theorem SameOperands.of_after {v w : View} {r : TWord} (h : After v r w) : SameOperands v w :=
  ⟨reg_after h, address_after h, slotRefused_after h⟩

/-- The engine of a view is that of its state. -/
theorem viewOf_engine {s : State} {e : Nat} {v : View} (h : viewOf s e = some v) : v.g = getEng s e := by
  unfold viewOf at h
  dsimp only at h
  split at h
  · obtain ⟨d, -, rfl⟩ := Option.map_eq_some_iff.mp h
    rfl
  · exact absurd h (by simp)

/-- An instruction begins without results. -/
theorem got_of_alone {i : Instr} {e n : Nat} {v : View} {s : State} (h : Alone i e n v s) (k : Nat) : got v k = none := by
  obtain ⟨-, ht, -, hv, -⟩ := h
  have hg : v.g.results = [] := by
    rw [viewOf_engine hv, started, getEng_onEng_same s e _ (eng_in_table s e n ht)]
  simp [got, hg]

/-- An instruction whose plan is that of one operation, in whatever view of its operands, makes the operation and completes. -/
theorem makes_of_oneOp {i : Instr} {e n : Nat} {v : View} {s : State} {op : XOp} {f : TWord → Effect} {g : Effect}
    (h : Alone i e n v s) (hp : ∀ w, SameOperands v w → sncPlan i w = oneOp (got w 0) op f)
    (hx : exec i s = finish s (runInstr e i s) := by rfl) (hop : op ≠ .timeNow := by nofun)
    (hg : g = f (perform n e op (started e s)).1 := by rfl) (hf : g.ends = false := by rfl) : Claims.Makes i e n op g s := by
  have hneed : sncPlan i v = .need op := by rw [hp v (.refl v), got_of_alone h, oneOp]
  have hdone : ∀ w, After v (perform n e op (started e s)).1 w → sncPlan i w = .done g := by
    intro w hw
    rw [hp w (.of_after hw), got_after hw, oneOp, hg]
  rw [Claims.Makes, hx, runInstr_makes h hop hneed hf hdone, finish_eq]
  rfl

/-! ### The plan of each instruction -/

section
variable {v w : View}

/-- A store whose source and address raise no cause is the store at that address. -/
theorem memPlan_store {sp a cycles : Nat} {base d : Fin 32} {disp : Int} (hw : SameOperands v w)
    (hb : poisonous (reg v base) = false) (hd : poisonous (reg v d) = false) (ha : address v sp base disp = .ok a) :
    memPlan w sp base disp d true cycles = storePlan w sp a (reg v d) cycles := by
  simp only [memPlan, hw.reg, hw.address, hb, hd, ha, Bool.and_false, Bool.or_self, Bool.false_eq_true, if_false, if_true]

theorem storePlan_slot {a : Nat} {x : TWord} (hw : SameOperands v w) (hr : slotRefused v a x = false) (cycles : Nat) :
    storePlan w 1 a x cycles = oneOp (got w 0) (.writeSlot a x) (fun _ => { cycles := cycles }) := by
  cases hg : got w 0 <;> simp only [storePlan, hw.refused, hr, hg, Bool.false_eq_true, if_false, oneOp]

/-- A store of a BOOL, INT or WORD into the legacy area, of quality GOOD or quality-blind (R153, R188). -/
theorem legacyStore_accepted {a : Nat} {x : TWord} {blind : Bool} (ht : x.ty = Ty.bool ∨ x.ty = Ty.int ∨ x.ty = Ty.word)
    (hq : x.q = Q.good ∨ blind = true) (cycles : Nat) :
    legacyStore w a x blind cycles = oneOp (got w 0) (.writeLegacy a x) (fun _ => { cycles := cycles }) := by
  have hne : x.ty ≠ Ty.empty := by rcases ht with h | h | h <;> rw [h] <;> decide
  have hty : (x.ty == Ty.bool || x.ty == Ty.int || x.ty == Ty.word) = true := by simpa [or_assoc] using ht
  have hql : (x.q != Q.good && !blind) = false := by rcases hq with h | h <;> simp [h]
  cases hg : got w 0 <;>
    simp only [legacyStore, if_neg hne, hty, hql, hg, Bool.not_true, Bool.false_eq_true, if_false, oneOp]

theorem planSt_slot {f : MForm} {a : Nat} (hw : SameOperands v w) (hsp : f.sp.val = 1) (hb : poisonous (reg v f.base) = false)
    (hd : poisonous (reg v f.d) = false) (hadr : address v f.sp.val f.base f.disp.toInt = .ok a)
    (hr : slotRefused v a (reg v f.d) = false) :
    planSt w f = oneOp (got w 0) (.writeSlot a (reg v f.d)) (fun _ => { cycles := 6 }) := by
  rw [planSt, memPlan_store hw hb hd hadr, hsp]
  exact storePlan_slot hw hr 6

theorem planSt_legacy {f : MForm} {a : Nat} (hw : SameOperands v w) (hsp : f.sp.val = 3) (hb : poisonous (reg v f.base) = false)
    (hd : poisonous (reg v f.d) = false) (hadr : address v f.sp.val f.base f.disp.toInt = .ok a)
    (ht : (reg v f.d).ty = Ty.bool ∨ (reg v f.d).ty = Ty.int ∨ (reg v f.d).ty = Ty.word) (hq : (reg v f.d).q = Q.good) :
    planSt w f = oneOp (got w 0) (.writeLegacy a (reg v f.d)) (fun _ => { cycles := 6 }) := by
  rw [planSt, memPlan_store hw hb hd hadr, hsp]
  exact legacyStore_accepted ht (.inl hq) 6

theorem planStsA_slot {f : WForm} (hw : SameOperands v w) (hi : f.imm.toNat < 262144) (hd : poisonous (reg v f.d) = false)
    (hr : slotRefused v f.imm.toNat (reg v f.d) = false) :
    planStsA w f = oneOp (got w 0) (.writeSlot f.imm.toNat (reg v f.d)) (fun _ => { cycles := 6 }) := by
  simp only [planStsA, if_neg (Nat.not_le.mpr hi), hw.reg, hd, Bool.false_eq_true, if_false]
  exact storePlan_slot hw hr 6

theorem planSts_slot {f : LForm} {a : Nat} (hw : SameOperands v w) (hl : lBad f false 0 true true false = false)
    (ha : poisonous (reg v f.a) = false) (hd : poisonous (reg v f.d) = false) (hadr : address v 1 f.a 0 = .ok a)
    (hr : slotRefused v a (reg v f.d) = false) :
    planSts w f = oneOp (got w 0) (.writeSlot a (reg v f.d)) (fun _ => { cycles := 6 }) := by
  rw [planSts, if_neg (by simp [hl]), memPlan_store hw ha hd hadr]
  exact storePlan_slot hw hr 6

/-- A base register from which an address can be formed is a base. -/
theorem baseOf_of_address {sp a : Nat} {i : Fin 32} {disp : Int} (h : address v sp i disp = .ok a) : (baseOf v sp i).isSome = true := by
  cases hb : baseOf v sp i with
  | none => simp [address, hb] at h
  | some b => rfl

theorem planStsx_slot {f : LForm} {a : Nat} (hw : SameOperands v w) (hl : lBad f false 0 true true true = false)
    (ha : poisonous (reg v f.a) = false) (hb : poisonous (reg v f.b) = false) (hd : poisonous (reg v f.d) = false)
    (ht : (reg v f.b).ty = Ty.int) (hadr : address v 1 f.a (reg v f.b).payload.toInt = .ok a)
    (hr : slotRefused v a (reg v f.d) = false) :
    planIndexed w f true = oneOp (got w 0) (.writeSlot a (reg v f.d)) (fun _ => { cycles := 7 }) := by
  have hbase : (baseOf w 1 f.a).isNone = false := by
    rw [← Option.not_isSome, baseOf_of_address ((hw.address 1 f.a _).trans hadr)]
    rfl
  have hne : Ty.int ≠ Ty.empty := by decide
  simp only [planIndexed, hw.reg, hl, ha, hb, hd, hbase, ht, if_neg hne, ne_eq, not_true_eq_false, Bool.and_false, Bool.or_self,
    Bool.false_eq_true, if_false, memPlan_store hw ha hd hadr]
  exact storePlan_slot hw hr 7

theorem planStlq_legacy {f : MForm} {a : Nat} (hw : SameOperands v w) (hsp : f.sp.val = 3) (hb : poisonous (reg v f.base) = false)
    (hd : poisonous (reg v f.d) = false) (hadr : address v 3 f.base f.disp.toInt = .ok a)
    (ht : (reg v f.d).ty = Ty.bool ∨ (reg v f.d).ty = Ty.int ∨ (reg v f.d).ty = Ty.word) :
    planStlq w f = oneOp (got w 0) (.writeLegacy a (reg v f.d)) (fun _ => { cycles := 6 }) := by
  simp only [planStlq, hsp, hw.reg, hw.address, hb, hd, hadr, ne_eq, not_true_eq_false, Bool.or_self, Bool.false_eq_true, if_false]
  exact legacyStore_accepted ht (.inr rfl) 6

theorem planEventTimer_task {f : IForm} {start : Bool} (ha : f.a.val = 0) (h0 : 0 ≤ f.imm.toInt) (h63 : f.imm.toInt ≤ 63) :
    planEventTimer w f start = oneOp (got w 0) (if start then .timerStart f.imm.toNat else .timerStop f.imm.toNat)
      (fun x => { dst := some (f.d.val, .mk0 Ty.bool x.payload), cycles := 8 }) := by
  rw [planEventTimer, if_neg (by omega)]
  cases got w 0 <;> rfl

theorem planRaise_task {f : IForm} (hw : SameOperands v w) (h0 : 0 ≤ f.imm.toInt) (h63 : f.imm.toInt ≤ 63)
    (ha : poisonous (reg v f.a) = false) :
    planRaise w f = oneOp (got w 0) (.raise f.imm.toNat (reg v f.a))
      (fun x => { dst := some (f.d.val, .mk0 Ty.int x.payload), cycles := 12 }) := by
  rw [planRaise, if_neg (by omega), hw.reg, ha, if_neg (by decide)]
  cases got w 0 <;> rfl

theorem ne_empty_of_countOk {b : TWord} (h : countOk b = true) : b.ty ≠ Ty.empty := by
  simp only [countOk, Bool.or_eq_true, beq_iff_eq] at h
  rcases h with h | h <;> rw [h] <;> decide

theorem planRaiser_task {f : LForm} (hw : SameOperands v w) (hl : lBad f false 0 true true true = false)
    (ha : poisonous (reg v f.a) = false) (hb : poisonous (reg v f.b) = false) (hc : countOk (reg v f.b) = true) :
    planRaiser w f = oneOp (got w 0) (.raise (reg v f.b).payload.toNat (reg v f.a))
      (fun x => { dst := some (f.d.val, .mk0 Ty.int x.payload), cycles := 12 }) := by
  cases hg : got w 0 <;>
    simp only [planRaiser, hw.reg, hl, ha, hb, hc, hg, if_neg (ne_empty_of_countOk hc), Bool.or_self, Bool.not_true,
      Bool.false_eq_true, if_false, oneOp, good]

theorem planLogev_event {f : LForm} (hw : SameOperands v w) (hl : lBad f false 0 false true true = false)
    (ha : poisonous (reg v f.a) = false) (hb : poisonous (reg v f.b) = false) (hc : countOk (reg v f.b) = true) :
    planLogev w f = oneOp (got w 0) (.logEvent ((reg v f.b).payload.extractLsb' 0 16) (reg v f.a)) (fun _ => { cycles := 20 }) := by
  cases hg : got w 0 <;>
    simp only [planLogev, hw.reg, hl, ha, hb, hc, hg, if_neg (ne_empty_of_countOk hc), Bool.or_self, Bool.not_true,
      Bool.false_eq_true, if_false, oneOp]

end

/-! ### O40 -/

/-- Settles O40: the plan of each instruction is that of the one operation named, by the lemma of its form. -/
theorem outsideWritesMakeOneOperation : Obligations.OutsideWritesMakeOneOperation := by
  unfold Obligations.OutsideWritesMakeOneOperation
  intro e n v s a
  refine ⟨?st, ?stsA, ?sts, ?cSts, ?stsx, ?stlq, ?timers, ?raise, ?raiser, ?logev⟩
  case st =>
    intro f h hb hd hadr
    exact ⟨fun hsp hr => makes_of_oneOp h fun w hw => planSt_slot hw hsp hb hd hadr hr,
      fun hsp ht hq => makes_of_oneOp h fun w hw => planSt_legacy hw hsp hb hd hadr ht hq⟩
  case stsA =>
    intro f h hi hd hr
    exact makes_of_oneOp h fun w hw => planStsA_slot hw hi hd hr
  case sts =>
    intro f h hl ha hd hadr hr
    exact makes_of_oneOp h fun w hw => planSts_slot hw hl ha hd hadr hr
  case cSts =>
    intro f h hqb ha hd hadr hr
    have hl : lBad ⟨f.d, f.a, 0, f.qb, 0⟩ false 0 true true false = false := by simp [lBad, hqb]
    exact makes_of_oneOp h fun w hw => planSts_slot hw hl ha hd hadr hr
  case stsx =>
    intro f h hl ha hb hd ht hadr hr
    exact makes_of_oneOp h fun w hw => planStsx_slot hw hl ha hb hd ht hadr hr
  case stlq =>
    intro f h hsp hb hd hadr ht
    exact makes_of_oneOp h fun w hw => planStlq_legacy hw hsp hb hd hadr ht
  case timers =>
    intro f ha h0 h63 x
    constructor
    · rintro h rfl
      exact makes_of_oneOp h fun w _ => planEventTimer_task (start := true) ha h0 h63
    · rintro h rfl
      exact makes_of_oneOp h fun w _ => planEventTimer_task (start := false) ha h0 h63
  case raise =>
    rintro f x h h0 h63 ha rfl
    exact makes_of_oneOp h fun w hw => planRaise_task hw h0 h63 ha
  case raiser =>
    rintro f x h hl ha hb hc rfl
    exact makes_of_oneOp h fun w hw => planRaiser_task hw hl ha hb hc
  case logev =>
    intro f h hl ha hb hc
    exact makes_of_oneOp h fun w hw => planLogev_event hw hl ha hb hc

end Sys2Proof.Proofs
end

section
/-! SUPPORT. What the events of the ports, the timebase and the station sessions leave, one lemma per event and case (R83, R239,
R253 to R257, R265, R276 to R288), and the settlement of O56. -/

namespace Sys2Proof.Proofs

open Sys2Proof.Machine
open Sys2Proof.Safety

variable {s : State}

/-- An event leaves what its meaning makes of the state. -/
theorem leaves_of_finish {i : Instr} {t u : State} (hi : exec i s = finish s t) (ht : t = u) : Claims.Leaves i s u := by
  rw [Claims.Leaves, hi, finish_eq, ht]
  rfl

/-! ### Frames (R253) -/

/-- A PTP message of the selected time link, in its domain, is received and measured (R253, R254). -/
theorem ptpMessage_measures {port : Fin 4} {f : NetFrame} (hf : f.fcsOk = true) (ht : f.etherType = 0x88F7) (h64 : 64 ≤ f.len)
    (h1522 : f.len ≤ 1522) (hl : isTimeLink (portRec s port.val) = true) (hh : portHears s port.val = true)
    (hc : ptpThisSecond (advance (s.dev.tickAt + 6 * f.endNs) s) port.val < 64) (hr : servoRuns s = true)
    (h2 : s.net.source = 2) (hp : s.net.tlPort = port.val) (hd : byteAt f.bytes 4 = s.net.domain) (ns : Int) :
    Claims.Leaves (.ptpMessage port f ns) s (measure ns (receive port.val f s)) := by
  refine leaves_of_finish rfl (if_pos ?_)
  simp only [hf, ht, h64, h1522, hl, hh, hc, hr, h2, hp, hd, and_self, decide_true, beq_self_eq_true, Bool.and_self]

/-! ### The input cut-off (R83) -/

theorem inputCutoff_closes {time : Nat} (hu : dieUp s = true) (hc : s.net.cycling = true)
    (hl : s.net.lastCut ≠ some s.dev.tick) {u w x : State}
    (eu : u = advance (max time (s.dev.tickAt + 6 * 249000)) (onNet (fun n => { n with lastCut := some s.dev.tick }) s))
    (ew : w = (lineKeys u).foldl (fun t k => cutRing k t) u)
    (ex : x = cutNewer ((cutList w).foldl (fun t a => cutStation a t) w)) :
    Claims.Leaves (.inputCutoff time) s (settle (onNet (fun n =>
      { n with stationView := x.net.stations.map (fun e => (e.1, stationRecord x e.1 e.2)) }) x)) := by
  subst eu ew ex
  exact leaves_of_finish rfl (if_neg (by simp [hu, hc, hl]))

/-- The cut-off of a cycle comes once: after it, a further one changes nothing. -/
theorem inputCutoff_again {time : Nat} (h : s.net.lastCut = some s.dev.tick) : exec (.inputCutoff time) s = .next s := by
  rw [exec_inputCutoff, execInputCutoff, if_pos (by simp [h])]
  rfl

/-! ### Ports (R239) -/

theorem ringBroken_records {port : Fin 4} {k : Nat} (hk : k = lineKey s port.val) (hr : isRing (portRec s k) = true)
    (h3 : 3 ≤ (getPort s k).oneEnd) (hb : (getPort s k).broken = false) :
    Claims.Leaves (.ringBroken port) s (logHw 0x4002 [b8 k, 1] (onPort k (fun p => { p with broken := true }) s)) := by
  subst hk
  exact leaves_of_finish rfl (if_pos (by simp [hr, h3, hb]))

/-! ### The timebase (R254 to R256) -/

@[simp] theorem capture_net (fw : Bool) (code : Nat) (data : Bytes) : (capture fw code data s).net = s.net := by
  obtain ⟨f, g, h⟩ := capture_eq_onRegs_onLog s fw code data
  rw [h, onRegs_net, onLog_net]

/-- A step that is due is made at the boundary: the correction is used up, and the tick has the number of the new time (R256). -/
theorem stepTimebase_steps (hd : s.net.stepDue = true) (hm : mayStep s = true) :
    (stepTimebase s).net.offset = 0 ∧ (stepTimebase s).net.stepOffset = 0 ∧ (stepTimebase s).net.stepDue = false ∧
      (stepTimebase s).dev.tick = stepTick s.dev.tick s.net.stepOffset := by
  simp only [stepTimebase, hd, hm, Bool.and_self, if_true, logFw, capture_net, capture_dev, onNet_net, onNet_dev, onDev_dev, and_self]

theorem timebaseHoldover_holds (hu : dieUp s = true) (h0 : s.net.source ≠ 0) (hf : s.net.tb ≠ .free) :
    Claims.Leaves .timebaseHoldover s (onNet (fun n => { n with tb := .holdover, goodMeasures := 0 }) s) :=
  leaves_of_finish rfl (if_pos (by simp [hu, h0, hf]))

theorem mayStep_iff : mayStep s = true ↔ (s.dev.st = .configure ∨ s.dev.st = .stop) ∧ s.dev.role ≠ .standby := by
  simp only [mayStep, Bool.and_eq_true, Bool.or_eq_true, beq_iff_eq, bne_iff_ne]

theorem timebaseStep_falls_due (hm : mayStep s = true) (h0 : s.net.source ≠ 0)
    (ht : s.net.threshold < s.net.stepOffset.natAbs) :
    Claims.Leaves .timebaseStep s (onNet (fun n => { n with stepDue := true }) s) :=
  leaves_of_finish rfl (if_pos (by simp [hm, h0, ht]))

theorem ppsInEdge_measures (hr : servoRuns s = true) (h1 : s.net.source = 1) (ns : Int) :
    Claims.Leaves (.ppsInEdge ns) s (measure (ns + (edgeSecond ns s - s.net.ppsSeconds) * 1000000000) (onNet (fun n =>
      { n with secondsBase := n.ppsSeconds, ppsSeconds := n.ppsSeconds + 1 }) s)) :=
  leaves_of_finish rfl (if_pos (by simp [hr, h1]))

/-! ### Times of a station session (R276 to R285) -/

section
variable {a : Nat} {e : Session} (hs : runningSession s a = some e)
include hs

/-- The fourth grant without an answer: the message goes out again, at most three times (R276). -/
theorem answerTimeout_resends (hp : e.st ≠ .probing) (ht : e.sent = true) (hg : 4 ≤ e.grants) (hr : e.resends < 3) :
    Claims.Leaves (.sessionAnswerTimeout a) s
      (onSession a (fun e => { e with sent := false, resends := e.resends + 1, grants := 0 }) s) := by
  refine leaves_of_finish rfl ?_
  simp only [hs]
  rw [if_neg (by simp [hp, ht, hg]), if_pos hr]

theorem answerTimeout_ends (hp : e.st ≠ .probing) (ht : e.sent = true) (hg : 4 ≤ e.grants) (hr : 3 ≤ e.resends) :
    Claims.Leaves (.sessionAnswerTimeout a) s (sessionExhausted a e s) := by
  refine leaves_of_finish rfl ?_
  simp only [hs]
  rw [if_neg (by simp [hp, ht, hg]), if_neg (Nat.not_lt.mpr hr)]

theorem waitTimeout_ends (hw : e.st = .waiting) (ht : 240000 ≤ e.waited) :
    Claims.Leaves (.sessionWaitTimeout a) s (closeUnresolved a stTimeout 1 0 false s) := by
  refine leaves_of_finish rfl ?_
  simp only [hs]
  exact if_pos (by simp [hw, ht])

theorem probeTimeout_ends (hp : e.st = .probing) (hg : 4 ≤ e.grants) (hc : e.waitCycle < s.dev.tick + 40) :
    Claims.Leaves (.probeTimeout a) s (closeSession a stTimeout 1 0 false s) := by
  refine leaves_of_finish rfl ?_
  simp only [hs]
  exact if_pos (by simp [hp, hg, hc])

end

section
variable {a : Nat} {x : Station} (hx : getStn s a = some x)
include hx

/-- A station that has not been verified is due for it again after 4,000 cycles (R288). -/
theorem verificationRepeat_falls_due (hr : sessionsRun s = true) (hv : x.st = .verifying ∨ x.unresolved.isSome = true)
    (hs : x.session = none) (hd : x.verifyDue = false) (hc : x.verifyCycle + 4000 ≤ s.dev.tick) :
    Claims.Leaves (.verificationRepeat a) s (onStn a (fun x => { x with verifyDue := true }) s) :=
  leaves_of_finish rfl (if_pos (by simp [hr, hx, hv, hs, hd, hc]))

theorem stationReturnTimeout_ends {i t : Nat} (hret : x.returning = some (i, t)) (ht : t + 240000 ≤ s.dev.tick) :
    Claims.Leaves (.stationReturnTimeout a) s
      (endStationOp a i stTimeout 12 0 (onStn a (fun x => { x with returning := none }) s)) := by
  refine leaves_of_finish rfl ?_
  simp only [hx, Option.bind_some, hret]
  exact if_pos ht

end

/-! ### O56 -/

/-- Settles O56: each event has its effect, by the lemma of its case. -/
theorem networkAndStationEventsRun : Obligations.NetworkAndStationEventsRun := by
  unfold Obligations.NetworkAndStationEventsRun
  refine ⟨?frames, ?cutoff, ?ring, ?portsAndTime, ?sessions, ?stations⟩
  case frames =>
    intro port f s
    refine ⟨leaves_of_finish rfl rfl, fun h => ?announce, fun h => ?answer, fun h => ?notify, fun ht hl => ?delayReq,
      ptpMessage_measures⟩
    case announce => exact leaves_of_finish rfl (if_pos h)
    case answer => exact leaves_of_finish rfl (if_pos h)
    case notify => exact leaves_of_finish rfl (if_pos h)
    case delayReq => exact leaves_of_finish rfl (if_pos ⟨ht, by rw [hl]; rfl⟩)
  case cutoff =>
    intro time s u w hu hc hl eu ew x ex
    refine ⟨inputCutoff_closes hu hc hl eu ew ex, fun t t' _ hcut hagain => ?_⟩
    exact (Host.Outcome.next.inj ((inputCutoff_again hcut).symm.trans hagain)).symm
  case ring =>
    intro port s k hk hr h3 hb
    exact ringBroken_records hk hr h3 hb
  case portsAndTime =>
    intro port s hu
    refine ⟨leaves_of_finish rfl (if_pos hu), leaves_of_finish rfl (if_pos hu), leaves_of_finish rfl (if_pos hu),
      timebaseHoldover_holds hu, fun hst hrole => timebaseStep_falls_due (mayStep_iff.mpr ⟨hst, hrole⟩), ?_, ppsInEdge_measures⟩
    rintro hd hm t rfl
    exact stepTimebase_steps hd hm
  case sessions =>
    intro a s e he
    exact ⟨answerTimeout_resends he, answerTimeout_ends he, waitTimeout_ends he, probeTimeout_ends he⟩
  case stations =>
    intro a s x hx
    exact ⟨verificationRepeat_falls_due hx, fun _ _ => stationReturnTimeout_ends hx⟩

end Sys2Proof.Proofs
end

section
/-! SUPPORT. What an engine on its own does at a fetch, before any effect of the instruction: it traps, or it executes nothing (R141,
R148, R200, R417, R467), and the settlement of O29. -/

namespace Sys2Proof.Proofs

open Sys2Proof.Machine
open Sys2Proof.Safety

/-! ### Instructions and engines -/

/-- Every Synna Code instruction is carried out by its engine; no other command has one. -/
theorem exec_of_engineOf {i : Instr} {e : Fin 16} (h : engineOf i = some e) (s : State) :
    exec i s = finish s (runInstr e.val i s) := by
  cases i <;> cases h <;> rfl

theorem exec_stays {i : Instr} {e : Fin 16} {s : State} (h : engineOf i = some e) (hr : runInstr e.val i s = s) :
    exec i s = .next s := by
  rw [exec_of_engineOf h, hr, finish_eq]

/-! ### What the fetch meets -/

section
variable {i j : Instr} {v : View}

theorem meets_offList (h : v.d.pages.contains (v.g.pc / 4096) = false) : meets i v = true := by
  simp only [meets, h, Bool.not_false, Bool.true_or]

theorem meets_none (h : codeAt v.s v.e v.g.pc = none) : meets i v = true := by
  simp only [meets, h, Option.all_none, Bool.or_true]

theorem meets_same (h : codeAt v.s v.e v.g.pc = some i) : meets i v = true := by
  simp only [meets, h, Option.all_some, beq_self_eq_true, Bool.or_true]

theorem meets_other (hp : v.d.pages.contains (v.g.pc / 4096) = true) (h : codeAt v.s v.e v.g.pc = some j) (hj : j ≠ i) :
    meets i v = false := by
  simp only [meets, hp, h, Option.all_some, beq_eq_false_iff_ne.mpr hj, Bool.not_true, Bool.or_self]

theorem fetched_offList (h : v.d.pages.contains (v.g.pc / 4096) = false) : fetched i v = .stop cCode 0 1 :=
  if_pos (by rw [h]; rfl)

theorem fetched_ctxBad (hp : v.d.pages.contains (v.g.pc / 4096) = true) (h : v.g.ctxBad = true) :
    fetched i v = .stop cPoison 0 1 := by
  rw [fetched, hp, if_neg (by decide), if_pos h]

theorem fetched_unspelt (hp : v.d.pages.contains (v.g.pc / 4096) = true) (hc : v.g.ctxBad = false)
    (h : codeAt v.s v.e v.g.pc = none) : fetched i v = .stop cIllegal 0 1 := by
  rw [fetched, hp, if_neg (by decide), hc, if_neg (by decide), h, Option.isNone_none, if_pos rfl, illegal]

end

theorem codeAt_straddling {s : State} {pc : Nat} (e : Nat) (hw : (fetchWord s pc).getLsbD 31 = true) (hp : pc % 4096 = 4094) :
    codeAt s e pc = none :=
  if_pos (by simp only [hw, hp, beq_self_eq_true, Bool.and_self])

/-! ### Engines that execute nothing (R123, R200, R467) -/

section
variable {e : Nat} {i : Instr} {s : State}

theorem runInstr_idle (h : mayBegin s e = false) : runInstr e i s = s := by
  simp only [runInstr, h, Bool.not_false, if_true]

theorem mayBegin_without_task (h : (getEng s e).task = none) : mayBegin s e = false := by
  simp only [mayBegin, h]

theorem mayBegin_held (h : (getEng s e).halted = true) (hs : (getEng s e).stepOne = false) : mayBegin s e = false := by
  cases ht : (getEng s e).task with
  | none => exact mayBegin_without_task ht
  | some n => simp [mayBegin, ht, h, hs]

theorem mayBegin_standby (h : s.dev.role = .standby) : mayBegin s e = false := by
  cases ht : (getEng s e).task with
  | none => exact mayBegin_without_task ht
  | some n => simp [mayBegin, ht, h]

end

/-! ### One engine at a fetch -/

/-- Engine e, alone and not as half of a pair, begins an instruction of task n under the view v. -/
structure Fetches (e n : Nat) (v : View) (s : State) : Prop where
  begins : mayBegin s e = true
  task : (getEng s e).task = some n
  single : (getTask s n).sched.dual = false
  view : viewOf (started e s) e = some v

section
variable {e n : Nat} {v : View} {s : State} {i : Instr}

/-- The code at the program counter is the same before the engine begins. -/
theorem Fetches.codeAt (h : Fetches e n v s) : codeAt v.s v.e v.g.pc = codeAt s e v.g.pc := by
  obtain ⟨hs, he⟩ := viewOf_names h.view
  rw [hs, he, started, codeAt_onEng]

/-- What an instruction meets does not depend on the results with which its engine begins. -/
theorem Fetches.viewBefore (h : Fetches e n v s) (i : Instr) :
    ∃ w, viewOf s e = some w ∧ w.d = v.d ∧ w.g.pc = v.g.pc ∧ meets i w = meets i v := by
  obtain ⟨w, hw, hd, hpc, hs, he⟩ := view_pc h.task h.view
  exact ⟨w, hw, hd, hpc, by rw [meets, meets, hd, hpc, hs, he, h.codeAt]⟩

/-- Where the line fails its check or the code spells another instruction, the engine executes nothing (R200; log entry 11). -/
theorem Fetches.runInstr_waits (h : Fetches e n v s) (hp : v.d.pages.contains (v.g.pc / 4096) = true)
    (hin : pageIn s (v.g.pc / 4096) = true) (hno : fetchPasses s v.g.pc = false ∨ meets i v = false) :
    runInstr e i s = s := by
  obtain ⟨w, hw, hwd, hwp, hwm⟩ := h.viewBefore i
  unfold runInstr
  simp only [h.begins, h.task, hw, hwd, hwp, hwm, hp, hin, Bool.not_true, Bool.false_eq_true, if_false, Bool.and_false, Bool.true_and]
  exact if_pos (by simpa using hno)

/-- An engine that meets its instruction, on a page off the list or on a resident one whose lines pass, runs it. -/
theorem Fetches.runInstr_runs (h : Fetches e n v s) (hm : meets i v = true)
    (hp : v.d.pages.contains (v.g.pc / 4096) = false ∨ pageIn s (v.g.pc / 4096) = true ∧ fetchPasses s v.g.pc = true) :
    runInstr e i s = runAlone n e i 8 (started e s) := by
  obtain ⟨w, hw, hwd, hwp, hwm⟩ := h.viewBefore i
  unfold runInstr
  simp only [h.begins, h.task, h.single, hw, hwd, hwp, hwm, hm, Bool.not_true, Bool.false_eq_true, if_false, Bool.or_false]
  rcases hp with hp | ⟨hin, hf⟩
  · simp only [hp, Bool.false_and, Bool.false_eq_true, if_false, started]
  · simp only [hin, hf, Bool.not_true, Bool.and_false, Bool.false_eq_true, if_false, started]

/-- A fetch that traps ends the activation before any effect of the instruction (R150). -/
theorem Fetches.traps {e : Fin 16} {cause : Nat} (h : Fetches e.val n v s) (he : engineOf i = some e) (hm : meets i v = true)
    (hp : v.d.pages.contains (v.g.pc / 4096) = false ∨ pageIn s (v.g.pc / 4096) = true ∧ fetchPasses s v.g.pc = true)
    (hf : fetched i v = .stop cause 0 1) : Traps i e.val n cause 0 1 s := by
  rw [Traps, exec_of_engineOf he, h.runInstr_runs hm hp, finish_eq]
  simp only [runAlone, h.view, hf, coreUnits_started, keep]

end

/-! ### O29 -/

/-- Settles O29: the trap of each fetch is that of `fetched`, and every other refusal is a branch of `runInstr` that leaves the state. -/
theorem fetchTrapsOrExecutesNothing : Obligations.FetchTrapsOrExecutesNothing := by
  unfold Obligations.FetchTrapsOrExecutesNothing
  refine ⟨fun i e n v s he hb ht hd hv => ?fetch, fun i e s he hno => exec_stays he (runInstr_idle ?idle)⟩
  case fetch =>
    have h : Fetches e.val n v s := ⟨hb, ht, hd, hv⟩
    refine ⟨fun hp => h.traps he (meets_offList hp) (.inl hp) (fetched_offList hp),
      fun hp hin => ⟨fun hf => exec_stays he (h.runInstr_waits hp hin (.inl hf)), fun hf => ⟨?other, ?ctxBad, ?unspelt⟩⟩,
      codeAt_straddling e.val⟩
    case other =>
      intro j hj hne
      exact exec_stays he (h.runInstr_waits hp hin (.inr (meets_other hp (h.codeAt.trans hj) hne)))
    case ctxBad =>
      intro hc hcode
      have hm : meets i v = true := hcode.elim (fun hk => meets_same (h.codeAt.trans hk)) (fun hk => meets_none (h.codeAt.trans hk))
      exact h.traps he hm (.inr ⟨hin, hf⟩) (fetched_ctxBad hp hc)
    case unspelt =>
      intro hc hk
      have hnone := h.codeAt.trans hk
      exact h.traps he (meets_none hnone) (.inr ⟨hin, hf⟩) (fetched_unspelt hp hc hnone)
  case idle =>
    rcases hno with hn | ⟨hh, hs⟩ | hr
    · exact mayBegin_without_task hn
    · exact mayBegin_held hh hs
    · exact mayBegin_standby hr

end Sys2Proof.Proofs
end

section
/-! SUPPORT. A long operation that no end is asked of goes on with its next unit (R51, R68), what the units of each operation leave, and
the settlements of O13 and O59. -/

namespace Sys2Proof.Proofs

open Sys2Proof.Machine
open Sys2Proof.Safety

/-! ### O13 -/

/-- Settles O13: each command serves its request, and its effect is the one stated. -/
theorem taskCommandsRun : Obligations.TaskCommandsRun := by
  unfold Obligations.TaskCommandsRun
  intro r
  refine ⟨?load, ?start, ?stop, ?config, ?status, ?suspend, ?resume, ?trigger, ?split, ?join⟩ <;>
    exact runs_of_serve (fun _ => rfl) rfl

/-! ### Operations that go on -/

/-- Operation i is o, it is neither done nor suspended, and where it stands no end is asked of it (R51, R68). -/
structure GoesOn (i : Nat) (o : LongOp) (s : State) : Prop where
  pending : getOp s i = some o
  undone : o.done = false
  unsuspended : o.suspended = false
  unasked : o.past = true ∨ stopAsked s o = false
  uncancelled : o.cancel ≠ some 0

theorem uncancelled_of_not_stopAsked {o : LongOp} {s : State} (h : stopAsked s o = false) : o.cancel ≠ some 0 := by
  simp only [stopAsked, Bool.or_eq_false_iff, beq_eq_false_iff_ne] at h
  exact h.1.1

section
variable {s : State} {i : Nat} {o : LongOp}

theorem GoesOn.goOn (h : GoesOn i o s) (f : LongOp → State → State) : goOn i f s = f o s := by
  have hask : ¬((!o.past && stopAsked s o || o.cancel == some 0) = true) := by
    rcases h.unasked with hp | hp <;> simp [hp, h.uncancelled]
  simp only [Machine.goOn, h.pending, h.undone, h.unsuspended, Bool.or_self, Bool.false_eq_true, if_false, if_neg hask]

theorem GoesOn.goOnOp (h : GoesOn i o s) {op : Nat} (hi : opIndex s op = some i) (f : Nat → LongOp → State → State) :
    goOnOp op f s = f i o s := by
  simp only [Machine.goOnOp, hi, h.goOn]

theorem GoesOn.goOnLoad (h : GoesOn i o s) (hi : loadIndex s = some i) (f : Nat → LongOp → State → State) :
    goOnLoad f s = f i o s := by
  simp only [Machine.goOnLoad, hi, h.goOn]

/-! ### MEM_TEST, FUSE_PROGRAM and the tracer (R221, R425, R475) -/

theorem memTestUnit_tests (h : GoesOn i o s) (hp : opsProceed s = true) (hi : opIndex s 0xB003 = some i)
    (ha : o.admitted = true) (ce : Nat) (fails : Bool) :
    Claims.Leaves (.memTestUnit ce fails) s (testUnit i ce fails o s) := by
  refine leaves_of_finish rfl ?_
  rw [whenB, if_pos hp, h.goOnOp hi, if_pos ha]

theorem fuseBit_fails (h : GoesOn i o s) (hi : opIndex s 0xA005 = some i) {n b : Nat} {r : List Nat} (hx : o.aux = n :: b :: r) :
    Claims.Leaves (.fuseBit false) s (endOp i stIntegrity (fuseResult o s) s) := by
  refine leaves_of_finish rfl ?_
  simp only [h.goOnOp hi, hx, Bool.not_false, if_true]

theorem fuseBit_takes (h : GoesOn i o s) (hi : opIndex s 0xA005 = some i) {n b : Nat} {r : List Nat} (hx : o.aux = n :: b :: r)
    (hr : r ≠ []) : Claims.Leaves (.fuseBit true) s
      (onOp i (fun _ => { o with aux := (n + 1) :: r, work := o.work + 1 }) (blowBit b s)) := by
  refine leaves_of_finish rfl ?_
  simp only [h.goOnOp hi, hx, Bool.not_true, Bool.false_eq_true, if_false, List.isEmpty_iff, hr]

theorem tracerCopy_carries {a : Nat} (ht : s.chg.traced.contains a = true) (hf : firmwareServes s = true)
    (hw : s.chg.window = none) : Claims.Leaves (.tracerCopy a) s
      (carryTraced a (onChg (fun c => { c with traced := c.traced.filter (· != a) }) s)) :=
  leaves_of_finish rfl (if_pos (by simp only [ht, hf, hw, Option.isNone_none, Bool.and_self]))

end

/-! ### PROGRAM_LOAD (R127, R195) -/

section
variable {time : Nat} {s u : State} {i : Nat} {o : LongOp} (hu : u = advance time s) (hf : firmwareServes s = true)
  (h : GoesOn i o u) (hst : u.dev.st ≠ .fault) (hrole : u.dev.role ≠ .syncing) (hi : loadIndex u = some i)
include hu hf h hst hrole hi

theorem programInstall_refuses {st n : Nat} (hc : checkLoad u o.req = .inr (st, n)) :
    Claims.Leaves (.programInstall time) s (endOp i st (leBytes 4 0 ++ leBytes 2 n) u) := by
  refine leaves_of_finish rfl ?_
  simp only [← hu, hf, h.goOnLoad hi, hst, hrole, hc, Bool.not_true, Bool.false_eq_true, or_self, if_false]

theorem programInstall_waits {p : Program} (hc : checkLoad u o.req = .inl p) (ha : o.admitted = false) :
    Claims.Leaves (.programInstall time) s (onOp i (fun o => { o with work := o.total / 2 }) (waitHere i u)) := by
  refine leaves_of_finish rfl ?_
  simp only [← hu, hf, h.goOnLoad hi, hst, hrole, hc, ha, Bool.not_true, Bool.not_false, Bool.false_eq_true, or_self, if_false,
    if_true]

/-- An admitted load installs its program, under the number that its archive entry has; without an entry it writes one first. -/
theorem programInstall_installs {p q : Program} (hc : checkLoad u o.req = .inl p) (ha : o.admitted = true)
    (hq : loadedAs o p = q) : Claims.Leaves (.programInstall time) s
      (endOp i stOk (leBytes 4 q.gen ++ leBytes 2 (need (defaultPlan q)))
        (onOp i (fun o => { o with work := o.total })
          (installProgram q (if o.aux.isEmpty then archiveProgramNow q u else u)))) := by
  refine leaves_of_finish rfl ?_
  simp only [← hu, hf, h.goOnLoad hi, hst, hrole, hc, ha, hq, Bool.not_true, Bool.false_eq_true, or_self, if_false]

end

theorem loadedAs_unarchived {o : LongOp} (h : o.aux = []) (p : Program) : loadedAs o p = p := by
  simp only [loadedAs, h]

theorem loadedAs_archived {o : LongOp} {g : Nat} {l : List Nat} (h : o.aux = g :: l) (p : Program) :
    loadedAs o p = { p with gen := g } := by
  simp only [loadedAs, h]

/-! ### CHANGE_STAGE (R218, R234) -/

section
variable {i : Nat} {o : LongOp} {b : Beside} {v : State}

theorem stageInstall_doomed (h : o.doomed = true ∨ effState v ≠ .run) :
    stageInstall i o b v = endOp i stAborted [] (archiveStaged b v) :=
  if_pos (by simpa only [Bool.or_eq_true, bne_iff_ne] using h)

variable {t : State} (hd : o.doomed = false) (he : effState v = .run)
  (ht : t = onOp i (fun o => { o with work := o.total }) (installStaged b v))
include hd he ht

theorem stageInstall_alone (hr : t.dev.role ≠ .primary) : stageInstall i o b v = stageDone i b t := by
  simp [stageInstall, hd, he, ← ht, hr]

theorem stageInstall_sends (hr : t.dev.role = .primary) (hs : hasStandby t = true) :
    stageInstall i o b v = sendSel (.bulk (.changeStage b.prog.keySlot b.prog.gen b.prog.image b.map.raw)) t := by
  simp [stageInstall, hd, he, ← ht, hr, hs]

theorem stageInstall_fails (hr : t.dev.role = .primary) (hs : hasStandby t = false) :
    stageInstall i o b v = stageFails i t := by
  simp [stageInstall, hd, he, ← ht, hr, hs]

end

section
variable {time : Nat} {s u : State} {i : Nat} {o : LongOp} (hu : u = advance time s) (hf : firmwareServes s = true)
  (h : GoesOn i o u) (hi : opIndex u 0x3001 = some i) (hw : s.chg.window = none) (hg : u.chg.staged = none)
include hu hf h hi hw hg

theorem changeStageInstall_refuses {st n p : Nat} (hc : checkStage u o.req = .inr (st, n, p)) :
    Claims.Leaves (.changeStageInstall time) s (endOp i st (leBytes 4 0 ++ leBytes 2 n ++ leBytes 2 p) u) := by
  refine leaves_of_finish rfl ?_
  simp only [← hu, hf, hw, h.goOnOp hi, hg, hc, Bool.not_true, Option.isSome_none, Bool.or_self, Bool.false_eq_true, if_false]

theorem changeStageInstall_conflicts {b : Beside} (hc : checkStage u o.req = .inl b)
    (hx : forcedIn u (b.map.actions.map conflictRange) ≠ []) (hb : bitOf (pByte o.req 25) 0 = false) :
    Claims.Leaves (.changeStageInstall time) s (endOp i stForceConflict (List.replicate 8 0 ++
      leBytes 4 (forcedIn u (b.map.actions.map conflictRange)).length ++
      leBytes 4 ((forcedIn u (b.map.actions.map conflictRange)).head?.getD 0)) u) := by
  refine leaves_of_finish rfl ?_
  simp only [← hu, hf, hw, h.goOnOp hi, hg, hc, hb, List.isEmpty_eq_false_iff.mpr hx, Bool.not_true, Bool.not_false, Bool.and_self,
    Option.isSome_none, Bool.or_self, Bool.false_eq_true, if_false, if_true]

/-- Without conflicting forces the staging waits for its admission, and admitted it goes on to steps 7 and 8 of R218. -/
theorem changeStageInstall_proceeds {b : Beside} {v : State} (hc : checkStage u o.req = .inl b)
    (hx : forcedIn u (b.map.actions.map conflictRange) = [])
    (hv : v = onChg (fun c => { c with busySlots := stageBusy b.map }) (dropForces [] u)) :
    Claims.Leaves (.changeStageInstall time) s
      (if o.admitted = false then onOp i (fun o => { o with work := kib (stageImage o.req + stageMap o.req) }) (waitHere i v)
      else stageInstall i o b v) := by
  refine leaves_of_finish rfl ?_
  simp only [← hu, hf, hw, h.goOnOp hi, hg, hc, hx, ← hv, Bool.not_true, Option.isSome_none, Bool.or_self, Bool.false_eq_true,
    if_false, List.isEmpty_nil, Bool.false_and, Bool.not_eq_true']

end

/-! ### O59 -/

/-- Settles O59: each unit is the meaning of its event in the case at hand. -/
theorem operationUnitsRun : Obligations.OperationUnitsRun := by
  unfold Obligations.OperationUnitsRun
  refine ⟨fun i o s ho hd hs => ⟨?memTest, ?fuse⟩, fun a s => tracerCopy_carries, ?install⟩
  case memTest =>
    intro ce fails hp hi ha hk
    exact memTestUnit_tests ⟨ho, hd, hs, .inr hk, uncancelled_of_not_stopAsked hk⟩ hp hi ha ce fails
  case fuse =>
    intro n b r hi hp hc hx
    have hg : GoesOn i o s := ⟨ho, hd, hs, .inl hp, hc⟩
    exact ⟨fuseBit_fails hg hi hx, fuseBit_takes hg hi hx⟩
  case install =>
    intro time s u i o hu hf ho hd hs hk hc hst hrole
    have hg : GoesOn i o u := ⟨ho, hd, hs, hk, hc⟩
    refine ⟨fun hi => ⟨?refuses, ?waits, ?installs⟩, fun hi hw hn => ⟨?stageRefuses, ?conflicts, ?proceeds⟩⟩
    case refuses => exact fun _ _ => programInstall_refuses hu hf hg hst hrole hi
    case waits => exact fun _ => programInstall_waits hu hf hg hst hrole hi
    case installs =>
      intro p hp ha
      refine ⟨fun hx => ?unarchived, fun g l q hx hq => ?archived⟩
      case unarchived =>
        have hgo := programInstall_installs hu hf hg hst hrole hi hp ha (loadedAs_unarchived hx p)
        rwa [hx, List.isEmpty_nil, if_pos rfl] at hgo
      case archived =>
        have hgo := programInstall_installs hu hf hg hst hrole hi hp ha ((loadedAs_archived hx p).trans hq.symm)
        have hgen : q.gen = g := by rw [hq]
        rwa [hx, List.isEmpty_cons, if_neg Bool.false_ne_true, hgen] at hgo
    case stageRefuses => exact fun _ _ _ => changeStageInstall_refuses hu hf hg hi hw hn
    case conflicts => exact fun _ => changeStageInstall_conflicts hu hf hg hi hw hn
    case proceeds =>
      intro b v hp hx hv
      have hgo := changeStageInstall_proceeds hu hf hg hi hw hn hp hx hv
      refine ⟨fun ha => by rwa [if_pos ha] at hgo, fun ha => ?admitted, fun t ha hdoom he ht => ?staged⟩
      case admitted =>
        intro hdoom
        rwa [if_neg (by simp [ha]), stageInstall_doomed hdoom] at hgo
      case staged =>
        rw [if_neg (by simp [ha])] at hgo
        exact ⟨fun hr => stageInstall_alone hdoom he ht hr ▸ hgo, fun hr hb => stageInstall_sends hdoom he ht hr hb ▸ hgo,
          fun hr hb => stageInstall_fails hdoom he ht hr hb ▸ hgo⟩

end Sys2Proof.Proofs
end

section
/-! SUPPORT. The words of Synna Code (R141 to R146, R164): each format gives back the fields that it was put together from, and a
word is put together again from its fields. With it the settlement of O28. -/

namespace Sys2Proof.Proofs

open Sys2Proof.Machine
open Sys2Proof.Safety

/-! ### Fields and words -/

theorem regOf_regBits (r : Fin 32) : regOf (regBits r) = r := by
  apply Fin.ext
  simp [regOf, regBits]

theorem regBits_regOf (b : BitVec 5) : regBits (regOf b) = b := by
  simp [regOf, regBits]

theorem one_of_top {w : BitVec 32} (h : w.getLsbD 31 = true) : 1#1 = w.extractLsb' 31 1 := by
  rw [BitVec.getLsbD_eq_extractLsb', beq_iff_eq] at h
  exact h.symm

theorem zero_of_top {p : BitVec 16} (h : p.getLsbD 15 = false) : 0#1 = p.extractLsb' 15 1 := by
  rw [BitVec.getLsbD_eq_extractLsb', beq_eq_false_iff_ne] at h
  exact ((BitVec.eq_zero_or_eq_one _).resolve_right h).symm

theorem ofBool_getLsbD {n : Nat} (w : BitVec n) (k : Nat) : BitVec.ofBool (w.getLsbD k) = w.extractLsb' k 1 := by
  rw [BitVec.getLsbD_eq_extractLsb']
  rcases BitVec.eq_zero_or_eq_one (w.extractLsb' k 1) with h | h <;> rw [h] <;> rfl

/-- A 32-bit format (R142): the top bit is 1, the opcode follows, and the rest holds the fields, each value of them. -/
structure LongFormat {F : Type} (word : Nat → F → BitVec 32) (fields : BitVec 32 → F) : Prop where
  top : ∀ op f, (word op f).getLsbD 31 = true
  opcode : ∀ op f, (word op f).extractLsb' 25 6 = BitVec.ofNat 6 op
  fields_word : ∀ op f, fields (word op f) = f
  word_fields : ∀ w, w.getLsbD 31 = true → word (w.extractLsb' 25 6).toNat (fields w) = w

/-- Format L with its function, which the instruction fixes. -/
def wordFn (op : Nat) (x : BitVec 6 × LForm) : BitVec 32 := wordL op x.1.toNat x.2

/-- The function and the fields of format L. -/
def fieldsFn (w : BitVec 32) : BitVec 6 × LForm := (w.extractLsb' 4 6, fieldsL w)

theorem longFormat_L : LongFormat wordFn fieldsFn where
  top op f := by
    simp only [wordFn, wordL, BitVec.getLsbD_append]
    rfl
  opcode op f := by
    simp (disch := decide) only [wordFn, wordL, BitVec.extractLsb'_append_eq_of_le, Nat.reduceSub,
      BitVec.extractLsb'_append_eq_right]
  fields_word op := by
    rintro ⟨fn, d, a, b, qb, xf⟩
    simp (disch := decide) only [fieldsFn, fieldsL, wordFn, wordL, BitVec.extractLsb'_append_eq_of_le,
      BitVec.extractLsb'_append_eq_of_add_le, Nat.reduceSub, BitVec.extractLsb'_eq_self, BitVec.getLsbD_append, regOf_regBits]
    simp
  word_fields w h := by
    simp only [wordFn, fieldsFn, wordL, fieldsL, one_of_top h, ofBool_getLsbD, regBits_regOf, BitVec.ofNat_toNat,
      BitVec.setWidth_eq, BitVec.extractLsb'_append_extractLsb'_eq_extractLsb', BitVec.extractLsb'_eq_self]

theorem longFormat_I : LongFormat wordI fieldsI where
  top op f := by
    simp only [wordI, BitVec.getLsbD_append]
    rfl
  opcode op f := by
    simp (disch := decide) only [wordI, BitVec.extractLsb'_append_eq_of_le, Nat.reduceSub, BitVec.extractLsb'_append_eq_right]
  fields_word op f := by
    simp (disch := decide) only [fieldsI, wordI, BitVec.extractLsb'_append_eq_of_le, BitVec.extractLsb'_append_eq_of_add_le,
      Nat.reduceSub, BitVec.extractLsb'_eq_self, regOf_regBits]
  word_fields w h := by
    simp only [wordI, fieldsI, one_of_top h, regBits_regOf, BitVec.ofNat_toNat, BitVec.setWidth_eq,
      BitVec.extractLsb'_append_extractLsb'_eq_extractLsb', BitVec.extractLsb'_eq_self]

theorem longFormat_M : LongFormat wordM fieldsM where
  top op f := by
    simp only [wordM, BitVec.getLsbD_append]
    rfl
  opcode op f := by
    simp (disch := decide) only [wordM, BitVec.extractLsb'_append_eq_of_le, Nat.reduceSub, BitVec.extractLsb'_append_eq_right]
  fields_word op := by
    rintro ⟨d, base, sp, disp⟩
    simp (disch := decide) only [fieldsM, wordM, BitVec.extractLsb'_append_eq_of_le, BitVec.extractLsb'_append_eq_of_add_le,
      Nat.reduceSub, BitVec.extractLsb'_eq_self, regOf_regBits]
    simp
  word_fields w h := by
    simp only [wordM, fieldsM, one_of_top h, regBits_regOf, BitVec.ofNat_toNat, BitVec.setWidth_eq,
      BitVec.extractLsb'_append_extractLsb'_eq_extractLsb', BitVec.extractLsb'_eq_self]

theorem longFormat_J : LongFormat wordJ fieldsJ where
  top op f := by
    simp only [wordJ, BitVec.getLsbD_append]
    rfl
  opcode op f := by
    simp (disch := decide) only [wordJ, BitVec.extractLsb'_append_eq_of_le, Nat.reduceSub, BitVec.extractLsb'_append_eq_right]
  fields_word op f := by
    simp (disch := decide) only [fieldsJ, wordJ, BitVec.extractLsb'_append_eq_of_le, BitVec.extractLsb'_append_eq_of_add_le,
      Nat.reduceSub, BitVec.extractLsb'_eq_self, regOf_regBits]
  word_fields w h := by
    simp only [wordJ, fieldsJ, one_of_top h, regBits_regOf, BitVec.ofNat_toNat, BitVec.setWidth_eq,
      BitVec.extractLsb'_append_extractLsb'_eq_extractLsb', BitVec.extractLsb'_eq_self]

theorem longFormat_W : LongFormat wordW fieldsW where
  top op f := by
    simp only [wordW, BitVec.getLsbD_append]
    rfl
  opcode op f := by
    simp (disch := decide) only [wordW, BitVec.extractLsb'_append_eq_of_le, Nat.reduceSub, BitVec.extractLsb'_append_eq_right]
  fields_word op f := by
    simp (disch := decide) only [fieldsW, wordW, BitVec.extractLsb'_append_eq_of_le, BitVec.extractLsb'_append_eq_of_add_le,
      Nat.reduceSub, BitVec.extractLsb'_eq_self, regOf_regBits]
  word_fields w h := by
    simp only [wordW, fieldsW, one_of_top h, regBits_regOf, BitVec.ofNat_toNat, BitVec.setWidth_eq,
      BitVec.extractLsb'_append_extractLsb'_eq_extractLsb', BitVec.extractLsb'_eq_self]

/-- A 16-bit format (R143): the first parcel has a top bit 0, the opcode and the fields. -/
structure ShortFormat {F : Type} (parcel : Nat → F → BitVec 16) (fields : BitVec 16 → F) : Prop where
  top : ∀ op f, (parcel op f).getLsbD 15 = false
  opcode : ∀ op f, (parcel op f).extractLsb' 11 4 = BitVec.ofNat 4 op
  fields_parcel : ∀ op f, fields (parcel op f) = f
  parcel_fields : ∀ p, p.getLsbD 15 = false → parcel (p.extractLsb' 11 4).toNat (fields p) = p

/-- The parcels of the formats C2, CI, CM and CC, and of the branch. -/
def parcelC2 (op : Nat) (f : C2Form) : BitVec 16 := 0#1 ++ BitVec.ofNat 4 op ++ regBits f.d ++ regBits f.a ++ BitVec.ofBool f.qb
def parcelC6 (op : Nat) (f : C6Form) : BitVec 16 := 0#1 ++ BitVec.ofNat 4 op ++ regBits f.r ++ f.imm
def parcelBr (op : Nat) (disp : BitVec 11) : BitVec 16 := 0#1 ++ BitVec.ofNat 4 op ++ disp

/-- Format CS, whose first field says which instruction it is. -/
def parcelSys (op : Nat) (x : BitVec 5 × BitVec 6) : BitVec 16 := 0#1 ++ BitVec.ofNat 4 op ++ x.1 ++ x.2

/-- Both fields of format CS. -/
def fieldsSys (p : BitVec 16) : BitVec 5 × BitVec 6 := (p.extractLsb' 6 5, p.extractLsb' 0 6)

theorem shortFormat_C2 : ShortFormat parcelC2 fieldsC2 where
  top op f := by
    simp only [parcelC2, BitVec.getLsbD_append]
    rfl
  opcode op f := by
    simp (disch := decide) only [parcelC2, BitVec.extractLsb'_append_eq_of_le, Nat.reduceSub, BitVec.extractLsb'_append_eq_right]
  fields_parcel op f := by
    simp (disch := decide) only [fieldsC2, parcelC2, BitVec.extractLsb'_append_eq_of_le, BitVec.extractLsb'_append_eq_of_add_le,
      Nat.reduceSub, BitVec.extractLsb'_eq_self, regOf_regBits, BitVec.getLsbD_append]
    simp
  parcel_fields p h := by
    simp only [parcelC2, fieldsC2, zero_of_top h, ofBool_getLsbD, regBits_regOf, BitVec.ofNat_toNat, BitVec.setWidth_eq,
      BitVec.extractLsb'_append_extractLsb'_eq_extractLsb', BitVec.extractLsb'_eq_self]

theorem shortFormat_C6 : ShortFormat parcelC6 fieldsC6 where
  top op f := by
    simp only [parcelC6, BitVec.getLsbD_append]
    rfl
  opcode op f := by
    simp (disch := decide) only [parcelC6, BitVec.extractLsb'_append_eq_of_le, Nat.reduceSub, BitVec.extractLsb'_append_eq_right]
  fields_parcel op f := by
    simp (disch := decide) only [fieldsC6, parcelC6, BitVec.extractLsb'_append_eq_of_le, BitVec.extractLsb'_append_eq_of_add_le,
      Nat.reduceSub, BitVec.extractLsb'_eq_self, regOf_regBits]
  parcel_fields p h := by
    simp only [parcelC6, fieldsC6, zero_of_top h, regBits_regOf, BitVec.ofNat_toNat, BitVec.setWidth_eq,
      BitVec.extractLsb'_append_extractLsb'_eq_extractLsb', BitVec.extractLsb'_eq_self]

theorem shortFormat_Br : ShortFormat parcelBr (fun p => p.extractLsb' 0 11) where
  top op f := by
    simp only [parcelBr, BitVec.getLsbD_append]
    rfl
  opcode op f := by
    simp (disch := decide) only [parcelBr, BitVec.extractLsb'_append_eq_of_le, Nat.reduceSub, BitVec.extractLsb'_append_eq_right]
  fields_parcel op f := by
    simp only [parcelBr, BitVec.extractLsb'_append_eq_right]
  parcel_fields p h := by
    simp only [parcelBr, zero_of_top h, BitVec.ofNat_toNat, BitVec.setWidth_eq,
      BitVec.extractLsb'_append_extractLsb'_eq_extractLsb', BitVec.extractLsb'_eq_self]

theorem shortFormat_Sys : ShortFormat parcelSys fieldsSys where
  top op f := by
    simp only [parcelSys, BitVec.getLsbD_append]
    rfl
  opcode op f := by
    simp (disch := decide) only [parcelSys, BitVec.extractLsb'_append_eq_of_le, Nat.reduceSub, BitVec.extractLsb'_append_eq_right]
  fields_parcel op f := by
    simp (disch := decide) only [fieldsSys, parcelSys, BitVec.extractLsb'_append_eq_of_le, BitVec.extractLsb'_append_eq_right,
      Nat.reduceSub]
  parcel_fields p h := by
    simp only [parcelSys, fieldsSys, zero_of_top h, BitVec.ofNat_toNat, BitVec.setWidth_eq,
      BitVec.extractLsb'_append_extractLsb'_eq_extractLsb', BitVec.extractLsb'_eq_self]

/-! ### The first parcel -/

theorem firstParcel_short (p : BitVec 16) : (short p).extractLsb' 16 16 = p := by
  simp (disch := decide) only [short, BitVec.extractLsb'_append_eq_of_le, Nat.reduceSub, BitVec.extractLsb'_eq_self]

theorem top_short (p : BitVec 16) : (short p).getLsbD 31 = p.getLsbD 15 := by
  simp only [short, BitVec.getLsbD_append]
  rfl

theorem top_firstParcel (w : BitVec 32) : (w.extractLsb' 16 16).getLsbD 15 = w.getLsbD 31 := by
  simp

/-- A word without a second parcel is that of its first. -/
theorem short_firstParcel {w : BitVec 32} (h : w.extractLsb' 0 16 = 0) : short (w.extractLsb' 16 16) = w := by
  rw [short, ← BitVec.ofNat_eq_ofNat, ← h]
  exact BitVec.extractLsb'_append_extractLsb'

/-! ### What a word decodes to -/

section
variable {e : Fin 16} {F : Type} {op : Nat} {i : Instr}

theorem decodeSnc_wordL {fn : Nat} {f : LForm} (hop : op < 64) (hfn : fn < 64) (h : decodeL e f (BitVec.ofNat 6 fn) op = some i) :
    decodeSnc e (wordL op fn f) = some i := by
  have hw : wordL op fn f = wordFn op (BitVec.ofNat 6 fn, f) := by
    rw [wordFn, BitVec.toNat_ofNat, Nat.mod_eq_of_lt hfn]
  obtain ⟨hf, hl⟩ := Prod.mk.inj (longFormat_L.fields_word op (BitVec.ofNat 6 fn, f))
  rw [hw, decodeSnc, longFormat_L.top, if_pos rfl, decodeLong, longFormat_L.opcode, BitVec.toNat_ofNat, Nat.mod_eq_of_lt hop]
  simp only [hf, hl, h]

/-- An instruction whose opcode is its own (R142). -/
theorem LongFormat.decodeSnc_word {word : Nat → F → BitVec 32} {fields : BitVec 32 → F} {mk : F → Instr}
    (hform : LongFormat word fields) {f : F} (hop : op < 64) (hL : ∀ g fn, decodeL e g fn op = none)
    (hO : ∀ w, decodeOther e w (w.extractLsb' 4 6) op = some (mk (fields w))) : decodeSnc e (word op f) = some (mk f) := by
  rw [decodeSnc, hform.top, if_pos rfl, decodeLong, hform.opcode, BitVec.toNat_ofNat, Nat.mod_eq_of_lt hop]
  simp only [hL, hO, hform.fields_word]

theorem ShortFormat.decodeSnc_short {parcel : Nat → F → BitVec 16} {fields : BitVec 16 → F}
    (hform : ShortFormat parcel fields) {f : F} (op : Nat) : decodeSnc e (short (parcel op f)) = decodeShort e (parcel op f) := by
  rw [decodeSnc, top_short, hform.top, if_neg Bool.false_ne_true, firstParcel_short]

/-- Of format CS the first field chooses the instruction. -/
theorem decodeSnc_wordSys {sop : Nat} {low : BitVec 6} {mk : BitVec 6 → Instr} (hsop : sop < 32)
    (h : ∀ p, (p.extractLsb' 11 4).toNat = 15 → (p.extractLsb' 6 5).toNat = sop →
      decodeShort e p = some (mk (p.extractLsb' 0 6))) :
    decodeSnc e (wordSys sop low) = some (mk low) := by
  obtain ⟨hfirst, hlow⟩ := Prod.mk.inj (shortFormat_Sys.fields_parcel 15 (BitVec.ofNat 5 sop, low))
  have hw : wordSys sop low = short (parcelSys 15 (BitVec.ofNat 5 sop, low)) := rfl
  have hop : ((parcelSys 15 (BitVec.ofNat 5 sop, low)).extractLsb' 11 4).toNat = 15 := by
    rw [shortFormat_Sys.opcode]
    rfl
  rw [hw, shortFormat_Sys.decodeSnc_short, h _ hop (by rw [hfirst, BitVec.toNat_ofNat, Nat.mod_eq_of_lt hsop]), hlow]

end

/-! ### The instruction of a word -/

/-- Word w, of one parcel or of two, encodes instruction i for engine e. -/
def Spells (e : Fin 16) (w : BitVec 32) (one : Bool) (i : Instr) : Prop := encodeSnc i = some (e, w) ∧ shortForm i = one

section
variable {e : Fin 16} {i : Instr}

theorem spells_of_decodeL {f : LForm} {fn : BitVec 6} {op : Nat} (h : decodeL e f fn op = some i) :
    Spells e (wordL op fn.toNat f) false i := by
  unfold decodeL at h
  generalize fn.toNat = k at h ⊢
  split at h
  case h_20 => cases h
  all_goals split at h <;> cases h <;> exact ⟨rfl, rfl⟩

theorem spells_of_decodeOther {w : BitVec 32} {op : Nat} (hw : w.getLsbD 31 = true) (hop : (w.extractLsb' 25 6).toNat = op)
    (h : decodeOther e w (w.extractLsb' 4 6) op = some i) : Spells e w false i := by
  have hL : wordL op (w.extractLsb' 4 6).toNat (fieldsL w) = w := hop ▸ longFormat_L.word_fields w hw
  have hI : wordI op (fieldsI w) = w := hop ▸ longFormat_I.word_fields w hw
  have hM : wordM op (fieldsM w) = w := hop ▸ longFormat_M.word_fields w hw
  have hJ : wordJ op (fieldsJ w) = w := hop ▸ longFormat_J.word_fields w hw
  have hW : wordW op (fieldsW w) = w := hop ▸ longFormat_W.word_fields w hw
  clear hop
  unfold decodeOther at h
  split at h <;> cases h
  all_goals refine ⟨congrArg (fun x => some (e, x)) (?_ : _ = w), rfl⟩
  all_goals simp only [hL, hI, hM, hJ, hW]

theorem spells_of_decodeShort {p : BitVec 16} (hp : p.getLsbD 15 = false) (h : decodeShort e p = some i) :
    Spells e (short p) true i := by
  have h2 := shortFormat_C2.parcel_fields p hp
  have h6 := shortFormat_C6.parcel_fields p hp
  have hBr := shortFormat_Br.parcel_fields p hp
  have hSys := shortFormat_Sys.parcel_fields p hp
  unfold decodeShort at h
  generalize (p.extractLsb' 11 4).toNat = op at h h2 h6 hBr hSys
  split at h
  -- The fifteenth arm of `decodeShort` is C.SYS, the fourteenth the branch.
  case h_15 =>
    have hfirst : p.extractLsb' 6 5 = BitVec.ofNat 5 (p.extractLsb' 6 5).toNat := by rw [BitVec.ofNat_toNat, BitVec.setWidth_eq]
    rw [fieldsSys, hfirst] at hSys
    generalize (p.extractLsb' 6 5).toNat = sop at h hSys
    split at h <;> cases h
    all_goals exact ⟨congrArg (fun x => some (e, short x)) hSys, rfl⟩
  all_goals cases h
  all_goals refine ⟨congrArg (fun x => some (e, short x)) (?_ : _ = p), rfl⟩
  case h_14 => exact hBr
  case h_1 | h_2 | h_3 | h_4 | h_5 | h_10 | h_11 => exact h2
  all_goals exact h6

theorem decodeSnc_of_encodeSnc {w : BitVec 32} (h : encodeSnc i = some (e, w)) : decodeSnc e w = some i := by
  cases i <;> cases h
  case cvt fn f =>
    exact longFormat_L.decodeSnc_word (op := 0x18) (f := (fn, f)) (mk := fun x => .cvt e x.1 x.2) (by decide) (fun _ _ => rfl)
      (fun _ => rfl)
  case addi | muli | ceqi | clti | cgti | andi | ori | xori | tmstart | tmstop | raise =>
    exact longFormat_I.decodeSnc_word (by decide) (fun _ _ => rfl) (fun _ => rfl)
  case ld | st | ldls | stlq => exact longFormat_M.decodeSnc_word (by decide) (fun _ _ => rfl) (fun _ => rfl)
  case br | bt | bf | call | be => exact longFormat_J.decodeSnc_word (by decide) (fun _ _ => rfl) (fun _ => rfl)
  case ldi | lui | ldd | ldsA | stsA | trapi => exact longFormat_W.decodeSnc_word (by decide) (fun _ _ => rfl) (fun _ => rfl)
  case cMov | cAdd | cSub | cAnd | cOr | cLds | cSts =>
    refine (shortFormat_C2.decodeSnc_short _).trans ?_
    rw [decodeShort, shortFormat_C2.opcode, shortFormat_C2.fields_parcel]
    rfl
  case cAddi | cLdk | cLdl | cStl | cBt | cBf =>
    refine (shortFormat_C6.decodeSnc_short _).trans ?_
    rw [decodeShort, shortFormat_C6.opcode, shortFormat_C6.fields_parcel]
    rfl
  case cBr =>
    refine (shortFormat_Br.decodeSnc_short 12).trans ?_
    rw [decodeShort, shortFormat_Br.opcode, shortFormat_Br.fields_parcel]
    rfl
  case cSysNop | cSysRet | cSysEnd | cSysTrap =>
    exact decodeSnc_wordSys (by decide) (fun p h15 hsop => by simp only [decodeShort, h15, hsop])
  all_goals exact decodeSnc_wordL (by decide) (by decide) rfl

/-- What a word decodes to, it spells: a 16-bit form with its first parcel alone. -/
theorem spells_of_decodeSnc {w : BitVec 32} (h : decodeSnc e w = some i) :
    Spells e (if w.getLsbD 31 then w else short (w.extractLsb' 16 16)) (!w.getLsbD 31) i := by
  unfold decodeSnc at h
  split at h
  case isTrue hw =>
    rw [if_pos hw, hw]
    unfold decodeLong at h
    dsimp only at h
    split at h
    next j hL =>
      cases h
      have hw' : wordL _ _ _ = w := longFormat_L.word_fields w hw
      exact hw' ▸ spells_of_decodeL hL
    next => exact spells_of_decodeOther hw rfl h
  case isFalse hw =>
    rw [if_neg hw, Bool.eq_false_iff.mpr hw]
    exact spells_of_decodeShort (by rw [top_firstParcel, Bool.eq_false_iff.mpr hw]) h

end

theorem encodeSnc_of_engineOf {e : Fin 16} {i : Instr} (h : engineOf i = some e) : ∃ w, encodeSnc i = some (e, w) := by
  cases i <;> cases h <;> exact ⟨_, rfl⟩

/-- Settles O28: what the words of each format give back (`LongFormat`, `ShortFormat`), for every instruction. -/
theorem codeWordsRoundTrip : Obligations.CodeWordsRoundTrip := by
  unfold Obligations.CodeWordsRoundTrip
  refine ⟨fun i e h => encodeSnc_of_engineOf h, fun i e w h => decodeSnc_of_encodeSnc h, fun i e w h => ?_⟩
  obtain ⟨henc, hform⟩ := spells_of_decodeSnc h
  refine ⟨fun hw => ?_, hform⟩
  rw [henc]
  rcases hw with hw | hw
  · rw [if_pos hw]
  · rw [short_firstParcel hw, ite_self]

end Sys2Proof.Proofs
end

section
/-! SUPPORT. What a plan says of an instruction on an engine of its own (R141, R148 to R150, R301): it completes, ends the
activation, traps, or gives its destination the result of an operation; and the settlement of O27. -/

namespace Sys2Proof.Proofs

open Sys2Proof.Machine
open Sys2Proof.Safety

section
variable {i : Instr} {e : Fin 16} {n : Nat} {v : View} {s : State}

theorem completes_of_done {f : Effect} (he : engineOf i = some e) (h : Alone i e.val n v s) (hp : sncPlan i v = .done f)
    (hf : f.ends = false := by rfl) : Completes i e.val n f s := by
  rw [Completes, exec_of_engineOf he, runInstr_done h hp hf, finish_eq, keep]

theorem ends_of_done {f : Effect} (he : engineOf i = some e) (h : Alone i e.val n v s) (hp : sncPlan i v = .done f)
    (hf : f.ends = true := by rfl) :
    exec i s = .next (keep s (settle (endActivation n none (complete false n e.val (lengthOf i) f (started e.val s))))) := by
  rw [exec_of_engineOf he, runInstr_ends h hp hf, finish_eq, keep]

theorem traps_of_stop {c u cy : Nat} (he : engineOf i = some e) (h : Alone i e.val n v s) (hp : sncPlan i v = .stop c u cy) :
    Traps i e.val n c u cy s := by
  rw [Traps, exec_of_engineOf he, runInstr_stop h hp, finish_eq, keep]

/-- An instruction whose operands are sound gives d the result of its operation. -/
theorem gives_of_resPlan {d : Fin 32} {qb : Bool} {ws : List TWord} {res : Res} {cycles : BitVec 4 → Nat}
    (he : engineOf i = some e) (h : Alone i e.val n v s) (hp : sncPlan i v = resPlan v d qb ws res cycles)
    (hws : ws.any poisonous = false) : Gives i e.val n v d qb ws res cycles s := by
  rw [resPlan.eq_def, hws, if_neg Bool.false_ne_true] at hp
  cases res with
  | ok t p c => exact completes_of_done he h hp
  | fail cause t p =>
    simp only [dataCause] at hp
    simp only [Gives]
    split at hp
    case isTrue hm =>
      rw [if_pos hm]
      exact completes_of_done he h hp
    case isFalse hm =>
      rw [if_neg hm]
      exact traps_of_stop he h hp

end

/-- Settles O27: each kind of plan with the run of the engine that follows it. -/
theorem engineCarriesOutPlan : Obligations.EngineCarriesOutPlan := by
  unfold Obligations.EngineCarriesOutPlan
  intro i e n v s he h
  refine ⟨fun f hp hf => completes_of_done he h hp hf, fun f hp hf => ends_of_done he h hp hf,
    fun c u cy hp => traps_of_stop he h hp, ?need⟩
  case need =>
    intro op w f hp hw hq hf
    rw [exec_of_engineOf he, runInstr_need h hp hw hq hf, finish_eq, keep]

end Sys2Proof.Proofs
end

section
/-! SUPPORT. Instructions whose plan is one operation on their register operands (R149, R168 to R172, R190), and the settlement of
O32. -/

namespace Sys2Proof.Proofs

open Sys2Proof.Machine
open Sys2Proof.Safety

section
variable {mk : Fin 16 → LForm → Instr} {cycles : BitVec 4 → Nat}

theorem claims_two {op : Bool → TWord → TWord → Res} (hp : ∀ e f v, sncPlan (mk e f) v = plan2 v f true (op v.g.lgc) cycles)
    (he : ∀ e f, engineOf (mk e f) = some e := by exact fun _ _ => rfl) : Claims.Two mk op cycles := by
  intro e f n v s h hl ha hb
  refine gives_of_resPlan (he e f) h ?_ (by simp only [List.any, ha, hb, Bool.or_self])
  rw [hp, plan2, hl, if_neg Bool.false_ne_true]

theorem claims_one {op : Bool → TWord → Res} (hp : ∀ e f v, sncPlan (mk e f) v = plan1 v f true (op v.g.lgc) cycles)
    (he : ∀ e f, engineOf (mk e f) = some e := by exact fun _ _ => rfl) : Claims.One mk op cycles := by
  intro e f n v s h hl ha
  refine gives_of_resPlan (he e f) h ?_ (by simp only [List.any, ha, Bool.or_self])
  rw [hp, plan1, hl, if_neg Bool.false_ne_true]

theorem claims_three {op : Bool → TWord → TWord → TWord → Res}
    (hp : ∀ e f v, sncPlan (mk e f) v = plan3 v f true (op v.g.lgc) cycles)
    (he : ∀ e f, engineOf (mk e f) = some e := by exact fun _ _ => rfl) : Claims.Three mk op cycles := by
  intro e f n v s h hl hd ha hb
  refine gives_of_resPlan (he e f) h ?_ (by simp only [List.any, hd, ha, hb, Bool.or_self])
  rw [hp, plan3, hl, if_neg Bool.false_ne_true]

end

theorem claims_immediate {mk : Fin 16 → IForm → Instr} {op : Bool → Word → TWord → Res} {cycles : Nat}
    (hp : ∀ e f v, sncPlan (mk e f) v = planI v f (op v.g.lgc (immWord f.imm)) cycles)
    (he : ∀ e f, engineOf (mk e f) = some e := by exact fun _ _ => rfl) : Claims.Immediate mk op cycles := by
  intro e f n v s h ha
  exact gives_of_resPlan (he e f) h (hp e f v) (by simp only [List.any, ha, Bool.or_self])

/-- A REAL form that costs what the other form does. -/
theorem cyc_self (k : Nat) : cyc k k = fun _ => k := by
  funext t
  exact ite_self k

/-- Settles O32: the plan of each instruction is its operation on its operands. -/
theorem arithmeticInstructionsRun : Obligations.ArithmeticInstructionsRun := by
  unfold Obligations.ArithmeticInstructionsRun
  simp only [← cyc_self 16, ← cyc_self 40, ← cyc_self 48, ← cyc_self 56]
  refine ⟨?add, ?sub, ?mul, ?div, ?mod, ?neg, ?abs, ?min, ?max, ?lim, ?addi, ?muli, ?sqrt, ?ln, ?exp, ?sin, ?cos, ?atan2⟩
  case lim => exact claims_three fun _ _ _ => rfl
  case addi | muli => exact claims_immediate fun _ _ _ => rfl
  case neg | abs | sqrt | ln | exp | sin | cos => exact claims_one fun _ _ _ => rfl
  case add | sub | mul | div | mod | min | max | atan2 => exact claims_two fun _ _ _ => rfl

end Sys2Proof.Proofs
end

section
/-! SUPPORT. The plans of moves, constants, selection and the short forms (R146, R175, R190), and the settlement of O47. -/

namespace Sys2Proof.Proofs

open Sys2Proof.Machine
open Sys2Proof.Safety

section
variable {v : View}

theorem planMov_sound {f : LForm} (hl : lBad f false 0 true true false = false) (ha : poisonous (reg v f.a) = false) :
    planMov v f = .done { dst := some (f.d.val, reg v f.a) } := by
  rw [planMov, hl, if_neg Bool.false_ne_true, ha, if_neg Bool.false_ne_true]

theorem planSel_sound {f : LForm} {x : TWord} (hl : lBad f true 0 true true true = false) (ht : (reg v f.d).ty = Ty.bool)
    (hd : poisonous (reg v f.d) = false) (hx : x = if (reg v f.d).payload != 0 then reg v f.a else reg v f.b)
    (hs : poisonous x = false) :
    planSel v f = .done { dst := some (f.d.val, resultWord f.qb [reg v f.d, x] x.ty x.payload) } := by
  have hne : Ty.bool ≠ Ty.empty := by decide
  simp only [planSel, ← hx, hl, hd, hs, ht, if_neg hne, Bool.false_eq_true, if_false, ne_eq, not_true_eq_false]

/-- A 16-bit form with two registers has no unused field but the one for the second operand. -/
theorem lBad_c2L (f : C2Form) : lBad (c2L f) true 0 true true true = false := by
  simp [lBad, c2L]

end

/-- Settles O47: the plan of each form, the 16-bit arithmetic forms by the L form that they stand for. -/
theorem moveAndShortFormsRun : Obligations.MoveAndShortFormsRun := by
  unfold Obligations.MoveAndShortFormsRun
  refine ⟨⟨?mov, ?sel, ?constants, ?cMov, ?cLdk⟩, fun e n v s => ⟨?short, ?cAddi⟩⟩
  case mov =>
    intro e f n v s hl ha h
    exact completes_of_done rfl h (planMov_sound hl ha)
  case sel =>
    intro e f n v s hl ht hd x hx hs h
    exact completes_of_done rfl h (planSel_sound hl ht hd hx hs)
  case constants =>
    intro e f n v s
    exact ⟨fun h => completes_of_done rfl h rfl, fun h => completes_of_done rfl h rfl, fun h => completes_of_done rfl h rfl⟩
  case cMov =>
    intro e f n v s hqb ha h
    have hl : lBad ⟨f.d, f.a, 0, f.qb, 0⟩ false 0 true true false = false := by simp [lBad, hqb]
    exact completes_of_done rfl h (planMov_sound hl ha)
  case cLdk =>
    intro e f n v s h
    exact completes_of_done rfl h rfl
  case short =>
    intro f hd ha
    have hws : [reg v f.d, reg v f.a].any poisonous = false := by simp only [List.any, hd, ha, Bool.or_self]
    have hplan : ∀ op cycles, plan2 v (c2L f) true op cycles =
        resPlan v f.d f.qb [reg v f.d, reg v f.a] (op (reg v f.d) (reg v f.a)) cycles := by
      intro op cycles
      rw [plan2, lBad_c2L, if_neg Bool.false_ne_true]
      rfl
    exact ⟨fun h => gives_of_resPlan rfl h (hplan _ _) hws, fun h => gives_of_resPlan rfl h (hplan _ _) hws,
      fun h => gives_of_resPlan rfl h (hplan _ _) hws, fun h => gives_of_resPlan rfl h (hplan _ _) hws⟩
  case cAddi =>
    intro f hr h
    exact gives_of_resPlan rfl h rfl (by simp only [List.any, hr, Bool.or_self])

end Sys2Proof.Proofs
end

section
/-! SUPPORT. The plans of the mode, status, feature and control instructions (R154, R155, R189), and the settlement of O46. -/

namespace Sys2Proof.Proofs

open Sys2Proof.Machine
open Sys2Proof.Safety

/-- An instruction whose unused fields are 0 is not ILLEGAL (R144). -/
theorem if_lBad {f : LForm} {xf : Nat} {qb d a b : Bool} {p : Plan} (h : lBad f qb xf d a b = false) :
    (if lBad f qb xf d a b then illegal else p) = p := by
  rw [h, if_neg Bool.false_ne_true]

theorem planWrstat_word {v : View} {f : LForm} (hl : lBad f false 0 false true false = false) (ht : (reg v f.a).ty = Ty.word)
    (ha : poisonous (reg v f.a) = false) :
    planWrstat v f = .done { lgc := some ((reg v f.a).payload.getLsbD 0), clearCarry := !(reg v f.a).payload.getLsbD 1 } := by
  have hne : Ty.word ≠ Ty.empty := by decide
  simp only [planWrstat, hl, ha, ht, if_neg hne, Bool.false_eq_true, if_false, ne_eq, not_true_eq_false]

theorem sysForm_zero (p : Plan) : sysForm 0 p = p := rfl

/-- Settles O46: the plan of each instruction where its unused fields are 0. -/
theorem systemInstructionsRun : Obligations.SystemInstructionsRun := by
  unfold Obligations.SystemInstructionsRun
  intro e n v s
  refine ⟨fun f hl => ⟨?lgon, ?lgoff, ?lgclr, ?nop, ?endAct, ?trap⟩, fun f hl => ⟨?lgcry, ?rdstat⟩, ?wrstat, ?rdfeat, ?trapi,
    fun low hlow => ⟨?cSysNop, ?cSysEnd, ?cSysTrap⟩⟩
  case lgon | lgoff | lgclr | nop => exact fun h => completes_of_done rfl h (if_lBad hl)
  case endAct => exact fun h => ends_of_done rfl h (if_lBad hl)
  case trap => exact fun h => traps_of_stop rfl h (if_lBad hl)
  case lgcry | rdstat => exact fun h => completes_of_done rfl h (if_lBad hl)
  case wrstat => exact fun f hl ht ha h => completes_of_done rfl h (planWrstat_word hl ht ha)
  case rdfeat => exact fun f hl h => completes_of_done rfl h (if_lBad hl)
  case trapi => exact fun f hd h => traps_of_stop rfl h (if_neg (not_not.mpr hd))
  case cSysNop =>
    subst hlow
    exact fun h => completes_of_done rfl h (sysForm_zero _)
  case cSysEnd =>
    subst hlow
    exact fun h => ends_of_done rfl h (sysForm_zero _)
  case cSysTrap =>
    subst hlow
    exact fun h => traps_of_stop rfl h (sysForm_zero _)

end Sys2Proof.Proofs
end

section
/-! SUPPORT. Where branches, calls and returns go (R147, R180, R190), and the settlement of O41. -/

namespace Sys2Proof.Proofs

open Sys2Proof.Machine
open Sys2Proof.Safety

section
variable {v : View} {t : Nat} {disp : Int}

theorem wellFormed_of_sound {w : TWord} (h : poisonous w = false) : wellFormed w = true := by
  simp only [poisonous, Bool.or_eq_false_iff, Bool.not_eq_false'] at h
  exact h.2

theorem branchTo_ok {link : Option TWord} {cycles : Nat} (h : targetOk v t = true) :
    branchTo v t link cycles = .done { target := some t, link := link, cycles := cycles } := by
  rw [branchTo, if_pos h, Int.toNat_natCast]

theorem branchTo_jump {link : Option TWord} {cycles : Nat} (hj : jump v disp = t) (h : targetOk v t = true) :
    branchTo v (jump v disp) link cycles = .done { target := some t, link := link, cycles := cycles } := by
  rw [hj, branchTo_ok h]

theorem branchTo_off {x : Int} {link : Option TWord} {cycles : Nat} (h : targetOk v x = false) :
    branchTo v x link cycles = .stop cCode 0 cycles := by
  rw [branchTo, h, if_neg Bool.false_ne_true]

/-- A conditional branch on a sound BOOL, with a target that the fetch accepts, goes there where the BOOL is the one wanted. -/
theorem condBranch_bool {a : Fin 32} {want : Bool} (ht : (reg v a).ty = Ty.bool) (hs : poisonous (reg v a) = false)
    (hj : jump v disp = t) (hok : targetOk v t = true) :
    condBranch v a disp want = .done (if ((reg v a).payload != 0) = want then { target := some t, cycles := 3 } else {}) := by
  have hne : Ty.bool ≠ Ty.empty := by decide
  by_cases hw : ((reg v a).payload != 0) = want
  · simp only [condBranch, ht, hs, hw, hj, hok, if_neg hne, beq_self_eq_true, Bool.and_self, Bool.not_true, Bool.and_false,
      Bool.false_eq_true, if_false, if_true, ne_eq, not_true_eq_false, branchTo_ok hok]
  · simp only [condBranch, ht, wellFormed_of_sound hs, beq_eq_false_iff_ne.mpr hw, if_neg hw, beq_self_eq_true, Bool.and_self,
      Bool.and_false, Bool.not_false, if_true]

theorem condBranch_true {a : Fin 32} (ht : (reg v a).ty = Ty.bool) (hs : poisonous (reg v a) = false) (hj : jump v disp = t)
    (hok : targetOk v t = true) :
    condBranch v a disp true = .done (if (reg v a).payload = 0 then {} else { target := some t, cycles := 3 }) := by
  rw [condBranch_bool ht hs hj hok]
  by_cases hp : (reg v a).payload = 0 <;> simp [hp]

theorem condBranch_false {a : Fin 32} (ht : (reg v a).ty = Ty.bool) (hs : poisonous (reg v a) = false) (hj : jump v disp = t)
    (hok : targetOk v t = true) :
    condBranch v a disp false = .done (if (reg v a).payload = 0 then { target := some t, cycles := 3 } else {}) := by
  rw [condBranch_bool ht hs hj hok]
  by_cases hp : (reg v a).payload = 0 <;> simp [hp]

theorem planBe_sound {f : JForm} (hs : poisonous (reg v f.a) = false) (hj : jump v f.disp.toInt = t) (hok : targetOk v t = true) :
    planBe v f = .done (if (reg v f.a).ty = Ty.empty then { target := some t, cycles := 3 } else {}) := by
  simp only [planBe, hs, hj, branchTo_ok hok, Bool.false_eq_true, if_false]
  split <;> rfl

theorem throughRef_ok {w : TWord} {link : Option TWord} (ht : w.ty = Ty.coderef) (hg : w.payload.toNat / 2 ^ 28 = v.p.gen % 16)
    (hok : targetOk v ((w.payload.toNat % 2 ^ 28 : Nat) : Int) = true) :
    throughRef v w link = .done { target := some (w.payload.toNat % 2 ^ 28), link := link, cycles := 4 } := by
  rw [throughRef, if_neg (by simp only [ht, hg, ne_eq, not_true_eq_false, or_self, not_false_eq_true]), branchTo_ok hok]

end

/-- Settles O41: where each branch, call and return goes by its target and its condition. -/
theorem branchInstructionsRun : Obligations.BranchInstructionsRun := by
  unfold Obligations.BranchInstructionsRun
  intro e n v s
  refine ⟨?taken, ?off, ?conditional, ?be, ?through, ?ret, ?cBr, ?cConditional⟩
  case taken =>
    intro f ha t hj hok
    exact ⟨fun h => completes_of_done rfl h ((if_neg (not_not.mpr ha)).trans (branchTo_jump hj hok)),
      fun h => completes_of_done rfl h ((if_neg (not_not.mpr ha)).trans (branchTo_jump hj hok))⟩
  case off =>
    intro f ha hno
    exact ⟨fun h => traps_of_stop rfl h ((if_neg (not_not.mpr ha)).trans (branchTo_off hno)),
      fun h => traps_of_stop rfl h ((if_neg (not_not.mpr ha)).trans (branchTo_off hno))⟩
  case conditional =>
    intro f t hj hok ht hs
    exact ⟨fun h => completes_of_done rfl h (condBranch_true ht hs hj hok) (by split <;> rfl),
      fun h => completes_of_done rfl h (condBranch_false ht hs hj hok) (by split <;> rfl)⟩
  case be =>
    intro f t hj hok hs h
    exact completes_of_done rfl h (planBe_sound hs hj hok) (by split <;> rfl)
  case through =>
    rintro f w hl rfl ht - hg hok
    exact ⟨fun h => completes_of_done rfl h ((if_lBad hl).trans (throughRef_ok ht hg hok)),
      fun h => completes_of_done rfl h ((if_lBad hl).trans (throughRef_ok ht hg hok))⟩
  case ret =>
    rintro w rfl ht - hg hok
    refine ⟨fun f hl h => completes_of_done rfl h ((if_lBad hl).trans (throughRef_ok ht hg hok)), ?_⟩
    rintro low rfl h
    exact completes_of_done rfl h ((sysForm_zero _).trans (throughRef_ok ht hg hok))
  case cBr =>
    intro d t hj hok h
    exact completes_of_done rfl h (branchTo_jump hj hok)
  case cConditional =>
    intro f t hj hok ht hs
    exact ⟨fun h => completes_of_done rfl h (condBranch_true ht hs hj hok) (by split <;> rfl),
      fun h => completes_of_done rfl h (condBranch_false ht hs hj hok) (by split <;> rfl)⟩

end Sys2Proof.Proofs
end

section
/-! SUPPORT. What an instruction that stores nothing and marks nothing leaves as it is, in its engine and in the rest of the state
(R138, R147, R150, R301), and the settlement of O30. -/

namespace Sys2Proof.Proofs

open Sys2Proof.Machine
open Sys2Proof.Safety

/-! ### The engine after an instruction -/

theorem setReg_eq (g : Engine) (i : Nat) (w : TWord) :
    setReg g i w = { g with regs := if i = 0 then g.regs else g.regs.set i w } := by
  unfold setReg
  split <;> rfl

theorem nth_setReg_other (g : Engine) {i k : Nat} (w : TWord) (h : k ≠ i) :
    nth TWord.empty (setReg g i w).regs k = nth TWord.empty g.regs k := by
  unfold setReg nth
  split
  · rfl
  · rw [List.getElem?_set_ne h.symm]

/-- The registers after the link and the destination of an instruction are written. -/
def writtenRegs (f : Effect) (g : Engine) : List TWord :=
  let g1 := match f.link with
    | some w => setReg g 31 w
    | none => g
  match f.dst with
  | some (i, w) => (setReg g1 i w).regs
  | none => g1.regs

theorem nth_writtenRegs_other (f : Effect) (g : Engine) {k : Nat} (hd : ∀ w, f.dst ≠ some (k, w))
    (hl : f.link = none ∨ k ≠ 31) :
    nth TWord.empty (writtenRegs f g) k = nth TWord.empty g.regs k := by
  have hlink : nth TWord.empty (match f.link with
      | some w => setReg g 31 w
      | none => g).regs k = nth TWord.empty g.regs k := by
    cases hf : f.link with
    | none => rfl
    | some w => exact nth_setReg_other g w (hl.resolve_left (by simp [hf]))
  unfold writtenRegs
  cases hf : f.dst with
  | none => exact hlink
  | some x => exact (nth_setReg_other _ x.2 fun hk => hd x.2 (by rw [hf, hk])).trans hlink

/-- The engine after an instruction that marks nothing. -/
theorem applyEngine_unmarked (len units : Nat) {f : Effect} (g : Engine) (h : f.marked = none) :
    applyEngine len f units g = { g with
      regs := writtenRegs f g
      loc := match f.loc with
        | some (a, w) => insertAt g.loc a w
        | none => g.loc
      pc := f.target.getD (g.pc + len)
      lgc := f.lgc.getD g.lgc
      lgcCarry := (g.lgcCarry || f.carry) && !f.clearCarry
      clk := g.clk + units
      retired := g.retired + 1
      issued := none
      results := []
      stepOne := false } := by
  obtain ⟨dst, link, target, loc, data, carry, clearCarry, lgc, marked, ends, cycles⟩ := f
  subst h
  cases dst <;> cases link <;> cases loc <;> simp [applyEngine, writtenRegs, setReg_eq]

/-! ### The state after an instruction -/

theorem length_onEng (e : Nat) (f : Engine → Engine) (s : State) : (onEng e f s).scan.engines.length = s.scan.engines.length :=
  List.length_modify ..

/-- An instruction without stores and marks is carried out in its engine alone. -/
theorem complete_unmarked {n e len : Nat} {f : Effect} (s : State) (hd : f.data = []) (hm : f.marked = none) :
    complete false n e len f s = onEng e (applyEngine len f (coreUnits s n f.cycles)) s := by
  simp only [complete, hd, hm, commitData, writeAll, Bool.false_eq_true, if_false, Nat.mul_zero, Nat.add_zero]

/-- Settles O30: what `applyEngine_unmarked` writes in the engine, and that nothing else is written. -/
theorem registerInstructionFrame : Obligations.RegisterInstructionFrame := by
  unfold Obligations.RegisterInstructionFrame
  intro i e n v f s he h hp hends hdata hmark
  have hexec := completes_of_done he h hp hends
  rw [Completes, complete_unmarked _ hdata hmark] at hexec
  obtain ⟨-, ht, -⟩ := h
  have hin := eng_in_table s e.val n ht
  have heng := getEng_onEng_same (started e.val s) e.val (applyEngine (lengthOf i) f (coreUnits (started e.val s) n f.cycles))
    (by rwa [started, length_onEng])
  rw [started, getEng_onEng_same s e.val _ hin, applyEngine_unmarked _ _ _ hmark] at heng
  refine ⟨_, hexec, rfl, ?length, ?others, ?own⟩
  case length => exact (length_onEng ..).trans (length_onEng ..)
  case others =>
    intro d hd
    exact (getEng_onEng_other _ _ _ _ hd).trans (getEng_onEng_other _ _ _ _ hd)
  case own =>
    have hkeep : ∀ u, getEng (keep s u) e.val = getEng u e.val := fun _ => rfl
    rw [hkeep, started, heng]
    refine ⟨rfl, fun k _ hd hl => nth_writtenRegs_other f _ hd hl, ?loc, rfl, rfl, ?lgc, ?carry⟩
    case loc =>
      intro a ha
      cases hf : f.loc with
      | none => rfl
      | some x => exact (look_insertAt ..).trans (if_neg fun hx => ha x.2 (by rw [hf, hx]))
    case lgc =>
      intro hl
      simp only [hl, Option.getD_none]
    case carry =>
      intro hc hcl
      simp only [hc, hcl, Bool.or_false, Bool.not_false, Bool.and_true]

end Sys2Proof.Proofs
end

section
/-! SUPPORT. Words wrap modulo 2^32, legacy results are reduced to 16 bits (R154, R169, R172), shifts and bit indexes take the
low five bits of their count (R174), and the settlement of O37. -/

namespace Sys2Proof.Proofs

open Sys2Proof.Machine
open Sys2Proof.Safety

section
variable {a b : TWord}

/-! ### Exact results in a type -/

theorem ofInt_toNat (w : Word) : BitVec.ofInt 32 w.toNat = w := by
  rw [BitVec.ofInt_natCast, BitVec.ofNat_toNat, BitVec.setWidth_eq]

theorem exact_word (x : Int) : exact false Ty.word x = .ok Ty.word (BitVec.ofInt 32 x) false := rfl

theorem exact_legacy_int (x : Int) :
    exact true Ty.int x = .ok Ty.int ((BitVec.ofInt 16 x).signExtend 32) (decide (x < -32768 ∨ 32767 < x)) := by
  rw [Bool.decide_or]
  rfl

theorem exact_legacy_word (n : Nat) :
    exact true Ty.word n = .ok Ty.word (BitVec.ofNat 32 n &&& 0xFFFF) (decide (65535 < n)) := by
  have hpayload : (BitVec.ofInt 16 (n : Int)).zeroExtend 32 = BitVec.ofNat 32 n &&& 0xFFFF := by
    apply BitVec.eq_of_toNat_eq
    have hmask : (0xFFFF : BitVec 32).toNat = 2 ^ 16 - 1 := rfl
    rw [BitVec.ofInt_natCast, BitVec.toNat_and, hmask, Nat.and_two_pow_sub_one_eq_mod]
    simp only [BitVec.zeroExtend_eq_setWidth, BitVec.toNat_setWidth, BitVec.toNat_ofNat]
    omega
  have hrange : (decide ((n : Int) < 0) || decide (65535 < (n : Int))) = decide (65535 < n) := by
    rw [← Bool.decide_or, decide_eq_decide]
    omega
  rw [← hpayload, ← hrange]
  rfl

/-! ### Two operands of type WORD -/

theorem aluAdd_words (lgc : Bool) (ha : a.ty = Ty.word) (hb : b.ty = Ty.word) :
    aluAdd lgc a b = exact lgc Ty.word (a.payload.toNat + b.payload.toNat) := by
  simp only [aluAdd, withRows, ha, hb]
  rfl

theorem aluSub_words (lgc : Bool) (ha : a.ty = Ty.word) (hb : b.ty = Ty.word) :
    aluSub lgc a b = exact lgc Ty.word (a.payload.toNat - b.payload.toNat) := by
  simp only [aluSub, withRows, ha, hb]
  rfl

theorem aluMul_words (lgc : Bool) (ha : a.ty = Ty.word) (hb : b.ty = Ty.word) :
    aluMul lgc a b = exact lgc Ty.word (a.payload.toNat * b.payload.toNat) := by
  simp only [aluMul, withRows, ha, hb]
  rfl

/-! ### Two operands of type INT -/

theorem aluAdd_ints (lgc : Bool) (ha : a.ty = Ty.int) (hb : b.ty = Ty.int) :
    aluAdd lgc a b = exact lgc Ty.int (a.payload.toInt + b.payload.toInt) := by
  simp only [aluAdd, withRows, ha, hb]
  rfl

/-- The quotient of the most negative 16-bit number by −1 lies outside 16 bits (R154). -/
theorem aluDiv_legacy_overflow (ha : a.ty = Ty.int) (hb : b.ty = Ty.int) (hpa : a.payload = BitVec.ofInt 32 (-32768))
    (hpb : b.payload = BitVec.ofInt 32 (-1)) : aluDiv true a b = .ok Ty.int (BitVec.ofInt 32 (-32768)) true := by
  simp only [aluDiv, withRows, ha, hb, hpa, hpb]
  rfl

/-! ### Shifts, bits and counts -/

/-- An operation on a WORD with a count that is INT or WORD takes the low five bits of the count. -/
theorem withCount_word {tr : BitVec 4} {f : Nat → Res} (ha : a.ty = Ty.word) (hb : b.ty = Ty.int ∨ b.ty = Ty.word) :
    withCount Ty.word tr a b f = f (b.payload.toNat % 32) := by
  have hc : countOk b = true := by simpa [countOk] using hb
  have hne : ¬ (a.ty = Ty.empty ∨ b.ty = Ty.empty) := by
    rw [ha]
    exact not_or.mpr ⟨by decide, ne_empty_of_countOk hc⟩
  rw [withCount, if_neg hne, if_neg (by simp [ha, hc]), count5]

theorem withFixed_word {tr : BitVec 4} {r : Res} (ha : a.ty = Ty.word) : withFixed [Ty.word] tr a r = r := by
  rw [withFixed, ha]
  rfl

theorem popCount_zero : popCount 0 = 0 := by decide

theorem bitLen_top {w : Word} (h : w.getLsbD 31 = true) : bitLen w.toNat = 32 := by
  have hge : 2 ^ 31 ≤ w.toNat := Nat.ge_two_pow_of_testBit h
  have hlog : Nat.log2 w.toNat = 31 := (Nat.log2_eq_iff (by omega)).mpr ⟨hge, w.isLt⟩
  rw [bitLen, if_neg (by omega), hlog]

end

/-- Settles O37: exact results reduced by `exact_word`, `exact_legacy_int` and `exact_legacy_word`, counts by `withCount_word`. -/
theorem wordsWrapAndShiftsMask : Obligations.WordsWrapAndShiftsMask := by
  unfold Obligations.WordsWrapAndShiftsMask
  refine ⟨fun a b => ⟨fun ha hb => ⟨?add, ?sub, ?mul, ?legacyWord⟩, ?legacyInt, ?legacyDiv⟩, fun a b ha hb => ?counts⟩
  case add => rw [aluAdd_words false ha hb, exact_word, BitVec.ofInt_add, ofInt_toNat, ofInt_toNat]
  case sub =>
    rw [aluSub_words false ha hb, exact_word, sub_eq_add_neg, BitVec.ofInt_add, BitVec.ofInt_neg, ofInt_toNat, ofInt_toNat,
      ← BitVec.sub_eq_add_neg]
  case mul => rw [aluMul_words false ha hb, exact_word, BitVec.ofInt_mul, ofInt_toNat, ofInt_toNat]
  case legacyWord =>
    rw [aluAdd_words true ha hb, ← Nat.cast_add, exact_legacy_word, BitVec.ofNat_add, BitVec.ofNat_toNat, BitVec.ofNat_toNat,
      BitVec.setWidth_eq, BitVec.setWidth_eq]
  case legacyInt =>
    rintro ha hb x rfl
    rw [aluAdd_ints true ha hb, exact_legacy_int]
  case legacyDiv => exact aluDiv_legacy_overflow
  case counts =>
    refine ⟨withCount_word ha hb, withCount_word ha hb, withCount_word ha hb, withCount_word ha hb, withCount_word ha hb,
      fun h0 => ⟨?clzZero, ?popcZero⟩, fun htop => ?clzTop⟩
    case clzZero =>
      rw [aluClz, withFixed_word ha, h0]
      rfl
    case popcZero => rw [aluPopc, withFixed_word ha, h0, popCount_zero, BitVec.ofNat_eq_ofNat]
    case clzTop => rw [aluClz, withFixed_word ha, bitLen_top htop, Nat.sub_self, BitVec.ofNat_eq_ofNat]

end Sys2Proof.Proofs
end

section
/-! SUPPORT. Integer arithmetic outside legacy mode as exact results in 32 bits (R150, R168, R169), and the settlement of O33. -/

namespace Sys2Proof.Proofs

open Sys2Proof.Machine
open Sys2Proof.Safety

/-! ### Exact results of type INT -/

theorem toInt_mem_range (w : Word) : -2147483648 ≤ w.toInt ∧ w.toInt ≤ 2147483647 :=
  ⟨BitVec.le_toInt w, Int.le_of_lt_add_one BitVec.toInt_lt⟩

/-- An exact INT is given where it fits, and saturates in its direction where it does not. -/
theorem exact_int (x : Int) :
    exact false Ty.int x = if -2147483648 ≤ x ∧ x ≤ 2147483647 then .ok Ty.int (BitVec.ofInt 32 x) false
      else .fail cOverflow Ty.int (if 0 < x then 0x7FFFFFFF else 0x80000000) := by
  have hsat : saturated Ty.int (decide (0 < x)) = if 0 < x then 0x7FFFFFFF else 0x80000000 := by
    by_cases hx : 0 < x <;> simp [saturated, hx]
  have hbig : tooBig Ty.int x = true ↔ ¬ (-2147483648 ≤ x ∧ x ≤ 2147483647) := by
    have hb : tooBig Ty.int x = (decide (x < -2147483648) || decide (2147483647 < x)) := rfl
    rw [hb, Bool.or_eq_true, decide_eq_true_eq, decide_eq_true_eq]
    omega
  have hexact : exact false Ty.int x = if tooBig Ty.int x then .fail cOverflow Ty.int (saturated Ty.int (decide (0 < x)))
      else .ok Ty.int (BitVec.ofInt 32 x) false := rfl
  rw [hexact, hsat, ite_cond_congr (propext hbig), ite_not]

theorem exact_int_fits {x : Int} (h : -2147483648 ≤ x ∧ x ≤ 2147483647) :
    exact false Ty.int x = .ok Ty.int (BitVec.ofInt 32 x) false := by
  rw [exact_int, if_pos h]

theorem exact_int_toInt (w : Word) : exact false Ty.int w.toInt = .ok Ty.int w false := by
  rw [exact_int_fits (toInt_mem_range w), BitVec.ofInt_toInt]

/-! ### The operations on INT operands -/

section
variable {a b : TWord}

theorem aluSub_ints (lgc : Bool) (ha : a.ty = Ty.int) (hb : b.ty = Ty.int) :
    aluSub lgc a b = exact lgc Ty.int (a.payload.toInt - b.payload.toInt) := by
  simp only [aluSub, withRows, ha, hb]
  rfl

theorem aluMul_ints (lgc : Bool) (ha : a.ty = Ty.int) (hb : b.ty = Ty.int) :
    aluMul lgc a b = exact lgc Ty.int (a.payload.toInt * b.payload.toInt) := by
  simp only [aluMul, withRows, ha, hb]
  rfl

theorem aluDiv_ints (lgc : Bool) (ha : a.ty = Ty.int) (hb : b.ty = Ty.int) :
    aluDiv lgc a b = if b.payload.toInt = 0 then .fail cDivide Ty.int (divideMark a.payload.toInt)
      else exact lgc Ty.int (a.payload.toInt.tdiv b.payload.toInt) := by
  simp only [aluDiv, withRows, ha, hb]
  rfl

theorem aluMod_ints (lgc : Bool) (ha : a.ty = Ty.int) (hb : b.ty = Ty.int) :
    aluMod lgc a b = if b.payload.toInt = 0 then .fail cDivide Ty.int (divideMark a.payload.toInt)
      else exact lgc Ty.int (a.payload.toInt.tmod b.payload.toInt) := by
  simp only [aluMod, withRows, ha, hb]
  rfl

theorem aluMin_ints (lgc : Bool) (ha : a.ty = Ty.int) (hb : b.ty = Ty.int) :
    aluMin lgc a b =
      exact lgc Ty.int (if a.payload.toInt ≤ b.payload.toInt then a.payload else b.payload).toInt := by
  simp only [aluMin, withRows, ha, hb]
  rfl

theorem aluMax_ints (lgc : Bool) (ha : a.ty = Ty.int) (hb : b.ty = Ty.int) :
    aluMax lgc a b =
      exact lgc Ty.int (if b.payload.toInt ≤ a.payload.toInt then a.payload else b.payload).toInt := by
  simp only [aluMax, withRows, ha, hb]
  rfl

theorem aluNeg_int (lgc : Bool) (ha : a.ty = Ty.int) : aluNeg lgc a = exact lgc Ty.int (-a.payload.toInt) := by
  simp only [aluNeg, withTypes, ha]
  rfl

theorem aluAbs_int (lgc : Bool) (ha : a.ty = Ty.int) : aluAbs lgc a = exact lgc Ty.int |a.payload.toInt| := by
  simp only [aluAbs, withTypes, ha, Int.abs_eq_natAbs]
  rfl

end

/-! ### Range of quotients, remainders and the most negative number -/

theorem toInt_eq_zero_iff (w : Word) : w.toInt = 0 ↔ w = 0 := by
  rw [← BitVec.toInt_inj]
  rfl

theorem toInt_eq_min_iff (w : Word) : w.toInt = -2147483648 ↔ w = 0x80000000 := by
  rw [← BitVec.toInt_inj]
  rfl

/-- A quotient is no larger in magnitude than the dividend: only the positive bound can be passed. -/
theorem min_le_tdiv (a : Word) (y : Int) : -2147483648 ≤ a.toInt.tdiv y := by
  have hmag := Int.natAbs_tdiv_le_natAbs a.toInt y
  have ha := toInt_mem_range a
  omega

theorem natAbs_tmod_lt {x y : Int} (h : y ≠ 0) : (x.tmod y).natAbs < y.natAbs := by
  rw [Int.natAbs_tmod]
  exact Nat.mod_lt _ (Int.natAbs_pos.mpr h)

theorem tmod_nonpos {x : Int} (y : Int) (h : x ≤ 0) : x.tmod y ≤ 0 := by
  have hneg := Int.tmod_nonneg y (neg_nonneg.mpr h)
  rw [Int.neg_tmod] at hneg
  omega

/-- Only the most negative number has a magnitude that does not fit (R168). -/
theorem exact_int_magnitude {w : Word} {x : Int} (h : x = -w.toInt ∨ x = |w.toInt|) :
    exact false Ty.int x = if w = 0x80000000 then .fail cOverflow Ty.int 0x7FFFFFFF else .ok Ty.int (BitVec.ofInt 32 x) false := by
  have hw := toInt_mem_range w
  by_cases hmin : w = 0x80000000
  · have hx : x = 2147483648 := by
      subst hmin
      rcases h with rfl | rfl <;> rfl
    rw [if_pos hmin, hx]
    rfl
  · have hne := (toInt_eq_min_iff w).not.mpr hmin
    rw [if_neg hmin, exact_int_fits (by rcases h with rfl | rfl <;> [skip; rw [Int.abs_eq_natAbs]] <;> omega)]

/-- Settles O33: each operation on INT operands as an exact result, with the range of its result. -/
theorem integerArithmeticIsExact : Obligations.IntegerArithmeticIsExact := by
  unfold Obligations.IntegerArithmeticIsExact
  intro a b ha hb
  refine ⟨?add, ?sub, ?mul, ?byZero, ?quotient, ?neg, ?abs, ?min, ?max⟩
  case add =>
    rintro x rfl
    rw [aluAdd_ints false ha hb, exact_int]
  case sub =>
    rintro x rfl
    rw [aluSub_ints false ha hb, exact_int]
  case mul =>
    rintro x rfl
    rw [aluMul_ints false ha hb, exact_int]
  case byZero =>
    intro h0
    have hy := (toInt_eq_zero_iff b.payload).mpr h0
    exact ⟨by rw [aluDiv_ints false ha hb, if_pos hy], by rw [aluMod_ints false ha hb, if_pos hy]⟩
  case quotient =>
    intro h0
    have hy := (toInt_eq_zero_iff b.payload).not.mpr h0
    have hlow := min_le_tdiv a.payload b.payload.toInt
    have hrem := natAbs_tmod_lt (x := a.payload.toInt) hy
    refine ⟨a.payload.toInt.tdiv b.payload.toInt, a.payload.toInt.tmod b.payload.toInt, Int.tdiv_mul_add_tmod _ _, hrem,
      Int.tmod_nonneg _, tmod_nonpos _, ?div, ?mod⟩
    case div =>
      rw [aluDiv_ints false ha hb, if_neg hy, exact_int]
      by_cases htop : a.payload.toInt.tdiv b.payload.toInt ≤ 2147483647
      · rw [if_pos ⟨hlow, htop⟩, if_pos htop]
      · rw [if_neg fun h => htop h.2, if_neg htop, if_pos (by omega)]
    case mod =>
      have hdivisor := toInt_mem_range b.payload
      rw [aluMod_ints false ha hb, if_neg hy, exact_int_fits (by omega)]
  case neg => rw [aluNeg_int false ha, exact_int_magnitude (.inl rfl)]
  case abs => rw [aluAbs_int false ha, exact_int_magnitude (.inr rfl)]
  case min => rw [aluMin_ints false ha hb, exact_int_toInt]
  case max => rw [aluMax_ints false ha hb, exact_int_toInt]

end Sys2Proof.Proofs
end

section
/-! SUPPORT. The settlement of O36: the bit and logic instructions (R174). -/

namespace Sys2Proof.Proofs

open Sys2Proof.Machine
open Sys2Proof.Safety

/-- Settles O36: the plan of each instruction is its operation on its operands. -/
theorem bitInstructionsRun : Obligations.BitInstructionsRun := by
  unfold Obligations.BitInstructionsRun
  refine ⟨?and, ?or, ?xor, ?not, ?andn, ?shl, ?shr, ?sar, ?rol, ?ror, ?popc, ?clz, ?andi, ?ori, ?xori, ?btst, ?bset, ?bclr,
    ?bput⟩
  case bput => exact claims_three fun _ _ _ => rfl
  case andi | ori | xori => exact claims_immediate fun _ _ _ => rfl
  case not | popc | clz => exact claims_one fun _ _ _ => rfl
  case and | or | xor | andn | shl | shr | sar | rol | ror | btst | bset | bclr => exact claims_two fun _ _ _ => rfl

end Sys2Proof.Proofs
end

section
/-! SUPPORT. Comparisons as plans on their operands, the orders of R173 by type with the serial order of R6, and the settlement
of O35. -/

namespace Sys2Proof.Proofs

open Sys2Proof.Machine
open Sys2Proof.Safety

/-- A comparison by the plan of its form, with the 2 cycles of REAL operands (R173). -/
theorem gives_comparison {i : Instr} {e : Fin 16} {n : Nat} {v : View} {s : State} {f : LForm} {op : TWord → TWord → Res}
    (he : engineOf i = some e) (hp : sncPlan i v = planCmp v f op) (h : Alone i e.val n v s)
    (hl : lBad f true 0 true true true = false) (ha : poisonous (reg v f.a) = false) (hb : poisonous (reg v f.b) = false) :
    Gives i e.val n v f.d f.qb [reg v f.a, reg v f.b] (op (reg v f.a) (reg v f.b))
      (fun _ => if (reg v f.a).ty = Ty.real then 2 else 1) s := by
  refine gives_of_resPlan he h ?_ (by simp only [List.any, ha, hb, Bool.or_self])
  rw [hp, planCmp, plan2, if_lBad hl]

/-! ### The orders of R173 -/

theorem order_signed {t : BitVec 4} (h : t = Ty.int ∨ t = Ty.duration) (x y : Word) :
    order t x y = some (compare x.toInt y.toInt) := by
  rcases h with rfl | rfl <;> rfl

theorem order_word (x y : Word) : order Ty.word x y = some (compare x.toNat y.toNat) := by
  have hcmp : compare (x.toNat : Int) (y.toNat : Int) = compare x.toNat y.toNat := by
    simp only [compare, compareOfLessAndEq, Int.ofNat_lt, Int.natCast_inj]
  exact congrArg some hcmp

/-- The serial order by the difference modulo 2^32 (R6). -/
def serial (d : Nat) : Option Ordering :=
  if d = 0 then some .eq else if d < 2 ^ 31 then some .gt else if d = 2 ^ 31 then none else some .lt

theorem order_stamp (x y : Word) : order Ty.stamp x y = serial (x - y).toNat := rfl

theorem serial_gt (d : Nat) : serial d = some .gt ↔ 1 ≤ d ∧ d ≤ 2147483647 := by
  unfold serial
  split_ifs <;> simp <;> omega

theorem serial_eq (d : Nat) : serial d = some .eq ↔ d = 0 := by
  unfold serial
  split_ifs with h <;> simp [h]

theorem serial_none (d : Nat) : serial d = none ↔ d = 2 ^ 31 := by
  unfold serial
  split_ifs <;> simp <;> omega

/-- Settles O35: each comparison by the plan of its form, each order by the type of its operands. -/
theorem comparisonInstructionsRun : Obligations.ComparisonInstructionsRun := by
  unfold Obligations.ComparisonInstructionsRun
  refine ⟨⟨?tests, ?unord, ?ceqi, ?clti, ?cgti⟩, fun x y => ⟨?int, ?duration, ?word, ?newer, ?same, ?undecided⟩⟩
  case tests =>
    intro mk types test hmem e f n v s h hl ha hb
    simp only [List.mem_cons, Prod.mk.injEq, List.not_mem_nil, or_false] at hmem
    rcases hmem with ⟨rfl, rfl, rfl⟩ | ⟨rfl, rfl, rfl⟩ | ⟨rfl, rfl, rfl⟩ | ⟨rfl, rfl, rfl⟩ | ⟨rfl, rfl, rfl⟩ |
      ⟨rfl, rfl, rfl⟩ <;>
      exact gives_comparison rfl rfl h hl ha hb
  case unord => exact claims_two fun _ _ _ => rfl
  case ceqi | clti | cgti => exact claims_immediate fun _ _ _ => rfl
  case int => exact order_signed (.inl rfl) x y
  case duration => exact order_signed (.inr rfl) x y
  case word => exact order_word x y
  case newer => exact serial_gt _
  case same =>
    have hzero : (x - y).toNat = 0 ↔ x = y := by bv_omega
    exact (serial_eq _).trans hzero
  case undecided =>
    have hhalf : (x - y).toNat = 2 ^ 31 ↔ x - y = 0x80000000 := by bv_omega
    exact (serial_none _).trans hhalf

end Sys2Proof.Proofs
end

section
/-! SUPPORT. The plans of descriptions, qualities and conversions (R176 to R178), the conversions between integer types (R177), and
the settlement of O38. -/

namespace Sys2Proof.Proofs

open Sys2Proof.Machine
open Sys2Proof.Safety

section
variable {i : Instr} {e : Fin 16} {n : Nat} {v : View} {s : State} {f : LForm}

/-! ### The plan of each instruction -/

/-- A description is of any word that is not malformed, POISON included (R176). -/
theorem completes_describe {ty : BitVec 4} (g : TWord → Word) {x : TWord} (he : engineOf i = some e)
    (hp : sncPlan i v = planDescribe v f ty g) (hl : lBad f false 0 true true false = false)
    (hw : wellFormed (reg v f.a) = true) (hx : x = .mk0 ty (g (reg v f.a))) (h : Alone i e.val n v s) :
    Completes i e.val n { dst := some (f.d.val, x) } s := by
  refine completes_of_done he h ?_
  rw [hp, planDescribe, if_lBad hl, hw, Bool.not_true, if_neg Bool.false_ne_true, good, hx]

theorem completes_quality (q : TWord → BitVec 2 → BitVec 2) {x : TWord} (he : engineOf i = some e)
    (hp : sncPlan i v = planQuality v f q) (hl : lBad f false 0 true true true = false)
    (ha : poisonous (reg v f.a) = false) (hb : poisonous (reg v f.b) = false) (hc : countOk (reg v f.b) = true)
    (hx : x = { reg v f.a with q := q (reg v f.a) ((reg v f.b).payload.extractLsb' 0 2) }) (h : Alone i e.val n v s) :
    Completes i e.val n { dst := some (f.d.val, x) } s := by
  refine completes_of_done he h ?_
  simp only [hp, hx, planQuality, hl, ha, hb, hc, if_neg (ne_empty_of_countOk hc), Bool.or_self, Bool.not_true, Bool.false_eq_true,
    if_false]

theorem planSubst_sound (hl : lBad f false 0 true true true = false) (ha : poisonous (reg v f.a) = false)
    (hb : poisonous (reg v f.b) = false) :
    planSubst v f = .done { dst := some (f.d.val,
      if (reg v f.a).ty != Ty.empty && (reg v f.a).q != Q.bad then reg v f.a else reg v f.b) } := by
  simp only [planSubst, hl, ha, hb, Bool.or_self, Bool.false_eq_true, if_false]

theorem planCvt_legal {fn : BitVec 6} (hfn : fn.toNat ≤ 9) (hl : lBad f true 3 true true false = false) :
    planCvt v fn f = resPlan v f.d f.qb [reg v f.a] (aluCvt fn.toNat f.xf.val (reg v f.a))
      (fun _ => cvtCycles fn.toNat (reg v f.a)) := by
  rw [planCvt, hl, Bool.or_false, decide_eq_false (Nat.not_lt.mpr hfn), if_neg Bool.false_ne_true]

end

/-! ### Conversions between integers -/

section
variable {a : TWord} (mode : Nat)

theorem ranged_fits {t : BitVec 4} {x : Int} (h : tooBig t x = false) : ranged t x = .ok t (BitVec.ofInt 32 x) false := by
  rw [ranged, h, if_neg Bool.false_ne_true]

theorem ranged_saturates {t : BitVec 4} {x : Int} (h : tooBig t x = true) :
    ranged t x = .fail cOverflow t (saturated t (decide (0 < x))) := by
  rw [ranged, h, if_pos rfl]

/-- An INT becomes a WORD where it is not negative. -/
theorem ranged_word_toInt (p : Word) :
    ranged Ty.word p.toInt = if 0 ≤ p.toInt then .ok Ty.word p false else .fail cOverflow Ty.word 0 := by
  have htop := (toInt_mem_range p).2
  have hbig : tooBig Ty.word p.toInt = (decide (p.toInt < 0) || decide (0xFFFFFFFF < p.toInt)) := rfl
  by_cases h : 0 ≤ p.toInt
  · have hfits : tooBig Ty.word p.toInt = false := by
      rw [hbig, Bool.or_eq_false_iff, decide_eq_false_iff_not, decide_eq_false_iff_not]
      omega
    rw [if_pos h, ranged_fits hfits, BitVec.ofInt_toInt]
  · have hout : tooBig Ty.word p.toInt = true := by rw [hbig, decide_eq_true (Int.not_le.mp h), Bool.true_or]
    rw [if_neg h, ranged_saturates hout, decide_eq_false fun hpos => h (Int.le_of_lt hpos)]
    rfl

/-- A payload read as unsigned becomes a word of another type where it does not pass that type's largest value. -/
theorem ranged_toNat {t : BitVec 4} {top : Nat} {sat : Word} (p : Word)
    (hbig : tooBig t p.toNat = decide (top < p.toNat)) (hsat : saturated t true = sat) :
    ranged t p.toNat = if p.toNat ≤ top then .ok t p false else .fail cOverflow t sat := by
  by_cases h : p.toNat ≤ top
  · rw [if_pos h, ranged_fits (by rw [hbig, decide_eq_false (Nat.not_lt.mpr h)]), ofInt_toNat]
  · rw [if_neg h, ranged_saturates (by rw [hbig, decide_eq_true (Nat.not_le.mp h)]), decide_eq_true (by omega), hsat]

theorem tooBig_int_toNat (p : Word) : tooBig Ty.int p.toNat = decide (2147483647 < p.toNat) := by
  have hbig : tooBig Ty.int p.toNat = (decide ((p.toNat : Int) < -2147483648) || decide (2147483647 < (p.toNat : Int))) := rfl
  rw [hbig, decide_eq_false (by omega), Bool.false_or, decide_eq_decide]
  omega

theorem tooBig_slotref_toNat (p : Word) : tooBig Ty.slotref p.toNat = decide (0x3FFFF < p.toNat) := by
  have hbig : tooBig Ty.slotref p.toNat = (decide ((p.toNat : Int) < 0) || decide (262143 < (p.toNat : Int))) := rfl
  rw [hbig, decide_eq_false (by omega), Bool.false_or, decide_eq_decide]
  omega

theorem aluCvt_int_word (ha : a.ty = Ty.int) : aluCvt 1 mode a = ranged Ty.word a.payload.toInt := by
  simp only [aluCvt, ha]
  rfl

theorem aluCvt_word_int (ha : a.ty = Ty.word) : aluCvt 0 mode a = ranged Ty.int a.payload.toNat := by
  simp only [aluCvt, ha]
  rfl

theorem aluCvt_word_slotref (ha : a.ty = Ty.word) : aluCvt 5 mode a = ranged Ty.slotref a.payload.toNat := by
  simp only [aluCvt, ha]
  rfl

theorem aluCvt_int_duration (ha : a.ty = Ty.int) : aluCvt 3 mode a = .ok Ty.duration a.payload false := by
  simp only [aluCvt, ha]
  rfl

theorem aluCvt_duration_int (ha : a.ty = Ty.duration) : aluCvt 0 mode a = .ok Ty.int a.payload false := by
  simp only [aluCvt, ha]
  rfl

theorem aluCvt_empty (ha : a.ty = Ty.empty) (fn : Nat) : aluCvt fn mode a = .fail cEmpty (cvtType fn) 0 := if_pos ha

end

/-- Settles O38: the plan of each instruction, and the integer conversions by `ranged`. -/
theorem typeInstructionsRun : Obligations.TypeInstructionsRun := by
  unfold Obligations.TypeInstructionsRun
  refine ⟨⟨?describe, ?quality, ?cvt, ?raws, ?rawu, ?sflg, ?scale⟩, fun a mode => ⟨?intWord, ?wordInt, ?intDuration,
    ?durationInt, ?wordSlot, ?empty⟩⟩
  case describe =>
    intro e f n v s hl hw
    exact ⟨completes_describe (fun w => w.ty.zeroExtend 32) rfl rfl hl hw rfl, completes_describe qualOf rfl rfl hl hw rfl,
      completes_describe (fun w => boolWord (w.q == Q.good && w.ty != Ty.poison)) rfl rfl hl hw rfl,
      completes_describe flagsOf rfl rfl hl hw rfl, completes_describe (fun w => boolWord (w.ty == Ty.empty)) rfl rfl hl hw rfl⟩
  case quality =>
    intro e f n v s hl ha hb
    exact ⟨fun hc => completes_quality (fun _ q => q) rfl rfl hl ha hb hc rfl,
      fun hc => completes_quality (fun a q => worse a.q q) rfl rfl hl ha hb hc rfl,
      fun h => completes_of_done rfl h (planSubst_sound hl ha hb)⟩
  case cvt =>
    intro e fn f n v s hfn hl ha h
    exact gives_of_resPlan rfl h (planCvt_legal hfn hl) (by simp only [List.any, ha, Bool.or_self])
  case raws | rawu | sflg => exact claims_one fun _ _ _ => rfl
  case scale =>
    intro e f n v s hl ha hb h
    exact gives_of_resPlan rfl h (if_lBad hl) (by simp only [List.any, ha, hb, Bool.or_self])
  case intWord => exact fun ha => (aluCvt_int_word mode ha).trans (ranged_word_toInt _)
  case wordInt => exact fun ha => (aluCvt_word_int mode ha).trans (ranged_toNat _ (tooBig_int_toNat _) rfl)
  case intDuration => exact aluCvt_int_duration mode
  case durationInt => exact aluCvt_duration_int mode
  case wordSlot => exact fun ha => (aluCvt_word_slotref mode ha).trans (ranged_toNat _ (tooBig_slotref_toNat _) rfl)
  case empty => exact aluCvt_empty mode

end Sys2Proof.Proofs
end

section
/-! SUPPORT. Instructions that wait for one word and complete with it (R179, R301): a word that lies outside the engine, or one of
its own local store or timebase shadow. With it the settlement of O39 (R179, R188, R190). -/

namespace Sys2Proof.Proofs

open Sys2Proof.Machine
open Sys2Proof.Safety

/-! ### Where an instruction begins -/

section
variable {i : Instr} {e n : Nat} {v w : View} {s : State}

theorem state_of_alone (h : Alone i e n v s) : v.s = started e s ∧ v.e = e :=
  viewOf_names h.2.2.2.1

theorem task_started (h : Alone i e n v s) : (getEng (started e s) e).task = some n := by
  obtain ⟨-, ht, -⟩ := h
  rw [started, getEng_onEng_same s e _ (eng_in_table s e n ht)]
  exact ht

theorem results_of_alone (h : Alone i e n v s) : v.g.results = [] := by
  obtain ⟨-, ht, -, hv, -⟩ := h
  rw [viewOf_engine hv, started, getEng_onEng_same s e _ (eng_in_table s e n ht)]

theorem descOf_of_alone (h : Alone i e n v s) (a : Nat) : descOf v.s a = descOf s a := by
  rw [(state_of_alone h).1]
  rfl

theorem legacyBad_of_alone (h : Alone i e n v s) : v.s.mem.legacyBad = s.mem.legacyBad := by
  rw [(state_of_alone h).1]
  rfl

/-- The fetch that was passed at the start of an instruction is passed by every later view of the same code (R149). -/
theorem fetched_later (h : Alone i e n v s) (hd : w.d = v.d) (hpc : w.g.pc = v.g.pc) (hctx : w.g.ctxBad = v.g.ctxBad)
    (hcode : codeAt w.s w.e v.g.pc = codeAt v.s v.e v.g.pc) : fetched i w = sncPlan i w := by
  obtain ⟨hs, he⟩ := state_of_alone h
  obtain ⟨-, -, -, -, hpages, -, hc, hk, -⟩ := h
  have hspells : codeAt w.s w.e v.g.pc = some i := by rw [hcode, hs, he]; exact hk
  rw [fetched, hd, hpc, hctx, hpages, hc, hspells]
  rfl

end

/-! ### A word that lies outside the engine -/

/-- The plan that asks for one operation while there is no result of it, and goes on by its result. -/
def askOnce (result : Option TWord) (op : XOp) (k : TWord → Plan) : Plan :=
  match result with
  | some r => k r
  | none => .need op

/-- Two views give the operands of an instruction that reads or writes one word alike: also the descriptors, and the legacy words
that are sound. -/
structure SameReads (v w : View) : Prop extends SameOperands v w where
  desc : ∀ a, descOf w.s a = descOf v.s a
  sound : ∀ a, v.s.mem.legacyBad.contains a = false → w.s.mem.legacyBad.contains a = false

theorem SameReads.refl (v : View) : SameReads v v := ⟨.refl v, fun _ => rfl, fun _ h => h⟩

section
variable {i : Instr} {e : Fin 16} {n : Nat} {v : View} {s : State} {op : XOp}

/-- An instruction whose plan asks for one operation makes it and completes as the plan says of its result, if no sound legacy
word is damaged meanwhile. -/
theorem makes_of_askOnce {k : TWord → Plan} {f : Effect} (he : engineOf i = some e) (h : Alone i e.val n v s)
    (hp : ∀ w, SameReads v w → sncPlan i w = askOnce (got w 0) op k)
    (hk : k (perform n e.val op (started e.val s)).1 = .done f) (hop : op ≠ .timeNow := by nofun) (hf : f.ends = false := by rfl)
    (hsound : ∀ a, s.mem.legacyBad.contains a = false →
      (afterOp n e.val op (started e.val s)).mem.legacyBad.contains a = false := by exact fun _ h => h) :
    Claims.Makes i e.val n op f s := by
  have hneed : sncPlan i v = .need op := by rw [hp v (.refl v), got_of_alone h, askOnce]
  obtain ⟨w, hw, hwp, hwd, -, hdescs, hregs, hpc, hctx, hlgc, hres, hcode⟩ := view_afterOp op hop (task_started h) h.2.2.2.1
  rw [results_of_alone h, List.nil_append] at hres
  have hafter : After v (perform n e.val op (started e.val s)).1 w := ⟨hwp, hwd, hdescs, hregs, hlgc, hres⟩
  have hreads : SameReads v w := by
    refine ⟨.of_after hafter, fun a => by unfold descOf; rw [hdescs], fun a ha => ?_⟩
    rw [(viewOf_names hw).1]
    exact hsound a (by rwa [← legacyBad_of_alone h])
  have hdone : fetched i w = .done f := by
    rw [fetched_later h hwd hpc hctx (hcode _), hp w hreads, got_after hafter, askOnce, hk]
  rw [Claims.Makes, exec_of_engineOf he, runInstr_need h hneed hw hdone hf, finish_eq, keep]

/-- A load whose plan asks for its word gives it to d, unless it is POISON. -/
theorem loads_of_askOnce {d : Fin 32} {cycles : Nat} (he : engineOf i = some e) (h : Alone i e.val n v s)
    (hp : ∀ w, SameReads v w → sncPlan i w = askOnce (got w 0) op (fun r => loaded d r cycles))
    (hop : op ≠ .timeNow := by nofun)
    (hsound : ∀ a, s.mem.legacyBad.contains a = false →
      (afterOp n e.val op (started e.val s)).mem.legacyBad.contains a = false := by exact fun _ h => h) :
    Claims.Loads i e.val n d op cycles s := by
  rintro w rfl hw
  exact makes_of_askOnce he h hp (by rw [loaded, hw, if_neg Bool.false_ne_true]) hop rfl hsound

end

/-! ### A word of the engine's own -/

/-- The words and the code that engine e sees are those of s: t differs in the engine's local store, and in what no engine sees. -/
def OnlyLocal (e : Nat) (s t : State) : Prop :=
  t.chg.running = s.chg.running ∧ t.img.descs = s.img.descs ∧ t.mem.frames = s.mem.frames ∧
    ∃ l, getEng t e = { getEng s e with loc := l }

/-- A read of the local store changes nothing but that store (R138). -/
theorem onlyLocal_readLocal {e n : Nat} {s : State} (a : Nat) (ht : (getEng s e).task = some n) :
    OnlyLocal e s (readLocal e a s).2 := by
  unfold readLocal
  split
  · exact ⟨rfl, rfl, rfl, _, rfl⟩
  · exact ⟨rfl, rfl, rfl, _, getEng_onEng_same (draw 40 s).2 e _ (eng_in_table s e n ht)⟩

theorem onlyLocal_shadowUs (e : Nat) (s : State) : OnlyLocal e s (shadowUs e s).2 := ⟨rfl, rfl, rfl, _, rfl⟩

/-- The view v in state s, with another local store and other results. -/
def relocated (v : View) (s : State) (l : List (Nat × TWord)) (rs : List TWord) : View :=
  { v with s := s, g := { v.g with loc := l, results := rs } }

theorem after_relocated {v : View} {s : State} (l : List (Nat × TWord)) (r : TWord) (h : s.img.descs = v.s.img.descs) :
    After v r (relocated v s l [r]) := ⟨rfl, rfl, h, rfl, rfl, rfl⟩

/-- The view that engine e has after an answer of its own. -/
theorem view_pushResult {e n : Nat} {v : View} {s t : State} (r : TWord) (hk : OnlyLocal e s t) (ht : (getEng s e).task = some n)
    (hv : viewOf s e = some v) :
    ∃ l, viewOf (pushResult e r t) e = some (relocated v (pushResult e r t) l (v.g.results ++ [r])) := by
  obtain ⟨hrun, -, -, l, hg⟩ := hk
  have hg' : getEng (pushResult e r t) e = { getEng s e with loc := l, results := (getEng s e).results ++ [r] } := by
    rw [pushResult, getEng_onEng_same t e _ (eng_in_table t e n (by rw [hg]; exact ht)), hg]
  have hrun' : (pushResult e r t).chg.running = s.chg.running := hrun
  refine ⟨l, ?_⟩
  unfold viewOf at hv ⊢
  rw [hg', hrun']
  simp only [ht] at hv ⊢
  cases hp : s.chg.running with
  | none => rw [hp] at hv; exact absurd hv (by simp)
  | some p =>
    rw [hp] at hv
    obtain ⟨d, hd, rfl⟩ := Option.map_eq_some_iff.mp hv
    simp only [hd, Option.map_some, relocated, ht]

/-- An instruction that waits for one answer of its engine, and completes with it. -/
theorem exec_answered {i : Instr} {e : Fin 16} {n : Nat} {v : View} {s t : State} {r : TWord} {f : Effect}
    (he : engineOf i = some e) (h : Alone i e.val n v s) (hk : OnlyLocal e.val (started e.val s) t)
    (hstep : ∀ k, runAlone n e.val i (k + 1) (started e.val s) = runAlone n e.val i k (pushResult e.val r t))
    (hdone : ∀ w, After v r w → w.s = pushResult e.val r t → sncPlan i w = .done f) (hf : f.ends = false := by rfl) :
    exec i s = .next (keep s (complete false n e.val (lengthOf i) f (pushResult e.val r t))) := by
  obtain ⟨l, hw⟩ := view_pushResult r hk (task_started h) h.2.2.2.1
  obtain ⟨hrun, hdescs, hframes, -⟩ := hk
  obtain ⟨hs, -⟩ := state_of_alone h
  rw [results_of_alone h, List.nil_append] at hw
  have hcode : codeAt (pushResult e.val r t) v.e v.g.pc = codeAt v.s v.e v.g.pc := by
    rw [hs]
    exact codeAt_of_store hrun hframes _ _
  have hafter : After v r (relocated v (pushResult e.val r t) l [r]) := after_relocated l r (by rw [hs]; exact hdescs)
  have hfetch : fetched i (relocated v (pushResult e.val r t) l [r]) = .done f :=
    (fetched_later (w := relocated v _ l [r]) h rfl rfl rfl hcode).trans (hdone _ hafter rfl)
  have hend : runAlone n e.val i 7 (pushResult e.val r t) = complete false n e.val (lengthOf i) f (pushResult e.val r t) := by
    unfold runAlone
    simp only [hw, hfetch, hf, Bool.false_eq_true, if_false]
  rw [exec_of_engineOf he, runInstr_alone h, (hstep 7).trans hend, finish_eq, keep]

/-- A plan that asks for a local word makes the engine read it. -/
theorem runAlone_local {i : Instr} {e n a : Nat} {v : View} {s : State} (h : Alone i e n v s) (hp : sncPlan i v = .local' a)
    (k : Nat) : runAlone n e i (k + 1) (started e s) =
      runAlone n e i k (pushResult e (readLocal e a (started e s)).1 (readLocal e a (started e s)).2) := by
  have hfetch := (fetched_alone h).trans hp
  obtain ⟨-, -, -, hv, -⟩ := h
  simp only [runAlone, hv, hfetch]

/-- A plan that asks for the timebase makes the engine sample its shadow (R18). -/
theorem runAlone_shadow {i : Instr} {e n : Nat} {v : View} {s : State} (h : Alone i e n v s) (hp : sncPlan i v = .shadow)
    (k : Nat) : runAlone n e i (k + 1) (started e s) =
      runAlone n e i k (pushResult e (.mk0 Ty.stamp (shadowUs e (started e s)).1) (shadowUs e (started e s)).2) := by
  have hfetch := (fetched_alone h).trans hp
  obtain ⟨-, -, -, hv, -⟩ := h
  simp only [runAlone, hv, hfetch]

/-! ### The plan of each load -/

section
variable {v w : View} {a cycles : Nat} {d : Fin 32}

/-- A load whose base and address raise no cause is the load of that address. -/
theorem memPlan_load {sp : Nat} {base : Fin 32} {disp : Int} (hw : SameOperands v w) (hb : poisonous (reg v base) = false)
    (ha : address v sp base disp = .ok a) : memPlan w sp base disp d false cycles = loadPlan w sp a d cycles := by
  simp only [memPlan, hw.reg, hw.address, hb, ha, Bool.false_and, Bool.or_self, Bool.false_eq_true, if_false]

theorem loadPlan_data : loadPlan w 0 a d cycles = askOnce (got w 0) (.readData a) (fun r => loaded d r cycles) := by
  cases hg : got w 0 <;> simp only [loadPlan, askOnce, hg]

theorem loadPlan_slot (hw : SameReads v w) (hd : (descOf v.s a).dir ≠ 0) :
    loadPlan w 1 a d cycles = askOnce (got w 0) (.readSlot a) (fun r => loaded d r cycles) := by
  cases hg : got w 0 <;>
    simp only [loadPlan, askOnce, hg, hw.desc, beq_eq_false_iff_ne.mpr hd, Bool.false_eq_true, if_false]

theorem loadPlan_legacy (hw : SameReads v w) (hs : v.s.mem.legacyBad.contains a = false) :
    loadPlan w 3 a d cycles = askOnce (got w 0) (.readLegacy a) (fun r => loaded d r cycles) := by
  cases hg : got w 0 <;> simp only [loadPlan, askOnce, hg, hw.sound a hs, Bool.false_eq_true, if_false]

theorem planLds_slot {f : LForm} (hw : SameReads v w) (hl : lBad f false 0 true true false = false)
    (ha : poisonous (reg v f.a) = false) (hadr : address v 1 f.a 0 = .ok a) (hd : (descOf v.s a).dir ≠ 0) :
    planLds w f = askOnce (got w 0) (.readSlot a) (fun r => loaded f.d r 6) := by
  rw [planLds, if_lBad hl, memPlan_load hw.toSameOperands ha hadr, loadPlan_slot hw hd]

theorem planLdsA_slot {f : WForm} (hw : SameReads v w) (hi : f.imm.toNat < 262144) (hd : (descOf v.s f.imm.toNat).dir ≠ 0) :
    planLdsA w f = askOnce (got w 0) (.readSlot f.imm.toNat) (fun r => loaded f.d r 6) := by
  rw [planLdsA, if_neg (Nat.not_le.mpr hi), loadPlan_slot hw hd]

theorem planLdsx_slot {f : LForm} (hw : SameReads v w) (hl : lBad f false 0 true true true = false)
    (ha : poisonous (reg v f.a) = false) (hb : poisonous (reg v f.b) = false) (ht : (reg v f.b).ty = Ty.int)
    (hadr : address v 1 f.a (reg v f.b).payload.toInt = .ok a) (hd : (descOf v.s a).dir ≠ 0) :
    planIndexed w f false = askOnce (got w 0) (.readSlot a) (fun r => loaded f.d r 7) := by
  have hbase : (baseOf w 1 f.a).isNone = false := by
    rw [← Option.not_isSome, baseOf_of_address ((hw.address 1 f.a _).trans hadr)]
    rfl
  have hne : Ty.int ≠ Ty.empty := by decide
  simp only [planIndexed, hw.reg, hl, ha, hb, hbase, ht, if_neg hne, ne_eq, not_true_eq_false, Bool.false_and, Bool.or_self,
    Bool.false_eq_true, if_false, memPlan_load hw.toSameOperands ha hadr, loadPlan_slot hw hd]

theorem planSdesc_desc {f : LForm} (hw : SameReads v w) (hl : lBad f false 3 true true false = false)
    (ha : poisonous (reg v f.a) = false) (hadr : address v 1 f.a 0 = .ok a) :
    planSdesc w f = askOnce (got w 0) (.readDesc a f.xf.val) (fun r => good f.d Ty.word r.payload 8) := by
  cases hg : got w 0 <;>
    simp only [planSdesc, hl, hw.reg, hw.address, ha, hadr, hg, askOnce, Bool.false_eq_true, if_false]

theorem planLdls_legacy {f : MForm} (hw : SameReads v w) (hsp : f.sp.val = 3) (hb : poisonous (reg v f.base) = false)
    (hadr : address v 3 f.base f.disp.toInt = .ok a) (hs : v.s.mem.legacyBad.contains a = false) :
    planLdls w f = askOnce (got w 0) (.readLegacy a)
      (fun r => good f.d Ty.int ((r.payload.extractLsb' 0 16).signExtend 32) 6) := by
  cases hg : got w 0 <;>
    simp only [planLdls, hsp, hw.reg, hw.address, hb, hadr, hw.sound a hs, hg, askOnce, ne_eq, not_true_eq_false,
      Bool.false_eq_true, if_false]

theorem loadPlan_local (hg : got w 0 = none) : loadPlan w 2 a d cycles = .local' a := by
  simp only [loadPlan, hg]

theorem loadPlan_answered {sp : Nat} {r : TWord} (hg : got w 0 = some r) : loadPlan w sp a d cycles = loaded d r cycles := by
  simp only [loadPlan, hg]

end

/-- A load from the local store gives d the word there, unless it is POISON. -/
theorem exec_loadLocal {i : Instr} {e : Fin 16} {n a cycles : Nat} {d : Fin 32} {v : View} {s t : State} {w : TWord}
    (he : engineOf i = some e) (h : Alone i e.val n v s)
    (hp : ∀ u, SameOperands v u → sncPlan i u = loadPlan u 2 a d cycles) (hw : (w, t) = readLocal e.val a (started e.val s))
    (hs : poisonous w = false) :
    exec i s = .next (keep s (complete false n e.val (lengthOf i) { dst := some (d.val, w), cycles := cycles }
      (pushResult e.val w t))) := by
  obtain ⟨rfl, rfl⟩ := Prod.mk.inj hw
  have hask : sncPlan i v = .local' a := by rw [hp v (.refl v), loadPlan_local (got_of_alone h 0)]
  refine exec_answered he h (onlyLocal_readLocal a (task_started h)) (runAlone_local h hask) fun u hu _ => ?_
  rw [hp u (.of_after hu), loadPlan_answered (got_after hu), loaded, hs, if_neg Bool.false_ne_true]

theorem extractLsb'_zeroExtend (x : BitVec 16) : (x.zeroExtend 32).extractLsb' 0 16 = x := by
  apply BitVec.eq_of_toNat_eq
  simp only [BitVec.zeroExtend_eq_setWidth, BitVec.extractLsb'_toNat, BitVec.toNat_setWidth, Nat.shiftRight_zero]
  omega

/-- Settles O39: the plan of each load is that of the one read named. -/
theorem loadInstructionsRun : Obligations.LoadInstructionsRun := by
  unfold Obligations.LoadInstructionsRun
  refine ⟨?ld, ?ldsA, ?lds, ?ldsx, ?sdesc, ?cLds, ?cLdl, ?ldls⟩
  case ld =>
    intro e f n v s a h hb hadr
    have hplan : ∀ u, SameOperands v u → planLd u f = loadPlan u f.sp.val a f.d (memCycles f.sp.val) :=
      fun u hu => memPlan_load hu hb hadr
    refine ⟨fun hsp => ?data, fun hsp hd => ?slot, fun hsp w t hw hs => ?loc, fun hsp hs => ?legacy⟩
    case data =>
      rw [hsp] at hplan
      exact loads_of_askOnce rfl h fun u hu => (hplan u hu.toSameOperands).trans loadPlan_data
    case slot =>
      rw [hsp] at hplan
      rw [← descOf_of_alone h] at hd
      exact loads_of_askOnce rfl h fun u hu => (hplan u hu.toSameOperands).trans (loadPlan_slot hu hd)
    case loc =>
      rw [hsp] at hplan
      exact exec_loadLocal rfl h hplan hw hs
    case legacy =>
      rw [hsp] at hplan
      rw [← legacyBad_of_alone h] at hs
      exact loads_of_askOnce rfl h fun u hu => (hplan u hu.toSameOperands).trans (loadPlan_legacy hu hs)
  case ldsA =>
    intro e f n v s h hi hd
    rw [← descOf_of_alone h] at hd
    exact loads_of_askOnce rfl h fun u hu => planLdsA_slot hu hi hd
  case lds =>
    intro e f n v s a h hl ha hadr hd
    rw [← descOf_of_alone h] at hd
    exact loads_of_askOnce rfl h fun u hu => planLds_slot hu hl ha hadr hd
  case ldsx =>
    intro e f n v s a h hl ha hb ht hadr hd
    rw [← descOf_of_alone h] at hd
    exact loads_of_askOnce rfl h fun u hu => planLdsx_slot hu hl ha hb ht hadr hd
  case sdesc =>
    intro e f n v s a h hl ha hadr
    exact makes_of_askOnce rfl h (fun u hu => planSdesc_desc hu hl ha hadr) rfl
  case cLds =>
    intro e f n v s a h hqb ha hadr hd
    have hl : lBad ⟨f.d, f.a, 0, f.qb, 0⟩ false 0 true true false = false := by simp [lBad, hqb]
    rw [← descOf_of_alone h] at hd
    exact loads_of_askOnce rfl h fun u hu => planLds_slot hu hl ha hadr hd
  case cLdl =>
    intro e f n v s a w t h hb hadr hw hs
    exact exec_loadLocal rfl h (fun u hu => memPlan_load hu hb hadr) hw hs
  case ldls =>
    intro e f n v s a h hsp hb hadr hs
    rw [← legacyBad_of_alone h] at hs
    refine makes_of_askOnce rfl h (fun u hu => planLdls_legacy hu hsp hb hadr hs) ?_
    have hword : (perform n e.val (.readLegacy a) (started e.val s)).1.payload = (readAt 0#16 s.mem.legacy a).zeroExtend 32 := rfl
    rw [hword, extractLsb'_zeroExtend, good]

end Sys2Proof.Proofs
end

section
/-! SUPPORT. The plans of the sampling instructions on the state in which they begin (R186), and the settlement of O44. -/

namespace Sys2Proof.Proofs

open Sys2Proof.Machine
open Sys2Proof.Safety

section
variable {v : View} {f : LForm}

theorem planTbread_shadow (hl : lBad f false 0 true false false = false) (hg : got v 0 = none) : planTbread v f = .shadow := by
  rw [planTbread, if_lBad hl, hg]

theorem planTbread_answered {r : TWord} (hl : lBad f false 0 true false false = false) (hg : got v 0 = some r) :
    planTbread v f = sampled f.d Ty.stamp (tbQuality v.s) r.payload 4 := by
  rw [planTbread, if_lBad hl, hg]

/-- An input channel that is in use is read as the comparator of the engine's side saw it (R186). -/
theorem planLin_inUse {c : Nat} (hl : lBad f false 0 true true false = false) (ht : (reg v f.a).ty = Ty.int)
    (ha : poisonous (reg v f.a) = false) (hc : (reg v f.a).payload.toInt = c) (hu : inputInUse v.s c = true) :
    planLin v f = sampled f.d Ty.bool
      (if (nth (Channel.reset 0) v.s.fio.ch c).linkBreak || (supplyOf v.s c).cond != 0 || !v.s.fio.linkUp then Q.bad else Q.good)
      (boolWord (if v.e % 2 = 0 then (nth (Channel.reset 0) v.s.fio.ch c).linkA
        else (nth (Channel.reset 0) v.s.fio.ch c).linkB)) 10 := by
  have hneg : ¬ ((c : Int) < 0) := Int.not_lt.mpr (Int.natCast_nonneg c)
  simp only [planLin, hl, ht, ha, hc, hu, hneg, Int.toNat_natCast, Bool.not_true, Bool.false_eq_true, or_self, ne_eq,
    not_true_eq_false, if_false]

end

/-- TBREAD gives the shadow as the engine samples it, with the quality that the timebase has in the state. -/
theorem exec_tbread {e : Fin 16} {f : LForm} {n : Nat} {v : View} {s : State} (hl : lBad f false 0 true false false = false)
    (h : Alone (.tbread e f) e.val n v s) :
    exec (.tbread e f) s = .next (keep s (complete false n e.val 4
      { dst := some (f.d.val, ⟨false, false, tbQuality s, Ty.stamp, (shadowUs e.val (started e.val s)).1⟩), cycles := 4 }
      (pushResult e.val (.mk0 Ty.stamp (shadowUs e.val (started e.val s)).1) (shadowUs e.val (started e.val s)).2))) := by
  have hask : sncPlan (.tbread e f) v = .shadow := planTbread_shadow hl (got_of_alone h 0)
  refine exec_answered rfl h (onlyLocal_shadowUs _ _) (runAlone_shadow h hask) fun w hw hs => ?_
  refine (planTbread_answered hl (got_after hw)).trans ?_
  rw [hs]
  rfl

/-- Settles O44: TBREAD by the engine's shadow, the others by their plans on the state in which they begin. -/
theorem samplingInstructionsRun : Obligations.SamplingInstructionsRun := by
  unfold Obligations.SamplingInstructionsRun
  intro e f n v s
  refine ⟨fun hl => ⟨fun h => ⟨_, _, rfl, exec_tbread hl h⟩, fun h => ?tbtick, fun h => ?rtct, fun h => ?rtcd⟩, ?lin⟩
  case tbtick | rtct | rtcd =>
    obtain ⟨hs, -⟩ := state_of_alone h
    refine completes_of_done rfl h ((if_lBad hl).trans ?_)
    rw [hs]
    rfl
  case lin =>
    intro c hl ht ha hc hu h
    obtain ⟨hs, he⟩ := state_of_alone h
    refine completes_of_done rfl h ((planLin_inUse hl ht ha hc (by rw [hs]; exact hu)).trans ?_)
    rw [hs, he]
    rfl

end Sys2Proof.Proofs
end

section
/-! SUPPORT. What a data store leaves in data memory (R179, R364), what a put of a bit leaves in a legacy word (R188), the plans of
the stores and the legacy bit instructions, and the settlement of O45. -/

namespace Sys2Proof.Proofs

open Sys2Proof.Machine
open Sys2Proof.Safety

/-! ### Data memory after a store -/

theorem markTraced_mem (a : Nat) (s : State) : (markTraced a s).mem = s.mem := by
  unfold markTraced
  split <;> rfl

theorem markPhys_mem (a : Nat) (s : State) : (markPhys a s).mem = s.mem := by
  have hfold : ∀ (l : List Nat) (t : State), (l.foldl (fun t v => markTraced v t) t).mem = t.mem := by
    intro l
    induction l with
    | nil => exact fun _ => rfl
    | cons x r ih => exact fun t => (ih _).trans (markTraced_mem x t)
  unfold markPhys
  split
  · split
    · exact hfold _ s
    · rfl
  · rfl

/-- A store writes its word in data memory; what persistence does leaves data memory alone. -/
theorem writePhys_data (waits : Bool) (a : Nat) (w : TWord) (s : State) :
    (writePhys waits a w s).2.mem.data = writeAt TWord.empty s.mem.data a w := by
  have htouch : SameWords s (match groupOf s (.data (a / 1024) (a % 1024 / 64)) with
      | some g => touchWord waits g (a % 64) (readPhys s a) w s
      | none => (0, s)).2 := by
    split
    · exact sameWords_touchWord s _ _ _ _ _
    · exact sameWords_refl s
  obtain ⟨-, hdata, -⟩ := htouch
  rw [writePhys, mirror_mem, ← hdata]
  rfl

theorem writeData_data {p : Program} {s : State} (hp : s.chg.running = some p) (waits : Bool) (a : Nat) (w : TWord) :
    (writeData waits a w s).2.mem.data = writeAt TWord.empty s.mem.data (physOf p a) w := by
  simp only [writeData, hp, markPhys_mem, writePhys_data]

/-- An instruction that stores one data word on an engine of its own writes that word. -/
theorem complete_data {p : Program} {s : State} (hp : s.chg.running = some p) (n e len a cycles : Nat) (w : TWord) :
    (complete false n e len { data := [(a, w)], cycles := cycles } s).mem.data =
      writeAt TWord.empty s.mem.data (physOf p a) w := writeData_data hp true a w

/-! ### A legacy word after the put of a bit -/

/-- The word x with bit k set to b. -/
def putBit (x : BitVec 16) (k : Nat) (b : Word) : BitVec 16 := if b = 0 then x &&& ~~~(1#16 <<< k) else x ||| (1#16 <<< k)

theorem getLsbD_oneShift (k j : Nat) : (1#16 <<< k).getLsbD j = (decide (j < 16) && decide (j = k)) := by
  rw [BitVec.getLsbD_shiftLeft, BitVec.getLsbD_one]
  by_cases h : j = k
  · simp [h]
  · by_cases hk : j < k
    · simp [h, hk]
    · simp [h, show ¬ j - k = 0 by omega]

theorem getLsbD_putBit_same (x : BitVec 16) {k : Nat} (hk : k < 16) (b : Word) : (putBit x k b).getLsbD k = (b != 0) := by
  unfold putBit
  by_cases hb : b = 0
  · rw [if_pos hb, BitVec.getLsbD_and, BitVec.getLsbD_not, getLsbD_oneShift, hb]
    simp
  · rw [if_neg hb, BitVec.getLsbD_or, getLsbD_oneShift, bne_iff_ne.mpr hb]
    simp [hk]

theorem getLsbD_putBit_other (x : BitVec 16) {k j : Nat} (hj : j ≠ k) (b : Word) : (putBit x k b).getLsbD j = x.getLsbD j := by
  unfold putBit
  split
  · rw [BitVec.getLsbD_and, BitVec.getLsbD_not, getLsbD_oneShift, decide_eq_false hj]
    by_cases h16 : j < 16
    · simp [h16]
    · simp [h16, BitVec.getLsbD_of_ge x j (Nat.not_lt.mp h16)]
  · rw [BitVec.getLsbD_or, getLsbD_oneShift, decide_eq_false hj, Bool.and_false, Bool.or_false]

theorem setLegacy_legacy (a : Nat) (x : BitVec 16) (s : State) :
    (setLegacy a x s).mem.legacy = writeAt 0#16 s.mem.legacy a x := by
  rw [setLegacy, mirror_mem]
  rfl

theorem setLegacy_legacyBad (a : Nat) (x : BitVec 16) (s : State) :
    (setLegacy a x s).mem.legacyBad = s.mem.legacyBad.filter (fun y => y != a) := by
  rw [setLegacy, mirror_mem]
  rfl

theorem perform_putLegacyBit (n e a k : Nat) (w : TWord) (s : State) :
    perform n e (.putLegacyBit a k w) s = (w, 0, setLegacy a (putBit (readAt 0#16 s.mem.legacy a) k w.payload) s) := rfl

/-- A put of a bit damages no legacy word. -/
theorem putLegacyBit_keeps_sound (n e a k : Nat) (w : TWord) (s : State) (b : Nat) (h : s.mem.legacyBad.contains b = false) :
    (afterOp n e (.putLegacyBit a k w) (started e s)).mem.legacyBad.contains b = false := by
  have hbad : (afterOp n e (.putLegacyBit a k w) (started e s)).mem.legacyBad = s.mem.legacyBad.filter (fun y => y != a) :=
    setLegacy_legacyBad a _ (started e s)
  rw [hbad]
  simp only [List.contains_eq_mem, decide_eq_false_iff_not, List.mem_filter] at h ⊢
  exact fun hb => h hb.1

/-! ### The plan of each instruction -/

section
variable {v w : View} {f : LForm} {a : Nat}

theorem planLbtst_sound (hw : SameReads v w) (hl : lBad f false 0 true true true = false) (ha : poisonous (reg v f.a) = false)
    (hb : poisonous (reg v f.b) = false) (hc : countOk (reg v f.b) = true) (hadr : address v 3 f.a 0 = .ok a)
    (hs : v.s.mem.legacyBad.contains a = false) :
    planLbtst w f = askOnce (got w 0) (.readLegacy a) (fun r => .done
      { dst := some (f.d.val, resultWord false [reg v f.b] Ty.bool
          (boolWord (r.payload.getLsbD ((reg v f.b).payload.toNat % 16)))), cycles := 6 }) := by
  cases hg : got w 0 <;>
    simp only [planLbtst, hw.reg, hw.address, hl, ha, hb, hc, hadr, hw.sound a hs, hg, askOnce, if_neg (ne_empty_of_countOk hc),
      Bool.or_self, Bool.not_true, Bool.false_eq_true, if_false]

/-- A put of a BOOL into a sound legacy word, of quality GOOD or quality-blind (R153, R188). -/
theorem planLbput_sound {blind : Bool} (hw : SameReads v w) (hl : lBad f false 0 true true true = false)
    (ha : poisonous (reg v f.a) = false) (hb : poisonous (reg v f.b) = false) (hd : poisonous (reg v f.d) = false)
    (hc : countOk (reg v f.b) = true) (ht : (reg v f.d).ty = Ty.bool) (hq : (reg v f.d).q = Q.good ∨ blind = true)
    (hadr : address v 3 f.a 0 = .ok a) (hs : v.s.mem.legacyBad.contains a = false) :
    planLbput w f blind = askOnce (got w 0) (.putLegacyBit a ((reg v f.b).payload.toNat % 16) (reg v f.d))
      (fun _ => .done { cycles := 10 }) := by
  have hne : ¬ ((reg v f.b).ty = Ty.empty ∨ (reg v f.d).ty = Ty.empty) := by
    rw [ht]
    exact not_or.mpr ⟨ne_empty_of_countOk hc, by decide⟩
  have htype : (!countOk (reg v f.b) || (reg v f.d).ty != Ty.bool) = false := by rw [hc, ht]; rfl
  have hquality : ((reg v f.d).q != Q.good && !blind) = false := by rcases hq with h | h <;> simp [h]
  cases hg : got w 0 <;>
    simp only [planLbput, hw.reg, hw.address, hl, ha, hb, hd, hadr, hw.sound a hs, if_neg hne, htype, hquality, hg, askOnce,
      Bool.or_self, Bool.false_and, Bool.false_eq_true, if_false]

end

/-- Settles O45: the stores by the effect of their plans, a store by what it writes, the bits by the one operation on their word. -/
theorem storeAndLegacyBitInstructionsRun : Obligations.StoreAndLegacyBitInstructionsRun := by
  unfold Obligations.StoreAndLegacyBitInstructionsRun
  refine ⟨⟨?st, ?cStl, ?stored⟩, fun e f n v s a hl ha hb hc hadr hs => ⟨?lbtst,
    fun hd ht => ⟨fun hq h => ?lbput, fun h => ?lbputq⟩, ?bits⟩⟩
  case st =>
    intro e f n v s a h hb hd hadr
    have hplan : planSt v f = storePlan v f.sp.val a (reg v f.d) (memCycles f.sp.val) := memPlan_store (.refl v) hb hd hadr
    constructor
    all_goals
      intro hsp
      rw [hsp] at hplan
      exact completes_of_done rfl h hplan
  case cStl =>
    intro e f n v s a h hb hd hadr
    exact completes_of_done rfl h (memPlan_store (.refl v) hb hd hadr)
  case stored =>
    intro len n e a w s p hp hwf
    have hdata := complete_data hp n e len a 6 w
    refine ⟨?_, fun b hb => ?_⟩
    · rw [hdata, readAt_writeAt_same _ _ _ _ hwf]
    · rw [hdata, readAt_writeAt_other _ _ _ _ _ hwf hb]
  case lbtst =>
    intro h
    rw [← legacyBad_of_alone h] at hs
    refine makes_of_askOnce rfl h (fun u hu => planLbtst_sound hu hl ha hb hc hadr hs) ?_
    have hword : (perform n e.val (.readLegacy a) (started e.val s)).1.payload = (readAt 0#16 s.mem.legacy a).zeroExtend 32 := rfl
    rw [hword, BitVec.zeroExtend_eq_setWidth, BitVec.getLsbD_setWidth, decide_eq_true (by omega), Bool.true_and]
  case lbput =>
    rw [← legacyBad_of_alone h] at hs
    exact makes_of_askOnce rfl h (fun u hu => planLbput_sound hu hl ha hb hd hc ht (.inl hq) hadr hs) rfl
      (hsound := putLegacyBit_keeps_sound _ _ _ _ _ s)
  case lbputq =>
    rw [← legacyBad_of_alone h] at hs
    exact makes_of_askOnce rfl h (fun u hu => planLbput_sound hu hl ha hb hd hc ht (.inr rfl) hadr hs) rfl
      (hsound := putLegacyBit_keeps_sound _ _ _ _ _ s)
  case bits =>
    intro k w hk hwf
    simp only [perform_putLegacyBit, setLegacy_legacy]
    refine ⟨?_, fun j hj => ?_, fun b hb => readAt_writeAt_other _ _ _ _ _ hwf hb⟩
    · rw [readAt_writeAt_same _ _ _ _ hwf, getLsbD_putBit_same _ hk]
    · rw [readAt_writeAt_same _ _ _ _ hwf, getLsbD_putBit_other _ hj]

end Sys2Proof.Proofs
end

section
/-! SUPPORT. The plans of timers and counters on the words of their block (R181 to R184), the steps of a timer's running time
(R182), and the settlement of O42. -/

namespace Sys2Proof.Proofs

open Sys2Proof.Machine
open Sys2Proof.Safety

/-! ### The words of a block -/

section
variable {v : View} {base n : Nat}

/-- While words of the block are missing, the next one is read. -/
theorem blockRead_next (h : v.g.results.length < n) :
    blockRead v base n = .error (.readData (base + v.g.results.length)) := if_pos h

theorem blockRead_all {ws rs : List TWord} (h : v.g.results = ws ++ rs) (hn : ws.length = n) : blockRead v base n = .ok ws := by
  have hlen : ¬ (ws ++ rs).length < n := by
    rw [List.length_append]
    omega
  rw [blockRead, h, if_neg hlen, ← hn, List.take_left]

end

/-- The operands of a timer or counter that its checks accept: a BOOL as input, no word POISON, and a block of n words at base. -/
structure BlockOperands (v : View) (f : LForm) (n base : Nat) : Prop where
  legal : lBad f false 0 true true true = false
  input : poisonous (reg v f.b) = false
  address : poisonous (reg v f.a) = false
  bool : (reg v f.b).ty = Ty.bool
  block : blockBase v f.a n = .ok base

section
variable {v : View} {f : LForm} {base : Nat}

/-! ### Timers -/

section
variable {kind : Int → Word → Bool → TimerRun → TimerRun × Bool}

theorem planTimer_read (h : BlockOperands v f 4 base) (hk : v.g.results.length < 4) :
    planTimer v f kind = .need (.readData (base + v.g.results.length)) := by
  simp only [planTimer, h.legal, h.input, h.address, h.block, blockRead_next hk, Bool.or_self, Bool.false_eq_true, if_false]

/-- The words of a timer's block that its checks accept (R182). -/
structure TimerWords (ws : List TWord) (pt et last rem : TWord) : Prop where
  readPt : pt = nth TWord.empty ws 0
  readEt : et = nth TWord.empty ws 1
  readLast : last = nth TWord.empty ws 2
  readRem : rem = nth TWord.empty ws 3
  sound : ws.any poisonous = false
  ptType : pt.ty = Ty.duration
  etType : et.ty = Ty.duration
  lastType : last.ty = Ty.stamp ∨ last.ty = Ty.empty
  remType : rem.ty = Ty.int
  low : 0 ≤ rem.payload.toInt
  high : rem.payload.toInt ≤ 999

/-- With its block and the present time read, a timer writes ET, LAST and REM as its rule gives them from the updated block. -/
theorem planTimer_done {ws : List TWord} {pt et last rem now : TWord} {p : Int} {run t : TimerRun} {q : Bool}
    (h : BlockOperands v f 4 base) (hread : blockRead v base 4 = .ok ws) (hnow : got v 4 = some now)
    (hw : TimerWords ws pt et last rem) (hp : p = max 0 pt.payload.toInt)
    (hrun : run = TimerRun.mk et.payload.toInt rem.payload.toInt (if last.ty = Ty.stamp then some last.payload else none))
    (hkind : kind p now.payload ((reg v f.b).payload != 0) (timerUpdate p now.payload run) = (t, q)) :
    planTimer v f kind = .done
      { dst := some (f.d.val, resultWord false [reg v f.b, pt] Ty.bool (boolWord q))
        data := [(base + 1, resultWord false [reg v f.b, pt] Ty.duration (BitVec.ofInt 32 t.et)),
          (base + 2, match t.last with
            | some l => .mk0 Ty.stamp l
            | none => TWord.empty),
          (base + 3, resultWord false [reg v f.b, pt] Ty.int (BitVec.ofInt 32 t.rem))]
        cycles := 24 } := by
  obtain ⟨hpt0, het0, hlast0, hrem0, hsound, hpt, het, hlast, hrem, hlow, hhigh⟩ := hw
  have hempty : ¬ ((reg v f.b).ty = Ty.empty ∨ pt.ty = Ty.empty) := by
    rw [h.bool, hpt]
    decide
  have hstamp : (!(last.ty == Ty.stamp || last.ty == Ty.empty)) = false := by rcases hlast with h | h <;> rw [h] <;> rfl
  have htype : ¬ ((reg v f.b).ty ≠ Ty.bool ∨ pt.ty ≠ Ty.duration ∨ et.ty ≠ Ty.duration ∨
      (!(last.ty == Ty.stamp || last.ty == Ty.empty)) = true ∨ rem.ty ≠ Ty.int) := by
    rw [h.bool, hpt, het, hrem, hstamp]
    decide
  have hrange : ¬ (rem.payload.toInt < 0 ∨ 999 < rem.payload.toInt) := by omega
  subst hpt0 het0 hlast0 hrem0 hp hrun
  obtain ⟨_, _, lastStamp⟩ := t
  cases lastStamp <;>
    simp only [planTimer, h.legal, h.input, h.address, h.block, hread, hnow, hsound, if_neg hempty, if_neg htype, if_neg hrange,
      hkind, Bool.or_self, Bool.false_eq_true, if_false]

end

/-! ### Counters -/

section
variable {edge : Bool} {next : Bool → Bool → Int → Int → Option Int} {q : Int → Int → Bool} {pv cv eg : TWord}

/-- The words of a counter's block that its checks accept (R184); EDGE only where the counter reads it. -/
structure CounterWords (ws : List TWord) (edge : Bool) (pv cv eg : TWord) : Prop where
  readPv : pv = nth TWord.empty ws 0
  readCv : cv = nth TWord.empty ws 1
  readEdge : eg = nth TWord.empty ws 2
  sound : ws.any poisonous = false
  pvType : pv.ty = Ty.int
  cvType : cv.ty = Ty.int
  edgeType : edge = true → eg.ty = Ty.bool

/-- With its block read, a counter writes the CV that its rule gives, or leaves it as it is. -/
theorem planCounter_done {ws : List TWord} {n : Option Int} {w : TWord} (h : BlockOperands v f 3 base)
    (hread : blockRead v base (if edge then 3 else 2) = .ok ws) (hw : CounterWords ws edge pv cv eg)
    (hn : next ((reg v f.b).payload != 0) (eg.payload != 0) cv.payload.toInt pv.payload.toInt = n)
    (hword : w = n.elim cv fun x =>
      resultWord false (if edge then [cv, reg v f.b, pv] else [reg v f.b, pv]) Ty.int (BitVec.ofInt 32 x)) :
    planCounter v f edge next q = .done
      { dst := some (f.d.val, { w with ty := Ty.bool, payload := boolWord (q w.payload.toInt pv.payload.toInt) })
        data := (if n.isSome then [(base + 1, w)] else []) ++ (if edge then [(base + 2, reg v f.b)] else [])
        cycles := 16 } := by
  obtain ⟨hpv0, hcv0, heg0, hsound, hpv, hcv, heg⟩ := hw
  have hempty : ¬ ((reg v f.b).ty = Ty.empty ∨ pv.ty = Ty.empty) := by
    rw [h.bool, hpv]
    decide
  have hedge : (edge && eg.ty != Ty.bool) = false := by
    cases edge with
    | false => rfl
    | true => rw [heg rfl]; rfl
  have htype : ¬ ((reg v f.b).ty ≠ Ty.bool ∨ pv.ty ≠ Ty.int ∨ cv.ty ≠ Ty.int ∨ (edge && eg.ty != Ty.bool) = true) := by
    rw [h.bool, hpv, hcv, hedge]
    decide
  subst hpv0 hcv0 heg0 hword
  cases n <;>
    simp only [planCounter, h.legal, h.input, h.address, h.block, hread, hsound, hn, if_neg hempty, if_neg htype, Bool.or_self,
      Bool.false_eq_true, if_false, Option.elim]

/-- A counter that counts an edge writes CV and EDGE (R184). -/
theorem planCounter_edge {y : Int} {x : TWord} (h : BlockOperands v f 3 base) (hres : v.g.results = [pv, cv, eg])
    (hw : CounterWords [pv, cv, eg] true pv cv eg)
    (hn : next ((reg v f.b).payload != 0) (eg.payload != 0) cv.payload.toInt pv.payload.toInt = some y)
    (hx : x = resultWord false [cv, reg v f.b, pv] Ty.int (BitVec.ofInt 32 y)) :
    planCounter v f true next q = .done
      { dst := some (f.d.val, { x with ty := Ty.bool, payload := boolWord (q x.payload.toInt pv.payload.toInt) })
        data := [(base + 1, x), (base + 2, reg v f.b)], cycles := 16 } :=
  planCounter_done (n := some y) h (blockRead_all (hres.trans (List.append_nil _).symm) rfl) hw hn hx

/-- A counter that is set by the level of its input writes CV while that holds, and nothing otherwise (R184). -/
theorem planCounter_level {y : Int} {x : TWord} (h : BlockOperands v f 3 base) (hres : v.g.results = [pv, cv])
    (hw : CounterWords [pv, cv] false pv cv TWord.empty)
    (hn : ∀ b, next b false cv.payload.toInt pv.payload.toInt = if b then some y else none)
    (hx : x = if (reg v f.b).payload = 0 then cv else resultWord false [reg v f.b, pv] Ty.int (BitVec.ofInt 32 y)) :
    planCounter v f false next q = .done
      { dst := some (f.d.val, { x with ty := Ty.bool, payload := boolWord (q x.payload.toInt pv.payload.toInt) })
        data := if (reg v f.b).payload = 0 then [] else [(base + 1, x)], cycles := 16 } := by
  have hread : blockRead v base (if false = true then 3 else 2) = .ok [pv, cv] :=
    blockRead_all (hres.trans (List.append_nil _).symm) rfl
  by_cases hb : (reg v f.b).payload = 0
  · rw [if_pos hb] at hx ⊢
    exact planCounter_done (n := none) h hread hw ((hn _).trans (by rw [hb]; rfl)) hx
  · rw [if_neg hb] at hx ⊢
    exact planCounter_done (n := some y) h hread hw ((hn _).trans (by rw [bne_iff_ne.mpr hb, if_pos rfl])) hx

end

/-- Up and down counters count where their input is true and EDGE is false (R184). -/
theorem ite_edge (b edge : Word) (y z : Int) :
    (if (b != 0) && !(edge != 0) then y else z) = if b ≠ 0 ∧ edge = 0 then y else z := by
  by_cases hb : b = 0 <;> by_cases he : edge = 0 <;> simp [hb, he]

end

/-! ### The running time of a timer (R182) -/

theorem timerUpdate_running (pt et : Int) (rem : Nat) (now l : Word) :
    timerUpdate pt now ⟨et, rem, some l⟩ =
      if pt ≤ et + ((rem + (now - l).toNat) / 1000 : Nat) then ⟨pt, 0, some l⟩
      else ⟨et + ((rem + (now - l).toNat) / 1000 : Nat), ((rem + (now - l).toNat) % 1000 : Nat), some l⟩ := rfl

theorem stepTof_running (pt et rem : Int) (now l : Word) : stepTof pt now false ⟨et, rem, some l⟩ =
    if pt ≤ et then (⟨pt, rem, none⟩, false) else (⟨et, rem, some now⟩, true) := rfl

theorem stepTp_running {pt et : Int} (rem : Int) (now l : Word) (inp : Bool) (h : et < pt) :
    stepTp pt now inp ⟨et, rem, some l⟩ = (⟨et, rem, some now⟩, true) := by
  rw [stepTp, decide_eq_true h]
  rfl

/-- A pulse begins where PT is not 0. -/
theorem stepTp_start {pt : Int} (now : Word) (h : 0 < pt) : stepTp pt now true ⟨0, 0, none⟩ = (⟨0, 0, some now⟩, true) := by
  have hrun : stepTp pt now true ⟨0, 0, none⟩ = (⟨0, 0, some now⟩, decide (0 < pt)) := rfl
  rw [hrun, decide_eq_true h]

/-- Settles O42: timers by `planTimer_read` and `planTimer_done`, counters by `planCounter_edge` and `planCounter_level`, and the
rule of each timer from the block that the update leaves. -/
theorem timerAndCounterRules : Obligations.TimerAndCounterRules := by
  unfold Obligations.TimerAndCounterRules
  refine ⟨?blocks, ?idle, ?runs, ?elapses, ?tonFalse, ?tonStart, ?tonRuns, ?tofTrue, ?tofRuns, ?tpRuns, ?tpStart⟩
  case blocks =>
    rintro e f v base pt et last rem now b hl rfl hb ha ht
    refine ⟨fun i kind hmem hbase => ?timer, fun hbase hres hsound hpt het hlast => ?edge,
      fun hbase hres hsound hpt het => ?level⟩
    case timer =>
      have hplan : sncPlan i v = planTimer v f kind := by
        simp only [List.mem_cons, Prod.mk.injEq, List.not_mem_nil, or_false] at hmem
        rcases hmem with ⟨rfl, rfl⟩ | ⟨rfl, rfl⟩ | ⟨rfl, rfl⟩ <;> rfl
      have hop : BlockOperands v f 4 base := ⟨hl, hb, ha, ht, hbase⟩
      rw [hplan]
      constructor
      · rintro k hk rfl
        exact planTimer_read hop hk
      · intro hres hsound hpt het hlast hrem hlow hhigh p run t q hp hrun hkind
        have hread : blockRead v base 4 = .ok [pt, et, last, rem] := blockRead_all (rs := [now]) hres rfl
        have hnow : got v 4 = some now := by rw [got, hres]; rfl
        exact planTimer_done hop hread hnow ⟨rfl, rfl, rfl, rfl, hsound, hpt, het, hlast, hrem, hlow, hhigh⟩ hp hrun hkind
    case edge =>
      have hop : BlockOperands v f 3 base := ⟨hl, hb, ha, ht, hbase⟩
      have hw : CounterWords [pt, et, last] true pt et last := ⟨rfl, rfl, rfl, hsound, hpt, het, fun _ => hlast⟩
      exact ⟨fun x hx => planCounter_edge (next := nextCtu) (q := reachesPv) hop hres hw (congrArg some (ite_edge ..)) hx,
        fun x hx => planCounter_edge (next := nextCtd) (q := reachesZero) hop hres hw (congrArg some (ite_edge ..)) hx⟩
    case level =>
      have hop : BlockOperands v f 3 base := ⟨hl, hb, ha, ht, hbase⟩
      have hw : CounterWords [pt, et] false pt et TWord.empty := ⟨rfl, rfl, rfl, hsound, hpt, het, nofun⟩
      refine ⟨fun x hx => planCounter_level (next := nextCrst) (q := reachesPv) hop hres hw (fun _ => rfl) hx,
        fun x hx => planCounter_level (next := nextCld) (q := reachesZero) hop hres hw (fun _ => rfl) ?_⟩
      rw [hx, BitVec.ofInt_toInt]
  case idle =>
    rintro pt now ⟨et, rem, last⟩ rfl
    rfl
  case runs =>
    intro pt et rem now l h
    rw [timerUpdate_running, if_neg (Int.not_le.mpr h)]
  case elapses =>
    intro pt et rem now l h
    rw [timerUpdate_running, if_pos h]
  case tonFalse => exact fun _ _ _ => rfl
  case tonStart => exact fun _ _ _ _ => rfl
  case tonRuns => exact fun _ _ _ _ _ => rfl
  case tofTrue => exact fun _ _ _ => rfl
  case tofRuns => exact stepTof_running
  case tpRuns => exact fun _ _ rem now l h inp => stepTp_running rem now l inp h
  case tpStart => exact fun _ now h => stepTp_start now h

end Sys2Proof.Proofs
end

section
/-! SUPPORT. What the events of the code store, the scrubber, MRAM, the energy ledger and the backup cell leave, one lemma per event
and case (R196 to R204, R354 to R363, R372, R416, R421), and the settlement of O54. -/

namespace Sys2Proof.Proofs

open Sys2Proof.Machine
open Sys2Proof.Safety

/-! ### Causes and captured events -/

section
variable (s : State)

@[simp] theorem setCause_mem (n : Nat) : (setCause n s).mem = s.mem := by
  obtain ⟨f, hf⟩ := setCause_eq_onRegs s n
  rw [hf, onRegs_mem]

@[simp] theorem capture_mem (fw : Bool) (code : Nat) (data : Bytes) : (capture fw code data s).mem = s.mem := by
  obtain ⟨f, g, h⟩ := capture_eq_onRegs_onLog s fw code data
  rw [h, onRegs_mem, onLog_mem]

@[simp] theorem raiseVector_cause (v : Nat) : (raiseVector v s).regs.cause = s.regs.cause := by
  unfold raiseVector
  dsimp only
  split <;> rfl

@[simp] theorem raiseDevice_cause : (raiseDevice s).regs.cause = s.regs.cause := by
  unfold raiseDevice
  split
  · rfl
  · split
    · split
      · rfl
      · rw [raiseVector_cause]; rfl
    · rw [raiseVector_cause]; rfl

/-- An event adds its bit to the cause, whether or not the bit is masked (R535). -/
theorem setCause_cause (n : Nat) : (setCause n s).regs.cause = s.regs.cause ||| (1#11 <<< n) := by
  unfold setCause
  dsimp only
  split
  · rw [raiseDevice_cause]; rfl
  · rfl

end

/-! ### Pages (R196 to R200) -/

section
variable {gen page : Nat} {s : State}

/-- A page whose turn it is is loaded (R196, R197). -/
theorem pageFill_loads (ha : pagerActive s = true) (hn : (nextFills s).contains (gen, page) = true) :
    Claims.Leaves (.pageFill gen page) s (afterFill (fillPage gen page s)) :=
  leaves_of_finish rfl (if_pos (by rw [ha, hn]; rfl))

theorem fillPage_left (h : frameLeft s gen page = true) : fillPage gen page s = putFrame gen page s := if_pos h

theorem fillPage_evicts {i : Nat} (h : frameLeft s gen page = false) (hi : evictPage s = some i) :
    fillPage gen page s = putFrame gen page (dropFrame i s) := by
  rw [fillPage, h, if_neg Bool.false_ne_true, hi]

variable {p : Program} (hp : progOf s gen = some p) (hs : stored s gen page = false)
include hp hs

/-- A page of which every line passes, and whose bytes no frame holds, goes into the lowest free frame (R191, R200). -/
theorem putFrame_places {i : Nat} (hl : failingLine s gen page (codePage p page) = none)
    (ht : twinFrame s page (codePage p page) = none) (hi : freeFrame s = some i) :
    putFrame gen page s = onMem (fun m =>
      { m with frames := insertAt m.frames i { page := page, gens := [gen], lines := pageLines (codePage p page) } }) s := by
  simp only [putFrame, hp, hs, hl, placePage, ht, hi, Bool.false_eq_true, if_false]

/-- A page with a line that fails the table is recorded and bad (R201, R202). -/
theorem putFrame_bad {l : Nat} (hl : failingLine s gen page (codePage p page) = some l) :
    putFrame gen page s = markBad gen page (recordRefetch gen page l s) := by
  simp only [putFrame, hp, hs, hl, Bool.false_eq_true, if_false]

end

/-! ### Damaged lines (R201, R202) -/

/-- A damaged line of the running generation's code: f is the frame that holds it, b the bytes of the line in DDR. -/
structure DamagedLine (s : State) (frame line : Nat) (f : Frame) (b : Bytes) : Prop where
  fault : s.dev.st ≠ .fault
  holdup : s.dev.st ≠ .holdup
  held : look s.mem.frames frame = some f
  current : f.gens.contains (runningGen s) = true
  inPage : line < 64
  code : ∃ p, progOf s (runningGen s) = some p ∧ b = lineBytes (codePage p f.page) line

/-- The state once the refetch of a damaged line is counted and recorded (R201, R417). -/
def refetchCounted (s : State) (frame line : Nat) (f : Frame) : State :=
  recordRefetch (runningGen s) f.page line (countUe 7 (64 * frame + line) s)

section
variable {frame line : Nat} {bad : Bool} {f : Frame} {b : Bytes} {s : State}

/-- A refetch of a frame that holds nothing does nothing. -/
theorem lineRefetch_none (h : look s.mem.frames frame = none) : Claims.Leaves (.lineRefetch frame line bad) s s :=
  leaves_of_finish rfl (by rw [lineRefetch, h])

/-- A refetch is counted and recorded; the line is rewritten where its DDR copy is good, and its page goes absent otherwise. -/
theorem lineRefetch_eq (h : DamagedLine s frame line f b) :
    lineRefetch frame line bad s =
      if !bad && linePasses s (runningGen s) f.page line b then
        (enginesAt s (runningGen s) f.page line).foldl (fun t e => waitLine e t)
          (rewriteLine frame line b (refetchCounted s frame line f))
      else
        stopAtPage (enginesAt s (runningGen s) f.page line)
          (markBad (runningGen s) f.page (refetchCounted s frame line f)) := by
  obtain ⟨hf, hh, hheld, hcur, hline, p, hp, rfl⟩ := h
  have hserves : ¬ (decide (64 ≤ line) || s.dev.st == .fault || (s.dev.st == .holdup && s.dev.stage == 2)) = true := by
    simp [hf, hh, hline]
  simp only [lineRefetch, hheld, if_neg hserves, if_pos hcur, hp, Option.map_some, Option.getD_some,
    refetchCounted]

theorem lineRefetch_rewrites (h : DamagedLine s frame line f b) (hb : bad = false)
    (hl : linePasses s (runningGen s) f.page line b = true) :
    Claims.Leaves (.lineRefetch frame line bad) s
      ((enginesAt s (runningGen s) f.page line).foldl (fun t e => waitLine e t)
        (rewriteLine frame line b (refetchCounted s frame line f))) :=
  leaves_of_finish rfl ((lineRefetch_eq h).trans (if_pos (by rw [hb, hl]; rfl)))

theorem lineRefetch_absent (h : DamagedLine s frame line f b)
    (hb : bad = true ∨ linePasses s (runningGen s) f.page line b = false) :
    Claims.Leaves (.lineRefetch frame line bad) s
      (stopAtPage (enginesAt s (runningGen s) f.page line)
        (markBad (runningGen s) f.page (refetchCounted s frame line f))) := by
  refine leaves_of_finish rfl ((lineRefetch_eq h).trans (if_neg ?_))
  rcases hb with hb | hb <;> simp [hb]

end

/-! ### Rebuilds (R203, R204) -/

/-- The bad page is no longer one that waits for its rebuild. -/
def unmarkBad (gen page : Nat) : State → State :=
  onMem fun m => { m with badPages := m.badPages.filter (· != (gen, page)) }

section
variable {gen page : Nat} {s : State} (hn : nextRebuild s = some (gen, page)) (ha : pagerActive s = true)
  (hf : firmwareServes s = true) (hr : (freeFrame s).isSome = true)
include hn ha hf hr

/-- The firmware takes up the bad page that is next. -/
theorem rebuild_taken :
    ¬ (nextRebuild s != some (gen, page) || !pagerActive s || !firmwareServes s || (freeFrame s).isNone) = true := by
  have hnone : (freeFrame s).isNone = false := by rw [← Option.not_isSome, hr]; rfl
  simp [hn, ha, hf, hnone]

/-- An archived page is lost where a line of it is bad or no spare page is left, and rebuilt otherwise. -/
theorem pageRebuild_archived {b : Bytes} (hb : archivedPage s gen page = some b) (bad back : Bool) :
    exec (.pageRebuild gen page bad back) s = finish s
      (if bad || (failingLine s gen page b).isSome || (back && decide (256 ≤ s.mem.spares)) then
        losePage gen page (unmarkBad gen page s)
      else rebuildPage gen page b back (unmarkBad gen page s)) := by
  rw [exec_pageRebuild, execPageRebuild, if_neg (rebuild_taken hn ha hf hr)]
  simp only [hb, unmarkBad]

/-- A page that is not archived is lost. -/
theorem pageRebuild_unarchived (hb : archivedPage s gen page = none) (bad back : Bool) :
    Claims.Leaves (.pageRebuild gen page bad back) s (losePage gen page (unmarkBad gen page s)) := by
  refine leaves_of_finish rfl ((if_neg (rebuild_taken hn ha hf hr)).trans ?_)
  simp only [hb, unmarkBad]

theorem pageRebuild_rebuilds {b : Bytes} (hb : archivedPage s gen page = some b) (hl : failingLine s gen page b = none)
    {back : Bool} (hspare : back = true → s.mem.spares < 256) :
    Claims.Leaves (.pageRebuild gen page false back) s (rebuildPage gen page b back (unmarkBad gen page s)) :=
  leaves_of_finish (pageRebuild_archived hn ha hf hr hb false back) (if_neg (by simpa [hl] using hspare))

theorem pageRebuild_unspared {b : Bytes} (hb : archivedPage s gen page = some b) (hspare : 256 ≤ s.mem.spares) :
    Claims.Leaves (.pageRebuild gen page false true) s (losePage gen page (unmarkBad gen page s)) :=
  leaves_of_finish (pageRebuild_archived hn ha hf hr hb false true) (if_pos (by simp [hspare]))

/-- A page that is not archived, or an archived line of which is bad, is lost (R204). -/
theorem pageRebuild_loses {bad back : Bool} (h : archivedPage s gen page = none ∨ bad = true) :
    Claims.Leaves (.pageRebuild gen page bad back) s (losePage gen page (unmarkBad gen page s)) := by
  cases hb : archivedPage s gen page with
  | none => exact pageRebuild_unarchived hn ha hf hr hb bad back
  | some b =>
    have hbad : bad = true := h.resolve_left (by rw [hb]; nofun)
    exact leaves_of_finish (pageRebuild_archived hn ha hf hr hb bad back) (if_pos (by rw [hbad]; rfl))

end

theorem losePage_mem (gen page : Nat) (s : State) : (losePage gen page s).mem =
    { s.mem with losts := min 255 (s.mem.losts + 1), lostPages := s.mem.lostPages ++ [(gen, page)] } := by
  simp only [losePage, logFw, setCause_mem, capture_mem, onMem_mem, satTo_eq_min]

theorem losePage_cause (gen page : Nat) (s : State) : (losePage gen page s).regs.cause.getLsbD 10 = true := by
  rw [losePage, setCause_cause]
  simp

/-! ### The scrubber, MRAM, and the energy interval (R354 to R363, R421) -/

section
variable {s : State} (h : hostAccess s = true)
include h

/-- Main power is up wherever the host reaches the device. -/
theorem powered_of_hostAccess : ¬ (s.dev.st == .off || s.dev.st == .retain) = true := by
  simpa only [hostAccess, Bool.not_eq_true', Bool.not_eq_true] using h

theorem scrubRead_counts {mem addr : Nat} :
    Claims.Leaves (.scrubRead mem addr .clean) s s ∧
    Claims.Leaves (.scrubRead mem addr .correctable) s (correctable mem addr s) ∧
    Claims.Leaves (.scrubRead mem addr .uncorrectable) s (settle (uncorrectable mem addr s)) := by
  have hin : ¬ (!hostAccess s) = true := by simp [h]
  exact ⟨leaves_of_finish rfl (if_neg hin), leaves_of_finish rfl (if_neg hin), leaves_of_finish rfl (if_neg hin)⟩

theorem persistWrite_writes (hw : writerReady (writeMarker s) = true) :
    Claims.Leaves .persistWrite s (writeBlocks 1 (writeMarker s)) :=
  leaves_of_finish rfl ((if_neg (powered_of_hostAccess h)).trans (if_pos hw))

/-- The end of an interval: the rails are metered, the bank is sampled, and the cap and the limit follow. The jobs that wait are
considered, the pass of the scrubber is counted, and an interval over the cap adds to the count (R354, R358, R360, R363). -/
theorem energyIntervalEnd_meters {rails : List Nat} {mv time : Nat} {w : State}
    (hw : w = meterStage (onEnergy (fun e =>
      { e with rails := rails, samples := (rails.sum :: e.samples).take 100,
               average := meanOf ((rails.sum :: e.samples).take 100) }) (advance time s)))
    (hst : w.dev.st ≠ .holdup) :
    Claims.Leaves (.energyIntervalEnd rails mv time) s (onEnergy (fun e =>
      { e with overIntervals := if e.energyOver = true then min 4294967295 (e.overIntervals + 1) else e.overIntervals })
      (countPass (whenB (opsProceed (sampleBank mv w)) considerJobs (updateLimit (capInterval (sampleBank mv w)))))) := by
  subst hw
  rw [Claims.Leaves, exec_energyIntervalEnd, execEnergyIntervalEnd, if_neg (powered_of_hostAccess h)]
  simp only [if_neg hst, satTo_eq_min, finish_eq]
  rfl

end

/-! ### O54 -/

/-- Settles O54: each event has its effect, by the lemma of its case. -/
theorem codeAndMemoryEventsRun : Obligations.CodeAndMemoryEventsRun := by
  unfold Obligations.CodeAndMemoryEventsRun
  refine ⟨?fill, ?frame, ?refetch, ?rebuild, ?scrub, ?leak, ?persist, ?interval, ?cell⟩
  case fill =>
    intro gen page s ha hn
    have hloads := pageFill_loads ha hn
    refine ⟨fun hl => ?_, fun i hl hi => ?_⟩
    · rwa [fillPage_left hl] at hloads
    · rwa [fillPage_evicts hl hi] at hloads
  case frame =>
    intro gen page i p s hp hs
    exact ⟨putFrame_places hp hs, fun l => putFrame_bad hp hs⟩
  case refetch =>
    intro frame line bad s hf hh
    refine ⟨lineRefetch_none, ?_⟩
    rintro f p b u es hheld hcur hline hp hb rfl rfl
    have hd : DamagedLine s frame line f b := ⟨hf, hh, hheld, hcur, hline, p, hp, hb⟩
    exact ⟨lineRefetch_rewrites hd, lineRefetch_absent hd⟩
  case rebuild =>
    rintro gen page s u hn ha hf hr rfl
    refine ⟨fun b hb hl => ⟨?kept, ?spared, pageRebuild_unspared hn ha hf hr hb⟩, fun bad h => ?lost⟩
    case kept => exact pageRebuild_rebuilds hn ha hf hr hb hl nofun
    case spared => exact fun hspare => pageRebuild_rebuilds hn ha hf hr hb hl fun _ => hspare
    case lost =>
      have hmem := losePage_mem gen page (unmarkBad gen page s)
      exact ⟨_, pageRebuild_loses hn ha hf hr h, congrArg (·.lostPages) hmem, congrArg (·.losts) hmem, losePage_cause ..⟩
  case scrub => exact fun mem addr s h => scrubRead_counts h
  case leak => exact fun s => leaves_of_finish rfl rfl
  case persist => exact fun s h => persistWrite_writes h
  case interval =>
    rintro rails mv time s w v u h hw hst rfl hjobs hnone
    have hu : countPass (whenB (opsProceed (sampleBank mv w)) considerJobs (updateLimit (capInterval (sampleBank mv w)))) = u := by
      cases ho : opsProceed (sampleBank mv w) with
      | true => rw [hjobs ho, whenB, if_pos rfl]
      | false => rw [hnone ho, whenB, if_neg Bool.false_ne_true]
    rw [← hu]
    exact energyIntervalEnd_meters h hw hst
  case cell => exact fun mv charge s hoff => leaves_of_finish rfl (if_neg hoff)

end Sys2Proof.Proofs
end


section
/-! SUPPORT. The answer of CHANGE_RELEASE (R232), and the settlement of O15. -/

namespace Sys2Proof.Proofs

open Sys2Proof.Machine
open Sys2Proof.Safety

/-- The slots and the private pages that a release of the retained generation gives back (R232). -/
def releaseCounts (s : State) : Nat × Nat :=
  match s.chg.retained with
  | some b => (runSlots (releasedRuns b), (privatePages s b.prog).length)
  | none => (0, 0)

/-- CHANGE_RELEASE answers with what it gives back, and the retained generation goes (R232). -/
theorem cmdChangeRelease_effect (r : Request) (s : State) :
    cmdChangeRelease.effect r s =
      ({ status := stOk, result := leBytes 4 (releaseCounts s).1 ++ leBytes 2 (releaseCounts s).2 }, releaseRetained s) := by
  unfold releaseCounts
  cases hk : s.chg.retained <;> simp only [cmdChangeRelease, hk]

/-- Settles O15: each command of an online change serves its request, and its effect is the one stated. -/
theorem changeCommandsRun : Obligations.ChangeCommandsRun := by
  unfold Obligations.ChangeCommandsRun
  intro r
  refine ⟨?stage, ?commit, ?abort, ?revert, ?release⟩
  case release => exact runs_of_serve (fun _ => rfl) (funext (cmdChangeRelease_effect r))
  all_goals exact runs_of_serve (fun _ => rfl) rfl

end Sys2Proof.Proofs
end

section
/-! SUPPORT. The answer of TIME_SET (R407), and the settlements of O16 and O18. -/

namespace Sys2Proof.Proofs

open Sys2Proof.Machine
open Sys2Proof.Safety

/-- Settles O16: each command of the network and of the stations serves its request, and its effect is the one stated. -/
theorem networkAndStationCommandsRun : Obligations.NetworkAndStationCommandsRun := by
  unfold Obligations.NetworkAndStationCommandsRun
  intro r
  refine ⟨?config, ?start, ?stop, ?haltAll, ?haltStation, ?admission, ?configure, ?firmware, ?diag, ?release⟩ <;>
    exact runs_of_serve (fun _ => rfl) rfl

/-- Both modes of TIME_SET give one answer: at capture the fields load, else they wait for the next PTP second (R407). -/
theorem cmdTimeSet_effect (r : Request) (s : State) :
    cmdTimeSet.effect r s =
      ({ status := stOk, result := [b8 (pByte r 26), b8 (timeFlags s)] },
        if pByte r 26 = 0 then loadCalendar (fieldsOf (pSlice r 16 24)) (pField r 24 2) s
        else onCal (fun c => { c with pendingSet := some (fieldsOf (pSlice r 16 24)) }) s) := by
  by_cases h : pByte r 26 = 0 <;> simp only [cmdTimeSet, h, if_true, if_false]

/-- Settles O18: each command of the calendar and of the timebase serves its request, and its effect is the one stated. -/
theorem timeCommandsRun : Obligations.TimeCommandsRun := by
  unfold Obligations.TimeCommandsRun
  intro r
  refine ⟨?set, ?get, ?shift, ?alarm, ?trimCurve, ?ptp⟩
  case set => exact runs_of_serve (fun _ => rfl) (funext (cmdTimeSet_effect r))
  all_goals exact runs_of_serve (fun _ => rfl) rfl

end Sys2Proof.Proofs
end

section
/-! SUPPORT. What an engine of a compare pair does with an instruction that compares nothing and stores nothing (R299, R301, R303):
it completes it in its own engine as long as its commit buffer holds no more than its 8,192 entries, and stops before it for want of
room otherwise; and the refutation of O31, which bounds no buffer. -/

namespace Sys2Proof.Proofs

open Sys2Proof.Machine
open Sys2Proof.Safety

/-! ### One engine of a pair -/

section
variable {i : Instr} {e n : Nat} {v : View} {f : Effect} {s : State}

/-- Engine e, as half of a pair, runs task n and can fetch instruction i under the view v. -/
structure PairFetches (i : Instr) (e n : Nat) (v : View) (s : State) : Prop where
  begins : mayBegin s e = true
  task : (getEng s e).task = some n
  dual : (getTask s n).sched.dual = true
  view : viewOf (started e s) e = some v
  listed : v.d.pages.contains (v.g.pc / 4096) = true
  resident : pageIn s (v.g.pc / 4096) = true
  code : codeAt s e v.g.pc = some i
  intact : fetchPasses s v.g.pc = true

/-- An engine of a pair runs to its next compared operation, and what both engines have issued is resolved (R301). -/
theorem PairFetches.runInstr (h : PairFetches i e n v s) :
    runInstr e i s = resolveAll n (e / 2) 16 (runPaired n e i 8 (started e s)) := by
  obtain ⟨w, hw, hwd, hwp, hws, hwe⟩ := view_pc h.task h.view
  have hm : meets i w = true := meets_same (by rw [hws, hwe, hwp, h.code])
  unfold Machine.runInstr
  simp only [h.begins, h.task, hw, hwd, hwp, h.listed, h.resident, h.dual, h.intact, hm, started, Bool.not_true, Bool.false_eq_true,
    if_false, if_true, Bool.and_false, Bool.or_self]

theorem PairFetches.fetched (h : PairFetches i e n v s) (hc : v.g.ctxBad = false) : fetched i v = sncPlan i v := by
  obtain ⟨hs, he⟩ := viewOf_names h.view
  have hk : codeAt v.s v.e v.g.pc = some i := by rw [hs, he]; exact h.code
  simp only [Machine.fetched, h.listed, hc, hk, Option.isNone_some, Bool.not_true, Bool.false_eq_true, if_false]

theorem fillBuffer_none (hd : f.data = []) : fillBuffer e f s = s := by
  have hid : (fun g : Engine =>
      { g with
        buf := g.buf ++ (wordsLeft g f).take (8192 - g.buf.length)
        written := g.written + ((wordsLeft g f).take (8192 - g.buf.length)).length }) = id := by
    funext g
    simp [wordsLeft, hd]
  show onEng e _ s = s
  rw [hid]
  simp [onEng, onScan, modifyNth]

/-- An instruction that compares nothing and stores nothing completes in its own engine, unless more entries stand in the commit
buffer than it holds (R303). -/
theorem runPaired_done (hv : viewOf s e = some v) (hp : fetched i v = .done f) (he : f.ends = false) (hm : f.marked = none)
    (hd : f.data = []) (k : Nat) :
    runPaired n e i (k + 1) s =
      if 8192 < v.g.buf.length then issue e .bufferFull i s else complete true n e (lengthOf i) f s := by
  obtain ⟨dst, link, target, loc, data, carry, clearCarry, lgc, marked, ends, cycles⟩ := f
  subst hd hm he
  simp only [runPaired, hv, hp, bufferStops, wordsLeft, fillBuffer_none, List.drop_nil, List.length_nil, Nat.add_zero,
    decide_eq_true_eq, Bool.false_eq_true, if_false]

end

/-- Such an instruction as a step of the block: completed or stopped for want of room, then resolved with the partner. -/
theorem exec_pairFetches {i : Instr} {e : Fin 16} {n : Nat} {v : View} {f : Effect} {s : State} (hi : engineOf i = some e)
    (h : PairFetches i e.val n v s) (hp : fetched i v = .done f) (he : f.ends = false) (hm : f.marked = none) (hd : f.data = []) :
    exec i s = .next (keep s (resolveAll n (e.val / 2) 16
      (if 8192 < v.g.buf.length then issue e.val .bufferFull i (started e.val s)
       else complete true n e.val (lengthOf i) f (started e.val s)))) := by
  rw [exec_of_engineOf hi, h.runInstr, runPaired_done h.view hp he hm hd, finish_eq]
  rfl

/-- Where the commit buffer is within the 8,192 entries of R303, what O31 says holds. -/
theorem exec_pairFetches_within {i : Instr} {e : Fin 16} {n : Nat} {v : View} {f : Effect} {s : State}
    (hi : engineOf i = some e) (h : PairFetches i e.val n v s) (hp : fetched i v = .done f) (he : f.ends = false)
    (hm : f.marked = none) (hd : f.data = []) (hbuf : v.g.buf.length ≤ 8192) :
    exec i s = .next (keep s (resolveAll n (e.val / 2) 16 (complete true n e.val (lengthOf i) f (started e.val s)))) := by
  rw [exec_pairFetches hi h hp he hm hd, if_neg (Nat.not_lt.mpr hbuf)]

/-! ### A pair whose first engine holds more than its commit buffer -/

/-- NOP, the first instruction of a line of code. -/
def nopWord : Instr := .nop 0 ⟨0, 0, 0, false, 0⟩
def nopLine : Bytes := [0x00, 0xF4] ++ List.replicate 62 0

/-- Task 0 of a generation of one page, for a compare pair. -/
def pairTask : TaskDef := ⟨{ schedDisabled with dual := true }, 0, [0], 0, 0, []⟩
def pairProgram : Program :=
  { gen := 1, keySlot := 0, image := [], codeLength := 4096, dataWords := 0, retentiveWords := 0, trapPolicy := 0,
    layoutHash := [], buildId := [], tasks := [pairTask], code := [], slotRefs := [], init := [], pageMap := [0] }

/-- Engines 0 and 1 run task 0 from the NOP on, and engine 0 has the words given in its commit buffer. -/
def pairAtNop (buf : List (Nat × TWord)) : State :=
  { State.reset with
    chg := { State.reset.chg with running := some pairProgram }
    mem := { State.reset.mem with frames := [(0, { page := 0, gens := [1], lines := [(nopLine, crc32c nopLine)] })] }
    scan := { State.reset.scan with
      tasks := State.reset.scan.tasks.set 0 { Task.reset with sched := pairTask.sched, st := .running }
      engines := (State.reset.scan.engines.set 0 { Engine.reset with task := some 0, buf := buf }).set 1
        { Engine.reset with task := some 0 } } }

def seenAtNop (buf : List (Nat × TWord)) : View :=
  ⟨started 0 (pairAtNop buf), { Engine.reset with task := some 0, buf := buf }, pairProgram, pairTask, 0⟩

theorem pairFetches_nop (buf : List (Nat × TWord)) : PairFetches nopWord 0 0 (seenAtNop buf) (pairAtNop buf) := by
  have hline : fetchLine (pairAtNop buf) 0 = some (nopLine, crc32c nopLine) := rfl
  have hnext : fetchLine (pairAtNop buf) (0 + 2) = some (nopLine, crc32c nopLine) := rfl
  have hpc : (seenAtNop buf).g.pc = 0 := rfl
  refine ⟨rfl, rfl, rfl, rfl, ?listed, ?resident, ?code, ?intact⟩ <;> rw [hpc]
  case listed => exact (by decide : [0].contains (0 / 4096) = true)
  case resident => exact (rfl : pageIn (pairAtNop buf) 0 = true)
  case code => exact (by decide : codeAt (pairAtNop []) 0 0 = some nopWord)
  case intact => simp [fetchPasses, hline, hnext, lineIntact]

theorem fetched_nop (buf : List (Nat × TWord)) : fetched nopWord (seenAtNop buf) = .done {} :=
  ((pairFetches_nop buf).fetched rfl).trans (if_lBad (by decide) : planNop ⟨0, 0, 0, false, 0⟩ = .done {})

/-- Engine 0 stands before the NOP for want of room, and its partner, which has retired as many instructions, has issued nothing. -/
theorem stopped_waits (buf : List (Nat × TWord)) :
    (getEng (keep (pairAtNop buf) (resolveAll 0 0 16 (issue 0 .bufferFull nopWord (started 0 (pairAtNop buf))))) 0).issued =
      some (.bufferFull, nopWord) := rfl

/-- Engine 0 has retired the NOP and stands at nothing. -/
theorem completed_waits (buf : List (Nat × TWord)) :
    (getEng (keep (pairAtNop buf) (resolveAll 0 0 16 (complete true 0 0 4 {} (started 0 (pairAtNop buf))))) 0).issued = none := rfl

/-- One entry more than a commit buffer holds (R303). -/
def tooMany : List (Nat × TWord) := List.replicate 8193 (0, TWord.empty)

theorem tooMany_full : 8192 < tooMany.length := by
  rw [tooMany, List.length_replicate]
  decide

/-- Refutes O31: it ranges over every state and bounds no commit buffer. With 8,193 entries, one more than R303 gives it, the engine
stops before the NOP and stands at the full buffer, where the statement has it complete. -/
theorem not_pairedEngineCompletesInLockstep : ¬ Obligations.PairedEngineCompletesInLockstep := by
  unfold Obligations.PairedEngineCompletesInLockstep
  intro hall
  have hp := fetched_nop tooMany
  have h := pairFetches_nop tooMany
  have hstop := exec_pairFetches (e := 0) rfl h hp rfl rfl rfl
  have hdone := hall nopWord 0 0 _ {} _ rfl h.begins h.task h.dual h.view h.listed h.resident h.code h.intact hp rfl rfl rfl
  rw [if_pos (show 8192 < (seenAtNop tooMany).g.buf.length from tooMany_full)] at hstop
  have hsame := congrArg (fun t => (getEng t 0).issued) (Host.Outcome.next.inj (hstop.symm.trans hdone))
  exact absurd ((stopped_waits _).symm.trans (hsame.trans (completed_waits _))) (Option.some_ne_none _)

end Sys2Proof.Proofs
end

section
/-! SUPPORT. What the registers with effects of their own, their latched reads and the watchdog's service leave, one lemma per case
(R412, R427, R433, R434, R531 to R539), and the settlement of O49. -/

namespace Sys2Proof.Proofs

open Sys2Proof.Machine
open Sys2Proof.Safety

variable {s : State} {v : Word} {c : Nat}

/-! ### The host watchdog (R432 to R434) -/

theorem writeWdgService_queues (hc : wdgCounts s = true) (hq : s.wdg.queue.length < 4) :
    writeWdgService v s = onWdg (fun w => { w with queue := w.queue ++ [v] }) s := by
  simp only [writeWdgService, hc, hq, Bool.not_true, Bool.false_eq_true, if_false, if_true]

/-- The oldest write of the queue is judged at its capture, after the expiries before it. -/
theorem wdgServiceCapture_judges {r : List Word} (hq : s.wdg.queue = v :: r) (hc : wdgCounts s = true) :
    Claims.Leaves (.wdgServiceCapture c) s (wdgJudge c v.toNat (wdgTo c (onWdg (fun w => { w with queue := r }) s))) := by
  have hc' : wdgCounts (onWdg (fun w => { w with queue := r }) s) = true := hc
  simp only [Claims.Leaves, exec_wdgServiceCapture, execWdgServiceCapture, hq, hc', if_true]
  rfl

theorem wdgJudge_arms (ha : s.wdg.armed = false) (hv : v = 0xA5E1) :
    wdgJudge c v.toNat s = onWdg (fun w => { w with armed := true }) s := by
  subst hv
  simp only [wdgJudge, ha, Bool.not_false, if_true]
  rfl

theorem wdgJudge_good (ha : s.wdg.armed = true) (hv : v = 0x1E5A) (ho : wdgOpen s.wdg ≤ c) :
    wdgJudge c v.toNat s = onWdg (fun w =>
      { w with s := c, armed := false, openNow := w.openMs, closeNow := w.closeMs, lastGood := optimeMs s }) s := by
  subst hv
  have hn : (0x1E5A : Word).toNat = 0x1E5A := rfl
  simp only [wdgJudge, ha, hn, Nat.not_lt.mpr ho, Bool.not_true, Bool.false_eq_true, if_false, if_true, wdgGood, reference]

theorem wdgJudge_early (ha : s.wdg.armed = true) (hv : v = 0x1E5A) (ho : c < wdgOpen s.wdg) :
    wdgJudge c v.toNat s = wdgFail 1 c v.toNat s := by
  subst hv
  have hn : (0x1E5A : Word).toNat = 0x1E5A := rfl
  simp only [wdgJudge, ha, hn, ho, Bool.not_true, Bool.false_eq_true, if_false, if_true]

theorem wdgJudge_wrongFirst (ha : s.wdg.armed = false) (hv : v ≠ 0xA5E1) :
    wdgJudge c v.toNat s = wdgFail 2 c v.toNat s := by
  have hn : v.toNat ≠ 0xA5E1 := fun h => hv (BitVec.eq_of_toNat_eq h)
  simp only [wdgJudge, ha, hn, Bool.not_false, if_true, if_false]

theorem wdgJudge_wrongSecond (ha : s.wdg.armed = true) (hv : v ≠ 0x1E5A) :
    wdgJudge c v.toNat s = wdgFail 3 c v.toNat s := by
  have hn : v.toNat ≠ 0x1E5A := fun h => hv (BitVec.eq_of_toNat_eq h)
  simp only [wdgJudge, ha, hn, Bool.not_true, Bool.false_eq_true, if_false]

theorem hostWatchdogExpiry_takes (hc : wdgCounts s = true) (h : s.wdg.s + 8000 * s.wdg.closeNow ≤ c) :
    Claims.Leaves (.hostWatchdogExpiry c) s (wdgTo c s) := by
  have hclose : wdgClose s.wdg ≤ c := h
  simp only [Claims.Leaves, exec_hostWatchdogExpiry, execHostWatchdogExpiry, hc, hclose, decide_true, Bool.and_self, if_true]
  rfl

/-! ### The device interrupt (R534 to R537) -/

/-- A raised vector goes into the pending bits or the messages (R538). -/
theorem raiseVector_regs (n : Nat) :
    ∃ p m, (raiseVector n s).regs = { s.regs with pba := p, messages := m } := by
  unfold raiseVector
  dsimp only
  split <;> exact ⟨_, _, rfl⟩

/-- Beside them the device vector keeps the instant of its raising (R536). -/
theorem raiseDevice_regs :
    ∃ p m d, (raiseDevice s).regs = { s.regs with pba := p, messages := m, devRaisedAt := d } := by
  have raised : ∃ p m d, (raiseVector s.regs.devVector (onRegs (fun r => { r with devRaisedAt := some s.dev.now }) s)).regs =
      { s.regs with pba := p, messages := m, devRaisedAt := d } := by
    obtain ⟨p, m, h⟩ := raiseVector_regs s.regs.devVector (s := onRegs (fun r => { r with devRaisedAt := some s.dev.now }) s)
    exact ⟨p, m, _, h⟩
  unfold raiseDevice
  split
  · exact ⟨_, _, _, rfl⟩
  · split
    · split
      · exact ⟨_, _, _, rfl⟩
      · exact raised
    · exact raised

theorem raisePending_ringErr : (raisePending s).regs.ringErr = s.regs.ringErr := by
  unfold raisePending
  split
  · rfl
  · obtain ⟨p, m, d, h⟩ := raiseDevice_regs (s := s)
    rw [h]

/-- With no ring in error, a write to INT_CTRL raises the vector where the enable rises over a selected cause (log entry 53). -/
theorem writeIntCtrl_noError {u : State}
    (hu : u = onRegs (fun r =>
      { r with devEnable := v.getLsbD 31, devVector := bits v.toNat 30 24, errEnable := v.getLsbD 23,
               errVector := bits v.toNat 22 16 }) s)
    (he : s.regs.ringErr = 0) :
    writeIntCtrl v s =
      if v.getLsbD 31 = true ∧ s.regs.devEnable = false ∧ s.regs.cause &&& s.regs.mask ≠ 0 then raiseDevice u else u := by
  have hreg : u.regs.ringErr = 0 ∧ u.regs.cause = s.regs.cause ∧ u.regs.mask = s.regs.mask := by
    subst hu
    exact ⟨he, rfl, rfl⟩
  obtain ⟨hring, hcause, hmask⟩ := hreg
  have hpend : raisePending u = if s.regs.cause &&& s.regs.mask = 0 then u else raiseDevice u := by
    rw [raisePending, hcause, hmask]
  unfold writeIntCtrl
  simp only [bitOf_toNat, ← hu]
  by_cases hrise : (v.getLsbD 31 && !s.regs.devEnable) = true
  · obtain ⟨h31, hen⟩ : v.getLsbD 31 = true ∧ s.regs.devEnable = false := by simpa using hrise
    rw [if_pos hrise, raisePending_ringErr, if_pos hring, hpend]
    simp only [h31, hen, true_and, ne_eq, ite_not]
  · rw [if_neg hrise, if_pos hring, if_neg]
    rintro ⟨h31, hen, -⟩
    exact hrise (by rw [h31, hen]; rfl)

/-- A write to INT_MASK that selects a new cause raises the vector where a selected cause stands (R536). -/
theorem writeIntMask_eq {u : State} (hu : u = onRegs (fun r => { r with mask := v.setWidth 11 }) s) :
    writeIntMask v s =
      if v.setWidth 11 &&& ~~~s.regs.mask ≠ 0 ∧ s.regs.cause &&& v.setWidth 11 ≠ 0 then raiseDevice u else u := by
  have hpend : raisePending u = if s.regs.cause &&& v.setWidth 11 = 0 then u else raiseDevice u := by
    subst hu
    rfl
  unfold writeIntMask
  simp only [← hu, hpend]
  by_cases hnew : v.setWidth 11 &&& ~~~s.regs.mask = 0
  · simp only [hnew, ne_eq, not_true_eq_false, false_and, if_true, if_false]
  · simp only [hnew, ne_eq, not_false_eq_true, true_and, ite_not, if_false]

/-! ### Writes and their places (R531, R538) -/

theorem storeMsix_inside {off : Nat} (h : off < 2048) (ha : off % 4 = 0) : storeMsix off v s = writeMsix off v s :=
  if_pos ⟨h, ha⟩

theorem storeReg_aligned {off : Nat} (h : off < 65536) (ha : off % 4 = 0) : storeReg off 4 v s = writeReg off v s :=
  if_pos ⟨rfl, ha, h⟩

theorem storeReg_discarded {off size : Nat} (h : size ≠ 4 ∨ off % 4 ≠ 0) : storeReg off size v s = s :=
  if_neg fun ⟨hs, ha, _⟩ => h.elim (· hs) (· ha)

/-! ### O49 -/

/-- Settles O49: each access is its register's effect, since the host reaches BAR0 and no credit is withheld. -/
theorem registerEventsRun : Obligations.RegisterEventsRun := by
  unfold Obligations.RegisterEventsRun
  intro v s ha hw
  refine ⟨fun hc hq => ?service, fun c r u hq hc hu => ?capture, fun c hc h => hostWatchdogExpiry_takes hc h,
    hostReg_reaches (writeStatDual v) ha (hw _), hostReg_reaches (writeStatCal v) ha (hw _),
    hostReg_reaches (clearBucket (v.getLsbD 30)) ha (hw _), hostReg_reaches (writeIntCause v) ha (hw _),
    fun u hu he => ?intCtrl, fun u hu => ?intMask, fun off h h4 => ?msix, fun off h h4 => ?write, fun off size h => ?discarded,
    hostReg_reaches latchTick ha (hw _), hostReg_reaches latchOptime ha (hw _), hostReg_reaches latchLogSeq ha (hw _), ?reset⟩
  case service =>
    rw [← writeWdgService_queues hc hq]
    exact hostReg_reaches (writeWdgService v) ha (hw _)
  case capture =>
    have hj := wdgServiceCapture_judges (c := c) hq hc
    rw [← hu] at hj
    refine ⟨fun h hv => ?_, fun h hv ho => ?_, fun h hv ho => ?_, fun h hv => ?_, fun h hv => ?_⟩
    · rwa [wdgJudge_arms h hv] at hj
    · rwa [wdgJudge_good h hv ho] at hj
    · rwa [wdgJudge_early h hv ho] at hj
    · rwa [wdgJudge_wrongFirst h hv] at hj
    · rwa [wdgJudge_wrongSecond h hv] at hj
  case intCtrl =>
    rw [← writeIntCtrl_noError hu he]
    exact hostReg_reaches (writeIntCtrl v) ha (hw _)
  case intMask =>
    rw [← writeIntMask_eq hu]
    exact hostReg_reaches (writeIntMask v) ha (hw _)
  case msix =>
    exact (hostReg_reaches (storeMsix off v) ha (hw _)).trans (by rw [storeMsix_inside h h4]; rfl)
  case write =>
    exact (hostReg_reaches (storeReg off 4 v) ha (hw _)).trans (by rw [storeReg_aligned h h4])
  case discarded =>
    exact (hostReg_reaches (storeReg off size v) ha (hw _)).trans (by rw [storeReg_discarded h])
  case reset =>
    rintro t rfl
    refine ⟨?_, rfl, rfl, rfl, rfl, rfl, rfl, rfl, rfl, rfl, rfl, rfl, rfl, rfl⟩
    simp only [Claims.Leaves, exec_hostInterfaceReset, execHostInterfaceReset, ha, if_true]
    rfl

end Sys2Proof.Proofs
end


section
/-! SUPPORT. A step takes the front command (`step`), and the commands of the pair, the event record, the firmware, security, energy,
integrity, the field and the watchdogs run their effects; the settlements of O1, O17, O19, O20, O21 and O22. -/

namespace Sys2Proof.Proofs

open Sys2Proof.Machine
open Sys2Proof.Safety

/-- Settles O1: a queue with a front command takes the second branch of `step`. -/
theorem stepRunsFrontCommand : Obligations.StepRunsFrontCommand := by
  unfold Obligations.StepRunsFrontCommand
  intro c rest s h
  rw [step, h]

/-- Settles O17: each pair command serves its request, and its effect is the one stated. The total of PAIR_SYNC is a free value
(log entry 3), and the reset of the epoch is the model's reading of log entry 44. -/
theorem pairCommandsRun : Obligations.PairCommandsRun := by
  unfold Obligations.PairCommandsRun
  intro r
  refine ⟨?config, ?sync, ?switchover, ?leave, ?status⟩ <;>
    exact runs_of_serve (fun _ => rfl) rfl

/-- Settles O19: each command of the event record and of the firmware serves its request, and its effect is the one stated. The slot
0xFF of LOG_CLEAR (log entry 37) and the update record that FW_BEGIN replaces (log entry 40) are the model's choices. -/
theorem logAndFirmwareCommandsRun : Obligations.LogAndFirmwareCommandsRun := by
  unfold Obligations.LogAndFirmwareCommandsRun
  intro r
  refine ⟨?read, ?exported, ?clear, ?mark, ?begin, ?data, ?finish, ?activate, ?status, ?revert⟩ <;>
    exact runs_of_serve (fun _ => rfl) rfl

/-- Settles O20: each security command serves its request, and its effect is the one stated. The detail of KEY_REVOKE's record is a free
value (log entry 3), and the bits to blow are those of log entry 15. -/
theorem securityCommandsRun : Obligations.SecurityCommandsRun := by
  unfold Obligations.SecurityCommandsRun
  intro r random
  refine ⟨?nonce, ?unlock, ?read, ?program, ?revoke⟩ <;>
    exact runs_of_serve (fun _ => rfl) rfl

/-- Settles O21: each energy and integrity command serves its request, and its effect is the one stated. The total of the scrub burst is
a free value (log entry 3), and ENERGY_STATUS clears the charge drawn by log entry 37. -/
theorem energyAndIntegrityCommandsRun : Obligations.EnergyAndIntegrityCommandsRun := by
  unfold Obligations.EnergyAndIntegrityCommandsRun
  intro r
  refine ⟨?energyStatus, ?powerCap, ?holdup, ?cell, ?fill, ?scrub, ?test, ?errStatus⟩ <;>
    exact runs_of_serve (fun _ => rfl) rfl

/-- Settles O22: each field and watchdog command serves its request, and its effect is the one stated. -/
theorem fieldAndWatchdogCommandsRun : Obligations.FieldAndWatchdogCommandsRun := by
  unfold Obligations.FieldAndWatchdogCommandsRun
  intro r
  refine ⟨?config, ?status, ?testPulse, ?wdgConfig, ?evidence⟩ <;>
    exact runs_of_serve (fun _ => rfl) rfl

end Sys2Proof.Proofs
end

section
/-! SUPPORT. The refusals of a range check and of a busy check, for TIME_SHIFT (R409); what WDG_EVIDENCE reads and clears (R440); and the
settlements of O25 and O26. -/

namespace Sys2Proof.Proofs

open Sys2Proof.Machine
open Sys2Proof.Safety

/-! ### Refusals of a served command -/

section
variable {c : Cmd} {r : Request} {s : State}

/-- A command that its path takes goes through the checks of R45. -/
theorem serve_eq_runChecks (h : pathTakes c r (advance r.time s) = true) :
    serve c r s = answer r (runChecks c r (advance r.time s)).1 (runChecks c r (advance r.time s)).2 := by
  simp only [pathTakes, Bool.and_eq_true] at h
  obtain ⟨⟨⟨hserved, hwindow⟩, hurgent⟩, huart⟩ := h
  unfold serve
  rw [if_neg, if_neg, if_neg]
  -- the refusals of the path: of the UART by `huart`, of the urgent path by `hurgent`, of a path not served by the others
  all_goals grind

/-- A command that needs no token and comes on a ring or the UART is refused by its busy check. -/
theorem serve_of_busy {a : Answer} (hp : pathTakes c r (advance r.time s) = true)
    (hj : judgeEarly c r (advance r.time s) = none) (hu : urgentPath r.origin = false)
    (ha : authNeeded c r (advance r.time s) = false) (hb : c.busy r (advance r.time s) = some a) :
    serve c r s = answer r a (advance r.time s) := by
  rw [serve_eq_runChecks hp]
  simp only [runChecks, hj, hu, ha, runLate, judgeLate, hb, Bool.false_eq_true, if_false]

/-- A parameter out of range is BAD_PARAM, where the state and the role allow the command. -/
theorem serve_of_badRange (hp : pathTakes c r (advance r.time s) = true) (h1 : structureOk c r (advance r.time s) = true)
    (h2 : stateOk c r (advance r.time s) = true) (h3 : legalRole c.op s.dev.role = true)
    (hr : c.range r (advance r.time s) = bad) :
    serve c r s = answer r { status := 0x11 } (advance r.time s) := by
  refine serve_of_plainly_refused c r s _ hp ?_ (by decide)
  rw [judgeEarly_eq_range h1 h2 h3, hr]
  rfl

end

/-! ### TIME_SHIFT (R409) -/

/-- Settles O26: the range check, and behind it the busy check. -/
theorem timeShiftRefusals : Obligations.TimeShiftRefusals := by
  unfold Obligations.TimeShiftRefusals
  intro r s hp h1 h2
  have hrole : legalRole 0x6003 s.dev.role = true := by cases s.dev.role <;> decide
  constructor
  · intro hbad
    have hr : cmdTimeShift.range r (advance r.time s) = bad := by
      simp only [cmdTimeShift, badIf, Bool.or_eq_true, beq_iff_eq, decide_eq_true_eq, or_assoc, hbad, if_true]
    rw [exec_timeShift, execTimeShift, serve_of_badRange hp h1 h2 hrole hr]
    rfl
  · intro hn hmax hd hu hold
    have hj : judgeEarly cmdTimeShift r (advance r.time s) = none := by
      rw [judgeEarly_eq_range h1 h2 hrole]
      simp [cmdTimeShift, badIf_eq_none_iff, Nat.one_le_iff_ne_zero.mp hn, hmax, hd]
    have ha : authNeeded cmdTimeShift r (advance r.time s) = false := by simp [authNeeded, cmdTimeShift]
    have hb : cmdTimeShift.busy r (advance r.time s) = some { status := 0x14 } := by
      simp only [cmdTimeShift, busyIf, advance_cal, hold, decide_true, if_true, stBusy]
    rw [exec_timeShift, execTimeShift, serve_of_busy hp hj hu ha hb]
    rfl

/-! ### WDG_EVIDENCE (R440) -/

section
variable (s : State)

@[simp] theorem capture_wdg (fw : Bool) (code : Nat) (data : Bytes) : (capture fw code data s).wdg = s.wdg := by
  obtain ⟨f, g, h⟩ := capture_eq_onRegs_onLog s fw code data
  rw [h, onRegs_wdg, onLog_wdg]

@[simp] theorem reserve_wdg (o : Origin) : (reserve o s).wdg = s.wdg := by
  unfold reserve
  split
  · split <;> rfl
  · rfl

@[simp] theorem judged_wdg (c : Cmd) (r : Request) : (judged c r s).wdg = s.wdg := by
  unfold judged
  split <;> rfl

/-- No command's judging touches the watchdogs. -/
@[simp] theorem begins_wdg (c : Cmd) (r : Request) : (begins c r s).wdg = s.wdg := by
  unfold begins
  split
  · rfl
  · rw [reserve_wdg, judged_wdg]

theorem evidenceOf_putEvidence_same (n : Nat) (e : Evidence) : evidenceOf (putEvidence n e s) n = e := by
  match n with
  | 0 | 1 | _ + 2 => rfl

/-- The records of two of the three watchdogs are apart. -/
theorem evidenceOf_putEvidence_other {n k : Nat} (e : Evidence) (hn : n ≤ 2) (hk : k ≤ 2) (h : k ≠ n) :
    evidenceOf (putEvidence n e s) k = evidenceOf s k := by
  match n, k with
  | 0, 1 | 0, 2 | 1, 0 | 1, 2 | 2, 0 | 2, 1 => rfl
  | 0, 0 | 1, 1 | 2, 2 => exact absurd rfl h
  | _ + 3, _ | _, _ + 3 => omega

theorem evidenceOf_congr {s t : State} (h : t.wdg = s.wdg) (n : Nat) : evidenceOf t n = evidenceOf s n := by
  unfold evidenceOf
  rw [h]

theorem evidenceOf_logFw (code : Nat) (data : Bytes) (s : State) (n : Nat) :
    evidenceOf (logFw code data s) n = evidenceOf s n :=
  evidenceOf_congr (capture_wdg s true code data) n

end

/-- Settles O25: the record that is read and cleared, and the range check. -/
theorem watchdogEvidenceReadsThenClears : Obligations.WatchdogEvidenceReadsThenClears := by
  unfold Obligations.WatchdogEvidenceReadsThenClears
  intro r s
  constructor
  · intro h
    have hrange : pByte r 16 ≤ 2 := by
      simpa [cmdWdgEvidence, badIf_eq_none_iff] using range_of_accepted h
    have hread : ∀ n, evidenceOf (begins cmdWdgEvidence r s) n = evidenceOf s n := evidenceOf_congr (begins_wdg s _ r)
    obtain ⟨-, -, -, -, hrun⟩ := fieldAndWatchdogCommandsRun r
    refine ⟨hrange, (cmdWdgEvidence.effect r (begins cmdWdgEvidence r s)).2, ?_, fun hkeep => ?_, fun hclear => ?_⟩
    · rw [← hread]
      exact hrun s h
    · exact if_neg (by rw [hkeep]; exact Bool.false_ne_true)
    · have ht : (cmdWdgEvidence.effect r (begins cmdWdgEvidence r s)).2 =
          logFw 0xD004 (fields [(1, pByte r 16), (2, (evidenceOf s (pByte r 16)).count)])
            (putEvidence (pByte r 16) Evidence.reset (begins cmdWdgEvidence r s)) := by
        rw [← hread]
        exact if_pos hclear
      rw [ht]
      refine ⟨?_, fun n hn hne => ?_, rfl⟩
      · rw [evidenceOf_logFw, evidenceOf_putEvidence_same]
        rfl
      · rw [evidenceOf_logFw, evidenceOf_putEvidence_other _ _ hrange hn hne, hread]
  · intro hp h1 h2 hlarge
    have hrole : legalRole 0xD002 s.dev.role = true := by cases s.dev.role <;> decide
    have hr : cmdWdgEvidence.range r (advance r.time s) = bad := by
      simp only [cmdWdgEvidence, badIf, hlarge, decide_true, if_true]
    rw [exec_wdgEvidence, execWdgEvidence, serve_of_badRange hp h1 h2 hrole hr]
    rfl

end Sys2Proof.Proofs
end

section
/-! SUPPORT. What the TAP, DBG_ACCESS and the UART leave (R465 to R470, R492), and the settlement of O50. -/

namespace Sys2Proof.Proofs

open Sys2Proof.Machine
open Sys2Proof.Safety

/-! ### The TAP (R465, R466) -/

section
variable (s : State)

/-- The end of EXTEST is a change of the network's halts and of the security state alone (R466). -/
theorem leaveExtest_eq_onNet_onSec (st : DevState) :
    ∃ f g, leaveExtest st s = onNet f (onSec g s) ∧ (g s.sec).grant = s.sec.grant ∧ (g s.sec).nonce = s.sec.nonce ∧
      (g s.sec).tlr = s.sec.tlr := by
  unfold leaveExtest
  split
  · exact ⟨_, _, rfl, rfl, rfl, rfl⟩
  · exact ⟨id, id, rfl, rfl, rfl, rfl⟩

@[simp] theorem mirror_net (d : DeltaRec) : (mirror d s).net = s.net := by unfold mirror; split <;> rfl
@[simp] theorem mirror_sec (d : DeltaRec) : (mirror d s).sec = s.sec := by unfold mirror; split <;> rfl

/-- A halt of all outputs is in force and touches no security state (R261). -/
theorem setHaltAll_haltAll : (setHaltAll s).net.haltAll = true ∧ (setHaltAll s).sec = s.sec := by
  simp only [setHaltAll, mirror_net, mirror_sec, onNet_net, onNet_sec, and_self]

end

section
variable {s u : State}

/-- EXTEST, where the state honours it, halts all outputs (R466). -/
theorem extest_halts (hst : s.dev.st.honoursExtest = true) (hu : u = selectIr 0x00 s) (hir : u.sec.ir = 0x00)
    (htlr : u.sec.tlr = false) :
    ∃ t, exec (.extest true) s = .next t ∧ t.net.haltAll = true ∧ t.net.haltExtest = true ∧ t.sec.extest = true := by
  subst hu
  obtain ⟨hall, hsec⟩ := setHaltAll_haltAll (onSec (fun c => { c with extest := true }) (selectIr 0x00 s))
  refine ⟨keep s (onNet (fun n => { n with haltExtest := true })
    (setHaltAll (onSec (fun c => { c with extest := true }) (selectIr 0x00 s)))), ?_, hall, rfl, congrArg (·.extest) hsec⟩
  simp only [exec_extest, execExtest, hst, hir, htlr, finish_eq, if_true, Bool.not_false]
  rfl

/-- A reset of the TAP leaves everything but the TAP and the end of EXTEST (R465, R466). -/
theorem tapReset_keeps (s : State) :
    ∃ t, exec .tapReset s = .next t ∧ t.sec.tlr = true ∧ t.dev = s.dev ∧ t.img = s.img ∧ t.mem = s.mem ∧
      t.scan = s.scan ∧ t.host = s.host ∧ t.sec.grant = s.sec.grant ∧ t.sec.nonce = s.sec.nonce := by
  obtain ⟨f, g, h, hgrant, hnonce, htlr⟩ :=
    leaveExtest_eq_onNet_onSec (onSec (fun c => { c with tlr := true, ir := 0x01 }) s) s.dev.st
  refine ⟨keep s (tapToReset s), rfl, ?_⟩
  rw [tapToReset, h]
  exact ⟨htlr, rfl, rfl, rfl, rfl, rfl, hgrant, hnonce⟩

end

/-! ### DBG_ACCESS (R467) -/

section
variable {space : Fin 16} {addr : Nat} {data : BitVec 40} {s u : State} (hu : u = selectIr 0x20 s) (hir : u.sec.ir = 0x20)
include hu hir

/-- A read: without the grant to observe, at an address that does not exist, and of a word. -/
theorem dbgAccessRead_eq : exec (.dbgAccessRead space addr) s = finish s
    (if mayObserve u = false then dbgResult 2 0 u
    else if dbgHas space.val addr = false then dbgResult 3 0 u
    else dbgResult 0 (dbgWord space.val addr u).1 (dbgWord space.val addr u).2) := by
  subst hu
  simp only [exec_dbgAccessRead, execDbgAccessRead, hir, ne_eq, not_true_eq_false, if_false, Bool.not_eq_true']

/-- A write: without the grant to control, at an address that does not exist, and of a word, which is not mirrored. -/
theorem dbgAccessWrite_eq : exec (.dbgAccessWrite space addr data) s = finish s
    (if mayControl u = false then dbgResult 2 0 u
    else if dbgHas space.val addr = false then dbgResult 3 0 u
    else dbgResult 0 0 (if space.val = 5 then dbgPut 5 addr data u else unmirrored (dbgPut space.val addr data) u)) := by
  subst hu
  simp only [exec_dbgAccessWrite, execDbgAccessWrite, hir, ne_eq, not_true_eq_false, if_false, Bool.not_eq_true']

theorem dbgAccessControl_refused (h : mayControl u = false) :
    Claims.Leaves (.dbgAccessControl space addr data) s (dbgResult 2 0 u) := by
  subst hu
  exact leaves_of_finish rfl ((if_neg (not_not_intro hir)).trans (if_pos (by rw [h]; rfl)))

theorem dbgAccessControl_engine (h : mayControl u = true) (h8 : space.val = 8) (ha : addr < 16) :
    Claims.Leaves (.dbgAccessControl space addr data) s (dbgResult 0 0 (onEng addr (controlEngine data) u)) := by
  subst hu
  exact leaves_of_finish rfl ((if_neg (not_not_intro hir)).trans ((if_neg (by rw [h]; decide)).trans (if_pos ⟨h8, ha⟩)))

end

/-- Settles O50: each access is its meaning under the instruction that the TAP has taken, by the lemma of its case. The addresses that
exist and the layout of an engine's control word are those of log entry 22. -/
theorem debugAndUartEventsRun : Obligations.DebugAndUartEventsRun := by
  unfold Obligations.DebugAndUartEventsRun
  refine ⟨?challenge, ?response, ?access, ?extest, ?bypass, ?tapReset, ?rate, ?silence⟩
  case challenge =>
    rintro random s u rfl hir
    exact leaves_of_finish rfl (if_pos hir)
  case response =>
    rintro dr s u rfl hir
    exact leaves_of_finish rfl (if_pos hir)
  case access =>
    intro space addr data s u hu hir
    refine ⟨fun h => ?_, fun h hno => ?_, fun h ha => ?_, fun h => ⟨?_, dbgAccessControl_refused hu hir h⟩, fun h ha h5 => ?_,
      dbgAccessControl_engine hu hir⟩
    · exact leaves_of_finish (dbgAccessRead_eq hu hir) (if_pos h)
    · exact leaves_of_finish (dbgAccessRead_eq hu hir) (by rw [h, hno]; rfl)
    · exact leaves_of_finish (dbgAccessRead_eq hu hir) (by rw [h, ha]; rfl)
    · exact leaves_of_finish (dbgAccessWrite_eq hu hir) (if_pos h)
    · exact leaves_of_finish (dbgAccessWrite_eq hu hir) (by rw [h, ha, if_neg h5]; rfl)
  case extest => exact fun s u hst => extest_halts hst
  case bypass => exact fun s => leaves_of_finish rfl rfl
  case tapReset => exact tapReset_keeps
  case rate =>
    intro code s hs hc
    exact leaves_of_finish rfl (if_pos (by rw [hs, decide_eq_true hc]; rfl))
  case silence => exact fun s => leaves_of_finish rfl rfl

end Sys2Proof.Proofs
end

section
/-! SUPPORT. What the end of a debug grant leaves (R469), and the settlement of O55. -/

namespace Sys2Proof.Proofs

open Sys2Proof.Machine
open Sys2Proof.Safety

section
variable (s : State)

@[simp] theorem leaveExtest_grant (st : DevState) : (leaveExtest st s).sec.grant = s.sec.grant := by
  obtain ⟨f, g, h, hgrant, -, -⟩ := leaveExtest_eq_onNet_onSec s st
  rw [h]
  exact hgrant

/-- The end of a debug grant leaves none (R469). -/
theorem endGrant_grant : (endGrant s).sec.grant = none := by
  unfold endGrant
  split
  · rfl
  · rwa [← Option.not_isSome_iff_eq_none]

theorem closeGrant_grant : (closeGrant s).sec.grant = none := by
  unfold closeGrant
  split
  · rw [leaveExtest_grant, endGrant_grant]
  · exact endGrant_grant s

end

/-- Settles O55: each event has its effect in the state that it finds, the end of a grant by `closeGrant_grant`. A rollover makes the
corrections that are due and ends the hold by log entry 27. -/
theorem clockAndLogEventsRun : Obligations.ClockAndLogEventsRun := by
  unfold Obligations.ClockAndLogEventsRun
  refine ⟨?rollover, ?trim, ?pendingSet, ?holdEnd, ?nonce, ?grant, ?optime, ?writer⟩
  case rollover => exact fun s hv => leaves_of_finish rfl (if_pos hv)
  case trim => exact fun temp s hv => leaves_of_finish rfl (if_pos hv)
  case pendingSet => exact fun f s hf => leaves_of_finish rfl (by rw [hf])
  case holdEnd => exact fun s => leaves_of_finish rfl rfl
  case nonce =>
    intro time s h
    exact ⟨_, leaves_of_finish rfl (if_pos (Option.isNone_iff_eq_none.mpr h)), rfl, rfl⟩
  case grant =>
    intro time s h
    exact ⟨_, leaves_of_finish rfl (if_pos h), closeGrant_grant _⟩
  case optime =>
    rintro time s u rfl hg
    exact leaves_of_finish rfl (if_pos hg)
  case writer =>
    intro s hw
    exact ⟨leaves_of_finish rfl (if_pos hw), leaves_of_finish rfl (if_pos hw), leaves_of_finish rfl (if_pos hw)⟩

end Sys2Proof.Proofs
end

section
/-! SUPPORT. What starts, the self-test, the arbitration, resets and the firmware watchdog leave, one lemma per event and
case (R338, R379 to R389, R430), and the settlement of O52. -/

namespace Sys2Proof.Proofs

open Sys2Proof.Machine
open Sys2Proof.Safety

/-! ### BOOT (R387) -/

section
variable {env : BootEnv} {s u w : State}

/-- BOOT reads the fuses, the straps and the event record, and then recovers or starts firmware (R387). -/
theorem execBoot_starts (hu : u = advance env.time s) (hst : u.dev.st = .boot) (hr : u.dev.pwrRstLow = false)
    (hp : u.dev.powerFailLow = false)
    (hw : w = onPair (fun p => { p with sideB := env.sideB })
      (onSec (fun c => { c with shadows := true }) (if u.dev.startCause = 3 then u else startLog u))) :
    exec (.boot env) s = finish s
      (if bootRecovers env w = true then enterRecovery (countPowerCycle w) else bootFirmware env w) := by
  subst hu hw
  simp only [exec_boot, execBoot, hst, hr, hp, ne_eq, not_true_eq_false, decide_false, Bool.or_self, Bool.false_eq_true, if_false]

variable {v : State} (hv : v = countPowerCycle (onFw (fun f => { f with norReset := false }) w))
include hv

/-- No bank is left to start: RECOVERY (R387). -/
theorem bootFirmware_recovers (h : bootBank v = none ∨ 2 ≤ v.fw.failed) : bootFirmware env w = enterRecovery v := by
  unfold bootFirmware
  simp only [← hv]
  cases hb : bootBank v with
  | none => rfl
  | some n => exact if_pos (h.resolve_left (by rw [hb]; nofun))

/-- A bank is left: it runs where it passes, and counts as a failed boot where it does not (R387). -/
theorem bootFirmware_starts {n : Nat} (hn : bootBank v = some n) (hf : v.fw.failed < 2) :
    bootFirmware env w =
      if env.pllLocked = true ∧ bankPasses v n = true then enterSelftest (scanBanks (runBank n v)) else bootFailed n v := by
  subst hv
  simp only [bootFirmware, hn, if_neg (Nat.not_le.mpr hf), Bool.and_eq_true]

end

/-! ### SELFTEST (R384, R385, R388) -/

/-- A self-test that runs: the core is up. -/
theorem selftest_runs {u : State} (hst : u.dev.st = .selftest) (hc : u.fw.coreUp = true) :
    ¬ (decide (u.dev.st ≠ .selftest) || !u.fw.coreUp) = true := by
  simp only [hst, hc, ne_eq, not_true_eq_false, decide_false, Bool.not_true, Bool.or_self, Bool.false_eq_true, not_false_eq_true]

section
variable {env : SelftestEnv} {s u : State} (hu : u = advance env.time s) (hst : u.dev.st = .selftest) (hc : u.fw.coreUp = true)
include hu hst hc

/-- A checker that fails its self-test leads to FAULT (R388). -/
theorem selftest_fault {x : Nat × Nat} (hf : env.checkerFails = some x) : Claims.Leaves (.selftest env) s
    (enterFault x.1 (logHw 0xB004 (fields [(1, x.1), (1, x.2), (4, 0)]) u)) := by
  subst hu
  exact leaves_of_finish rfl ((if_neg (selftest_runs hst hc)).trans (by rw [hf]))

/-- Without a valid configuration the start is cold (R384). -/
theorem selftest_cold (hf : env.checkerFails = none) (hv : u.dev.cfgValid = false) :
    Claims.Leaves (.selftest env) s (leaveSelftest 0 .configure
      (finishSelftest (onDev (fun d => { d with cfgValid := true, cfgFormat := u.fw.cfgFormat }) (loadCurve (coldStart u))))) := by
  subst hu
  exact leaves_of_finish rfl ((if_neg (selftest_runs hst hc)).trans (by rw [hf]; exact if_neg (by simp [hv])))

/-- With a valid configuration of the firmware's own format the start is warm (R385). -/
theorem selftest_warm (hf : env.checkerFails = none) (hv : u.dev.cfgValid = true) (hw : u.dev.cfgFormat = u.fw.cfgFormat) :
    Claims.Leaves (.selftest env) s (leaveSelftest 1
      (if (warmStart env (loadCurve u)).chg.running.isSome then startState (warmStart env (loadCurve u)) else .configure)
      (finishSelftest (warmStart env (loadCurve u)))) := by
  subst hu
  exact leaves_of_finish rfl ((if_neg (selftest_runs hst hc)).trans (by rw [hf]; exact if_pos (by simp [hv, hw])))

end

/-! ### Arbitration (R338) -/

section
variable {time t0 : Nat} {s u : State} (hu : u = advance time s) (hd : u.pair.deciding = some t0)
include hu hd

/-- A partner that is PRIMARY is joined (R338). -/
theorem arbitration_joins (hl : u.pair.line = 2) : Claims.Leaves (.arbitration time) s (becomeSyncing u) := by
  subst hu
  refine leaves_of_finish rfl ?_
  simp only [hd, if_pos hl]

/-- With no partner, the module takes mastership after the whole time of the decision (R338). -/
theorem arbitration_alone (hl : u.pair.line = 0) (ht : t0 + 600000000 ≤ u.dev.now) :
    Claims.Leaves (.arbitration time) s (arbitrated u) := by
  subst hu
  refine leaves_of_finish rfl ?_
  simp only [hd, hl, ht, decide_true, if_true, OfNat.zero_ne_ofNat, if_false]

end

/-! ### Resets, the firmware watchdog and HALT_REQ_N (R389, R430, R502) -/

section
variable (s : State)

@[simp] theorem leaveExtest_wdg (st : DevState) : (leaveExtest st s).wdg = s.wdg := by
  unfold leaveExtest
  split <;> rfl

@[simp] theorem leaveExtest_mem (st : DevState) : (leaveExtest st s).mem = s.mem := by
  unfold leaveExtest
  split <;> rfl

@[simp] theorem beginBoot_wdg (cause : Nat) : (beginBoot cause s).wdg = resetWdg s.wdg := by
  simp only [beginBoot, onDev_wdg, resetDie, leaveExtest_wdg]

@[simp] theorem beginBoot_mem (cause : Nat) : (beginBoot cause s).mem = resetMemory s.mem := by
  simp only [beginBoot, onDev_mem, resetDie, leaveExtest_mem]

end

variable {s : State}

/-- A scheduled reset takes effect outside a switch window: BOOT with cause 2. Scope 2 drops the configuration,
and scope 3 recovers at the next BOOT (R389). -/
theorem deviceReset_boots {k : Nat} (hk : s.dev.resetScope = some k) (hw : s.chg.window = none) :
    exec .deviceReset s = finish s (beginBoot 2 (onDev (fun d =>
      { d with cfgValid := d.cfgValid && k != 2, recoveryNext := d.recoveryNext || k == 3 }) (advance s.dev.resetDue s))) := by
  simp only [exec_deviceReset, execDeviceReset, hk, hw, Option.isSome_none, Bool.false_eq_true, if_false]

/-- The state once the firmware watchdog has taken its evidence (R430). -/
def watchdogSeen (pc : Word) (time : Nat) (s : State) : State :=
  captureEvidence 1 pc (BitVec.ofNat 32 s.fw.running) (optimeMs (advance time s) - fwLimitMs s) (advance time s)

/-- In RUN the firmware watchdog takes its evidence, writes its record and stops the core (R430). -/
theorem fwWatchdogExpiry_run {pc : Word} {time : Nat} (hst : s.dev.st = .run) (hheld : s.sec.coreHeld = false)
    (hup : s.fw.coreUp = true) :
    exec (.fwWatchdogExpiry pc time) s = finish s (pauseCore (onFw (fun f => { f with norReset := norBusy s })
      (logHw 0xD002 (evidenceBytes (watchdogSeen pc time s).wdg.evFw) (watchdogSeen pc time s)))) := by
  have hruns : ¬ (s.dev.st == .off || s.dev.st == .retain || (s.dev.st == .holdup && s.dev.stage == 2) || s.sec.coreHeld ||
      (s.dev.st != .boot && s.dev.st != .recovery && !s.fw.coreUp && s.fw.activating.isNone)) = true := by
    simp [hst, hheld, hup]
  simp only [exec_fwWatchdogExpiry, execFwWatchdogExpiry, if_neg hruns]
  simp only [hst, watchdogSeen]

/-- Settles O52: each event is its meaning in the case at hand, and a reset of the die shows in what `resetDie` leaves. A start that goes
to RECOVERY counts the power cycle by log entry 59, and the instants of the arbitration are those of log entry 49. -/
theorem startEventsRun : Obligations.StartEventsRun := by
  unfold Obligations.StartEventsRun
  refine ⟨?boot, ?selftest, ?arbitration, ?reset, ?watchdog, ?restart, ?haltLow, ?haltHigh⟩
  case boot =>
    intro env s u w hu hst hr hp hw
    have hx := execBoot_starts hu hst hr hp hw
    refine ⟨fun h => leaves_of_finish hx (if_pos h), fun h v hv => ⟨fun hn => ?_, fun n hn hf => ?_⟩⟩
    · exact leaves_of_finish hx ((if_neg (by simp [h])).trans (bootFirmware_recovers hv hn))
    · exact leaves_of_finish hx ((if_neg (by simp [h])).trans (bootFirmware_starts hv hn hf))
  case selftest =>
    rintro env s u w hu hst hc rfl
    exact ⟨fun x => selftest_fault hu hst hc, selftest_cold hu hst hc, selftest_warm hu hst hc⟩
  case arbitration => exact fun time s u t0 hu hd => ⟨arbitration_joins hu hd, arbitration_alone hu hd⟩
  case reset =>
    intro s k hk hw
    refine ⟨_, deviceReset_boots hk hw, ?_⟩
    simp only [beginBoot_dev, resetDie_dev, beginBoot_wdg, beginBoot_mem]
    exact ⟨trivial, trivial, trivial, rfl, rfl, rfl, rfl, rfl⟩
  case watchdog =>
    intro pc time s hst hheld hup
    refine ⟨_, fwWatchdogExpiry_run hst hheld hup, ?_⟩
    simp only [pauseCore, holdTimebase, logHw, onNet_fw, onNet_wdg, onNet_img, onNet_scan, onFw_fw, onFw_wdg, onFw_img, onFw_scan,
      capture_wdg, capture_img, capture_scan]
    exact ⟨trivial, rfl, rfl, rfl⟩
  case restart =>
    intro time s u hu hc hst
    have hdown : ¬ (u.fw.coreUp || !(u.dev.st.configured || u.dev.st == .selftest)) = true := by simp [hc, hst]
    subst hu
    exact leaves_of_finish rfl (if_neg hdown)
  case haltLow =>
    intro time s u hu hup hst hr
    have hmaster : (u.dev.st.configured && (u.dev.role == .solo || u.dev.role == .primary)) = true := by simp [hst, hr]
    subst hu
    exact leaves_of_finish rfl ((if_pos hup).trans (by rw [if_pos hmaster]))
  case haltHigh => exact fun s => leaves_of_finish rfl rfl

end Sys2Proof.Proofs
end

section
/-! SUPPORT. What samples, faults and test pulses leave in the channels, one lemma per event and case (R493 to R510), and the
settlement of O58. -/

namespace Sys2Proof.Proofs

open Sys2Proof.Machine
open Sys2Proof.Safety

/-! ### Channels -/

section
variable {s : State} {c : Nat}

/-- Channel c after its own update: updated, where the table has it. -/
theorem getCh_onCh_same_or (f : Channel → Channel) : getCh (onCh c f s) c = f (getCh s c) ∨ getCh (onCh c f s) c = getCh s c := by
  unfold getCh onCh nth modifyNth
  simp only [onFio_fio, List.getElem?_modify_eq]
  cases h : s.fio.ch[c]? with
  | none => exact .inr rfl
  | some x => exact .inl rfl

theorem outputFault_of_driven (h : heldOff s c = false) : (getCh s c).outputFault = false := by
  simp only [heldOff, Bool.or_eq_false_iff] at h
  exact h.2

/-- A pulse is not stopped in a channel that nothing holds off and that that its command switches on (R510). -/
theorem pulseStopped_of_driven (h : heldOff s c = false) (hc : s.fio.command.getLsbD c = true) : pulseStopped s c = false := by
  have hfault : (getCh (onCh c (fun x => { x with outputFault := false }) s) c).outputFault = false := by
    rcases getCh_onCh_same_or (s := s) (c := c) (fun x => { x with outputFault := false }) with hg | hg
    · rw [hg]
    · rw [hg]
      exact outputFault_of_driven h
  have hheld : heldOff (onCh c (fun x => { x with outputFault := false }) s) c = false := by
    simp only [heldOff, Bool.or_eq_false_iff] at h ⊢
    exact ⟨h.1, hfault⟩
  rw [pulseStopped, hheld, hc]
  rfl

/-- A driven channel passes a test pulse that nothing disturbed: the output comes back on (R510). -/
theorem testPulse_passes {ch : Fin 32} {i : Nat} {l : List Nat} {x : Nat} (hd : dieUp s = true)
    (ht : s.fio.test = some (i, l, some (ch.val, x))) (hhit : s.fio.testHit = false) (hoff : heldOff s ch.val = false)
    (hc : s.fio.command.getLsbD ch.val = true) :
    Claims.Leaves (.testPulse ch true true false) s (testMark i 0 ch.val
      (onCh ch.val (fun y => { y with applied := true }) (onFio (fun f => { f with test := some (i, l, none) }) s))) := by
  have hstop := pulseStopped_of_driven hoff hc
  have hfault := outputFault_of_driven hoff
  refine leaves_of_finish rfl ?_
  simp only [ht, hd, hstop, hhit, hfault, ne_eq, not_true_eq_false, decide_false, Bool.not_true, Bool.not_false, Bool.or_self,
    Bool.and_self, Bool.false_eq_true, if_false, if_true]

end

/-! ### Samples (R493, R494) -/

/-- The state after a sample, with no channel under test. -/
def sampled (x : FieldSample) : State → State := onFio fun f =>
  { f with
    ch := (List.range 32).map fun c =>
      sampleChannel c (x.rawA.getLsbD c) (x.rawB.getLsbD c) (nth 0 x.currents c) x.time (nth (Channel.reset c) f.ch c)
    supplyA := sampleSupply x.supplyA f.supplyA
    supplyB := sampleSupply x.supplyB f.supplyB
    sampleAt := x.time, sampleWaiting := true }

theorem getCh_sampled (x : FieldSample) (s : State) {c : Nat} (h : c < 32) : getCh (sampled x s) c =
    sampleChannel c (x.rawA.getLsbD c) (x.rawB.getLsbD c) (nth 0 x.currents c) x.time (nth (Channel.reset c) s.fio.ch c) := by
  simp [getCh, sampled, nth, h]

/-- With no channel under test, a sample is taken in every channel (R494). -/
theorem fieldSample_samples {x : FieldSample} {s u : State} (hu : u = advance x.time s) (hd : dieUp u = true)
    (hl : u.fio.linkUp = true) (ht : u.fio.test = none) : exec (.fieldSample x) s = finish s (sampled x u) := by
  subst hu
  have hskip : underTest (advance x.time s) = none := by simp only [underTest, ht, Option.bind_none, Option.map_none]
  have hpulse : pulseAtSample x.time (sampled x (advance x.time s)) = sampled x (advance x.time s) := by
    have ht' : (sampled x (advance x.time s)).fio.test = none := ht
    simp only [pulseAtSample, ht']
  rw [← hpulse]
  simp only [exec_fieldSample, execFieldSample, hd, hl, hskip, reduceCtorEq, if_false, Bool.not_true, Bool.or_self,
    Bool.false_eq_true]
  rfl

/-! ### Filters, wire breaks, outputs (R497 to R504) -/

section
variable {ch : Fin 32} {s : State} (hd : dieUp s = true)
include hd

theorem filterChange_B (hi : isInput ch.val (getCh s ch.val) = true)
    (hn : filterN (getCh s ch.val) ≤ (getCh s ch.val).diffB) :
    Claims.Leaves (.filterChange ch true) s (onCh ch.val (fun y => { y with filtB := y.rawB, diffB := 0 }) s) :=
  leaves_of_finish rfl ((if_neg (by simp [hd, hi])).trans (if_pos (by simp [hn])))

theorem filterChange_A (hi : isInput ch.val (getCh s ch.val) = true)
    (hn : filterN (getCh s ch.val) ≤ (getCh s ch.val).diffA) :
    Claims.Leaves (.filterChange ch false) s (onCh ch.val (fun y => { y with filtA := y.rawA, diffA := 0 }) s) :=
  leaves_of_finish rfl ((if_neg (by simp [hd, hi])).trans ((if_neg Bool.false_ne_true).trans (if_pos (by simp [hn]))))

theorem wireBreak_changes {broken : Bool} (hw : (getCh s ch.val).wbe = true) (hm : (getCh s ch.val).mode = 1)
    (hb : (getCh s ch.val).broken = !broken) (hn : filterN (getCh s ch.val) ≤ (getCh s ch.val).breakCount) {u : State}
    (hu : u = onCh ch.val (fun y => { y with broken := broken, breakCount := 0 }) s) :
    Claims.Leaves (.wireBreak ch broken) s (if broken = true then logHw 0xC002 [b8 ch.val] u else u) := by
  subst hu
  exact leaves_of_finish rfl (if_neg (by simp [hd, hw, hm, hb, hn]))

theorem outputShutdown_records (hm : (getCh s ch.val).mode = 2) (hf : (getCh s ch.val).outputFault = false) :
    Claims.Leaves (.outputShutdown ch) s
      (setCause 7 (logHw 0xC003 [b8 ch.val] (onCh ch.val (fun x => { x with outputFault := true, applied := false }) s))) :=
  leaves_of_finish rfl (if_neg (by simp [hd, hm, hf]))

theorem readbackFail_records (hf : (getCh s ch.val).readbackFault = false) (hn : 4 ≤ (getCh s ch.val).readbackCount) :
    Claims.Leaves (.readbackFail ch) s
      (setCause 7 (logHw 0xC003 [b8 ch.val] (onCh ch.val (fun y => { y with readbackFault := true, readbackCount := 0 }) s))) :=
  leaves_of_finish rfl (if_neg (by simp [hd, hf, hn]))

end

/-- Settles O58: each event has its effect, by the lemma of its case. That an event takes effect only where the counts of the samples
allow it is the model's choice (log entry 50). -/
theorem fieldEventsRun : Obligations.FieldEventsRun := by
  unfold Obligations.FieldEventsRun
  refine ⟨?link, ?linkUp, ?sample, ?channel, ?supply⟩
  case link =>
    rintro time s u rfl hd hl
    refine ⟨fun hw => ?_, ?_⟩
    · exact leaves_of_finish rfl (if_neg (by rw [hd, hl, hw]; exact Bool.false_ne_true))
    · exact leaves_of_finish rfl (if_neg (by rw [hd, hl]; exact Bool.false_ne_true))
  case linkUp =>
    intro s hd hl
    exact leaves_of_finish rfl (if_neg (by rw [hd, hl]; exact Bool.false_ne_true))
  case sample =>
    intro x s u hu hd hl ht
    exact ⟨_, fieldSample_samples hu hd hl ht, rfl, rfl, fun c hc => getCh_sampled x u hc, rfl, rfl⟩
  case channel =>
    intro ch s hd
    exact ⟨filterChange_B hd, filterChange_A hd, fun broken hw hm hb hn u => wireBreak_changes hd hw hm hb hn,
      outputShutdown_records hd, readbackFail_records hd, fun i l x => testPulse_passes hd⟩
  case supply =>
    intro g cond s hd x hx hcond hnext h2
    have hdue : ¬ (!dieUp s || decide (x.cond = cond.val) || decide (supplyNext x ≠ cond.val)) = true := by
      simp [hd, hcond, hnext]
    subst hx
    exact leaves_of_finish rfl ((if_neg hdue).trans (by simp only [if_neg h2]))

end Sys2Proof.Proofs
end

section
/-! SUPPORT. What Selvedge frames and the other events of the pair leave, one lemma per event and case (R323 to R345), and the settlement of
O57. -/

namespace Sys2Proof.Proofs

open Sys2Proof.Machine
open Sys2Proof.Safety

/-! ### Selvedge frames (R326 to R342) -/

/-- A good frame that reaches the die is heard, and has its effect on what it was heard in (R326). -/
theorem leaves_of_heard {i : Instr} {h : SelHeader} {f : State → State} {s u t : State} {o : Out} (hi : exec i s = o)
    (ho : o = heard h s f) (hd : dieUp s = true) (hc : h.crcOk = true) (hu : u = hear h s) (ht : f u = t) :
    Claims.Leaves i s t := by
  subst hu
  refine leaves_of_finish (hi.trans ho) ((if_pos ?_).trans ht)
  rw [hd, hc]
  rfl

section
variable {s : State}

/-! A resend writes the outbox alone (R328). -/

theorem resend_dev (n : Nat) : (resend n s).dev = s.dev := by
  unfold resend
  split <;> rfl

theorem resend_syncPaused (n : Nat) : (resend n s).pair.syncPaused = s.pair.syncPaused := by
  unfold resend
  split <;> rfl

theorem linkReturns_unpaused (h : s.pair.syncPaused = false) : linkReturns s = s := by
  unfold linkReturns
  rw [h]
  rfl

/-- A staging is lost with its standby in the PRIMARY alone. -/
theorem stageLost_of_not_primary (h : s.dev.role ≠ .primary) : stageLost s = s := by
  unfold stageLost
  split
  · exact if_neg (by simp [h])
  · rfl

theorem autoSync_of_not_primary (h : s.dev.role ≠ .primary) : autoSync s = s := if_neg (by simp [h])

theorem judgePair_solo (h : s.dev.role = .solo) (time : Nat) : judgePair time s = s := by
  simp only [judgePair, h, ite_self]

theorem partnerLost_solo (h : s.dev.role = .solo) (hp : s.pair.syncPhase = 0) : partnerLost s = s := by
  have hr : s.dev.role ≠ .primary := by rw [h]; decide
  simp only [partnerLost, if_neg hr, stageLost_of_not_primary hr, hp, decide_true, Bool.true_or, if_true]

theorem lineLost_of_not_standby (h : s.dev.role ≠ .standby) (time : Nat) : lineLost time s = s := if_neg (by simp [h])

end

section
variable {h : SelHeader} {s u : State} (hd : dieUp s = true) (hc : h.crcOk = true) (hu : u = hear h s)
include hd hc hu

/-- In SOLO a STATUS of the same link version brings the link up and notes the partner (R326 to R328). -/
theorem status_solo {role state flags low : Nat} (hr : u.dev.role = .solo) (hp : u.pair.syncPaused = false) :
    Claims.Leaves (.status h role state flags u.fw.linkMajor low) s (resend low (onPair (fun p =>
      { p with linkUp := true, partnerRole := some role, partnerState := state, partnerSideB := bitOf flags 0,
               partnerEligible := bitOf flags 1 && role == 2, partnerMajor := u.fw.linkMajor, resendFrom := low }) u)) := by
  refine leaves_of_heard (exec_status ..) rfl hd hc hu ?_
  simp only [ne_eq, not_true_eq_false, if_false]
  generalize hx : onPair (fun p =>
      { p with linkUp := true, partnerRole := some role, partnerState := state, partnerSideB := bitOf flags 0,
               partnerEligible := bitOf flags 1 && role == 2, partnerMajor := u.fw.linkMajor, resendFrom := low }) u = x
  have hxr : (resend low x).dev.role = .solo := by rw [resend_dev, ← hx]; exact hr
  have hxp : (resend low x).pair.syncPaused = false := by rw [resend_syncPaused, ← hx]; exact hp
  have hprimary : (resend low x).dev.role ≠ .primary := by rw [hxr]; decide
  simp [linkReturns_unpaused hxp, stageLost_of_not_primary hprimary, autoSync_of_not_primary hprimary, judgePair_solo hxr, hxr]

/-- A STATUS of another link version is noted and does nothing else (R327). -/
theorem status_foreign {role state flags major low : Nat} (hm : major ≠ u.fw.linkMajor) :
    Claims.Leaves (.status h role state flags major low) s (onPair (fun p => { p with partnerMajor := major }) u) :=
  leaves_of_heard (exec_status ..) rfl hd hc hu (if_pos hm)

end

/-! ### Deltas (R330, R333) -/

/-- The delta of a tick: its number, its records, and what its DELTA_END says of them. -/
abbrev Delta : Type := Nat × List DeltaRec × Option (Nat × Nat)

/-- The records of a delta that may be there. -/
theorem delta_records (o : Option Delta) : (o.map (·.2.1)).getD [] = ((o.map (·.2)).getD ([], none)).1 := by
  cases o <;> rfl

section
variable {n : Nat} {l before after : List Delta} {old : List DeltaRec} {e : Option (Nat × Nat)}

/-- The deltas hold nothing of tick n. -/
theorem deltas_filter_absent (h : ∀ d ∈ l, d.1 ≠ n) : l.filter (fun d => d.1 != n) = l :=
  List.filter_eq_self.mpr fun d hd => by simpa using h d hd

theorem deltas_find_absent (h : ∀ d ∈ l, d.1 ≠ n) : l.find? (fun d => d.1 == n) = none :=
  List.find?_eq_none.mpr fun d hd => by simpa using h d hd

theorem deltas_filter_present (h : ∀ d ∈ before ++ after, d.1 ≠ n) :
    (before ++ (n, old, e) :: after).filter (fun d => d.1 != n) = before ++ after := by
  have hb : ∀ d ∈ before, d.1 ≠ n := fun d hd => h d (List.mem_append_left _ hd)
  have ha : ∀ d ∈ after, d.1 ≠ n := fun d hd => h d (List.mem_append_right _ hd)
  rw [List.filter_append, List.filter_cons_of_neg (by simp), deltas_filter_absent hb, deltas_filter_absent ha]

theorem deltas_find_present (h : ∀ d ∈ before, d.1 ≠ n) :
    (before ++ (n, old, e) :: after).find? (fun d => d.1 == n) = some (n, old, e) := by
  rw [List.find?_append, deltas_find_absent h, Option.none_or, List.find?_cons_of_pos (by simp)]

end

section
variable {h : SelHeader} {s u : State} (hd : dieUp s = true) (hc : h.crcOk = true) (hu : u = hear h s) {n : Nat}
  (hn : n = fullTick u h.tick)
include hd hc hu hn

/-- DELTA and DELTA_END that come too late for the boundary of their tick do nothing (R328, R333). -/
theorem delta_late (hl : deltaLate u n = true) (r : List DeltaRec) :
    Claims.Leaves (.delta h r) s u ∧ ∀ records bytes, Claims.Leaves (.deltaEnd h records bytes) s u := by
  subst hn
  refine ⟨leaves_of_heard (exec_delta ..) rfl hd hc hu ?_, fun _ _ => leaves_of_heard (exec_deltaEnd ..) rfl hd hc hu ?_⟩
  · simp only [hl, if_true, ite_self]
  · simp only [hl, Bool.or_true, if_true]

variable (hr : u.dev.role = .standby ∨ u.dev.role = .syncing) (hl : deltaLate u n = false) {kept : List Delta}
  {old : List DeltaRec} {e : Option (Nat × Nat)} (hk : u.pair.deltas.filter (fun d => d.1 != n) = kept)
  (ho : ((u.pair.deltas.find? (fun d => d.1 == n)).map (·.2)).getD ([], none) = (old, e))
include hr hl hk ho

/-- The records of a DELTA join those of its tick, and a DELTA_END says how many there are (R333). -/
theorem delta_joins (r : List DeltaRec) :
    Claims.Leaves (.delta h r) s (onPair (fun p => { p with deltas := kept ++ [(n, old ++ r, e)] }) u) ∧
    ∀ records bytes, Claims.Leaves (.deltaEnd h records bytes) s
      (onPair (fun p => { p with deltas := kept ++ [(n, old, some (records, bytes))] }) u) := by
  subst hn hk
  have ho' : ((u.pair.deltas.find? (fun d => d.1 == fullTick u h.tick)).map (·.2.1)).getD [] = old := by
    rw [delta_records, ho]
  refine ⟨leaves_of_heard (exec_delta ..) rfl hd hc hu ?_, fun _ _ => leaves_of_heard (exec_deltaEnd ..) rfl hd hc hu ?_⟩
  · rw [if_neg (by rcases hr with hr | hr <;> simp [hr])]
    simp only [hl, Bool.false_eq_true, if_false, ho]
    rfl
  · simp only [ho']
    exact if_neg (by rcases hr with hr | hr <;> simp [hr, hl])

end

/-! ### The pair outside its link's frames (R323 to R345) -/

section
variable {s u : State}

/-- The partner's alive line goes to another level in SOLO, with no synchronisation in progress: it is noted (R323). -/
theorem peerAliveDecode_solo {v : Fin 3} {time : Nat} (hu : u = advance time s) (hd : dieUp u = true)
    (hl : u.pair.line ≠ v.val) (hr : u.dev.role = .solo) (hp : u.pair.syncPhase = 0) :
    Claims.Leaves (.peerAliveDecode v time) s (onPair (fun p => { p with line := v.val, lineAt := time }) u) := by
  have hnew : ¬ (!dieUp u || decide (u.pair.line = v.val)) = true := by simp [hd, hl]
  subst hu
  refine leaves_of_finish rfl ((if_neg hnew).trans ?_)
  generalize hx : onPair (fun p => { p with line := v.val, lineAt := time }) (advance time s) = x
  have hxr : x.dev.role = .solo := by rw [← hx]; exact hr
  have hxp : x.pair.syncPhase = 0 := by rw [← hx]; exact hp
  simp [partnerLost_solo hxr hxp, lineLost_of_not_standby, hxr]

/-- PAIR_FAULT_N is low with no dual fault of the module's own: it is noted, with its cause bit (R325). -/
theorem peerFault_low (hd : dieUp s = true) (h0 : s.scan.dualFault = 0) (hp : s.pair.peerFault = false) :
    Claims.Leaves (.peerFault true) s (setCause 4 (onPair (fun p => { p with peerFault := true }) s)) := by
  refine leaves_of_finish rfl ((if_neg (by simp [hd])).trans (if_pos ?_))
  rw [h0, hp]
  rfl

theorem peerFault_high (hd : dieUp s = true) :
    Claims.Leaves (.peerFault false) s (onPair (fun p => { p with peerFault := false }) s) :=
  leaves_of_finish rfl (if_neg (by simp [hd]))

/-- The link goes down: what the partner said of itself is over, and the pair is judged anew (R326, R339). -/
theorem selvedgeLinkDown_judges {time : Nat} (hu : u = advance time s) (hd : dieUp u = true) (hl : u.pair.linkUp = true) :
    Claims.Leaves (.selvedgeLinkDown time) s (judgePair time (stageLost (onPair (fun p =>
      { p with linkUp := false, partnerLimit := none, partnerEligible := false, linkLosses := min 255 (p.linkLosses + 1),
               syncPaused := p.syncPhase != 0, pausedAt := u.dev.now }) u))) := by
  have hdown : ¬ (!dieUp u || !u.pair.linkUp) = true := by simp [hd, hl]
  subst hu
  refine leaves_of_finish rfl ((if_neg hdown).trans ?_)
  simp only [satTo_eq_min]

/-- Mastership passes from the module that is now STANDBY: its cycles end and its outputs are de-energised (R343). -/
theorem mastershipPass_standby {p : Nat} (hp : s.pair.handoverAt = some p) (ht : p ≤ s.dev.tick) (hr : s.dev.role = .standby) :
    exec .mastershipPass s = finish s (deenergise (onNet (fun n => { n with cycling := false })
      (onPair (fun x => { x with master := false }) (onPair (fun x => { x with handoverAt := none }) s)))) := by
  simp only [exec_mastershipPass, execMastershipPass, hp, if_pos ht, if_pos hr]

/-- The PRIMARY closes its delta with the mark and becomes STANDBY (R343). -/
theorem handover_gives {time : Nat} (hu : u = advance time s) (hd : u.pair.handoverDue = true) (hr : u.dev.role = .primary) :
    Claims.Leaves (.handover time) s (handOver u) := by
  subst hu
  exact leaves_of_finish rfl (if_pos (by rw [hd, hr]; rfl))

/-- The STANDBY takes primacy with the marked delta (R343). -/
theorem handover_takes {time : Nat} {d : Delta} (hu : u = advance time s) (hr : u.dev.role = .standby)
    (hat : u.pair.handoverAt = none) (hm : markedDelta u = some d) : Claims.Leaves (.handover time) s (takeHandover d u) := by
  have hnot : ¬ (u.pair.handoverDue && u.dev.role == .primary) = true := by simp [hr]
  have htakes : (u.dev.role == .standby && u.pair.handoverAt.isNone) = true := by rw [hr, hat]; rfl
  subst hu
  exact leaves_of_finish rfl ((if_neg hnot).trans ((if_pos htakes).trans (by rw [hm])))

end

/-- Settles O57: each frame that is heard has the effect of its type, and each other event its effect, by the lemma of its case. A LEAVE
and a takeover follow log entry 44. -/
theorem pairEventsRun : Obligations.PairEventsRun := by
  unfold Obligations.PairEventsRun
  refine ⟨fun h s u hd hc hu => ⟨?foreign, ?status, ?tick, ?delta, ?relayDown, ?relayUp, ?offer, ?image, ?ack, ?joined, ?leave⟩,
    ?takeover, ?yield, ?handover, ?pass, ?linkDown, ?lanes, ?alive, ?fault, ?syncing, ?syncLink⟩
  case foreign => exact fun role state flags major low => status_foreign hd hc hu
  case status => exact fun role state flags low => status_solo hd hc hu
  case tick => exact fun serial major minor applied kib ns missed => leaves_of_heard (exec_tickStatus ..) rfl hd hc hu rfl
  case delta =>
    intro r n hr hn
    refine ⟨fun hl => delta_late hd hc hu hn hl r, fun hl hno => ?_, fun before after old e hl hds hno => ?_⟩
    · exact delta_joins hd hc hu hn hr hl (deltas_filter_absent hno) (by rw [deltas_find_absent hno]) r
    · have hbefore : ∀ d ∈ before, d.1 ≠ n := fun d hm => hno d (List.mem_append_left _ hm)
      exact delta_joins hd hc hu hn hr hl (by rw [hds, deltas_filter_present hno])
        (by rw [hds, deltas_find_present hbefore]; rfl) r
  case relayDown =>
    intro port f hno
    exact leaves_of_heard (exec_relayDown ..) rfl hd hc hu (if_pos (by rcases hno with hno | hno <;> simp [hno]))
  case relayUp => exact fun port f hp => leaves_of_heard (exec_relayUp ..) rfl hd hc hu (if_pos hp)
  case offer => exact fun side serial major => leaves_of_heard (exec_bulk ..) rfl hd hc hu rfl
  case image => exact fun cur slot gen bytes hr => leaves_of_heard (exec_bulk ..) rfl hd hc hu (if_pos hr)
  case ack => exact fun phase kib => leaves_of_heard (exec_bulkAck ..) rfl hd hc hu rfl
  case joined => exact fun n => leaves_of_heard (exec_bulkAck ..) rfl hd hc hu rfl
  case leave => exact fun holdFrom time => leaves_of_heard (exec_notice ..) rfl hd hc hu rfl
  case takeover =>
    intro time t0 x s u hu hdue ht hr
    have hnow : (decide (t0 ≤ u.dev.tick) && u.dev.role == .standby) = true := by simp [ht, hr]
    subst hu
    refine leaves_of_finish rfl ?_
    simp only [hdue]
    exact if_pos hnow
  case yield =>
    rintro time s u rfl hdue
    exact leaves_of_finish rfl (if_pos hdue)
  case handover => exact fun time s u hu => ⟨handover_gives hu, fun d => handover_takes hu⟩
  case pass =>
    intro p s hp ht hr
    exact ⟨_, mastershipPass_standby hp ht hr, rfl, rfl, rfl, rfl⟩
  case linkDown => exact fun time s u => selvedgeLinkDown_judges
  case lanes => exact fun lane s hd => ⟨leaves_of_finish rfl (if_pos hd), leaves_of_finish rfl (if_pos hd)⟩
  case alive => exact fun v time s u => peerAliveDecode_solo
  case fault => exact fun s hd => ⟨peerFault_low hd, peerFault_high hd⟩
  case syncing => exact fun s hr hl => leaves_of_finish rfl (if_pos ⟨hr, hl⟩)
  case syncLink => exact fun s hp h0 => leaves_of_finish rfl (if_pos (by simp [hp, h0]))

end Sys2Proof.Proofs
end

section
/-! SUPPORT. A meaning ends with `finish`, which leaves the queue of waiting commands as it finds it; the settlements of O2 and O4. -/

namespace Sys2Proof.Proofs

open Sys2Proof.Machine
open Sys2Proof.Safety

/-- Every command ends with `finish` on the state that it is given. -/
theorem exec_finishes (i : Instr) (s : State) : ∃ t, exec i s = finish s t := by
  cases i
  case extest enter => cases enter <;> exact ⟨_, rfl⟩
  case energyIntervalEnd rails mv time =>
    rw [exec_energyIntervalEnd, execEnergyIntervalEnd]
    split <;> exact ⟨_, rfl⟩
  all_goals exact ⟨_, rfl⟩

/-- A step leaves the waiting commands behind the one that it takes. -/
theorem step_takesFront (s : State) : ∃ t, step s = .next t ∧ t.pending = s.pending.tail := by
  unfold step
  split
  next h => exact ⟨_, rfl, by simp [h]⟩
  next c rest h =>
    obtain ⟨t, ht⟩ := exec_finishes c { s with pending := rest }
    exact ⟨_, ht.trans (finish_eq _ t), by simp [h]⟩

/-- Settles O2: a step takes the queue's tail, and what holds of every waiting command holds of the tail. -/
theorem everyStepConsumesOneCommand : Obligations.EveryStepConsumesOneCommand := by
  unfold Obligations.EveryStepConsumesOneCommand
  refine ⟨step_takesFront, fun s t hq hs => ?_⟩
  obtain ⟨u, hu, htail⟩ := step_takesFront s
  obtain rfl : u = t := Host.Outcome.next.inj (hu.symm.trans hs)
  rw [htail, List.all_eq_true] at *
  exact fun c hc => hq c (List.mem_of_mem_tail hc)

/-! ### Reset -/

theorem nth_replicate {β : Type} (d x : β) {m n : Nat} (h : n < m) : nth d (List.replicate m x) n = x := by
  simp [nth, h]

/-- Settles O4: the values of `State.reset`, those of the tables by what each of their entries is. -/
theorem resetStateHoldsSpecValues : Obligations.ResetStateHoldsSpecValues := by
  unfold Obligations.ResetStateHoldsSpecValues
  refine ⟨rfl, rfl, rfl, fun n hn => ?rings, rfl, rfl, fun n hn => ?tasks, fun k hk => nth_replicate _ _ hk, rfl, rfl, rfl, rfl, rfl,
    rfl, rfl, rfl, rfl, rfl, rfl⟩
  case rings =>
    have hcq : getCq State.reset n = CqRing.reset := nth_replicate _ _ hn
    have hkq : getKq State.reset n = KqRing.reset := nth_replicate _ _ hn
    rw [hcq, hkq]
    exact ⟨rfl, rfl, rfl, rfl⟩
  case tasks => exact congrArg Task.st (nth_replicate _ _ hn)

/-- Settles O6: the tables of reset by their lengths, its memories by `reset_memoriesWf`. -/
theorem resetHasTablesAndMemories : Obligations.ResetHasTablesAndMemories := by
  unfold Obligations.ResetHasTablesAndMemories
  obtain ⟨himg, hmem⟩ := reset_memoriesWf
  exact ⟨by simp [shapes, State.reset, HostIf.reset, Scan.reset, Net.reset, FieldIo.reset], by simp [memories, himg, hmem]⟩

end Sys2Proof.Proofs
end

section
/-! SUPPORT. How the checks of R45 end, one lemma per refusal (R35, R37, R53, R54, R463), and the settlements of O8, O9 and O10. -/

namespace Sys2Proof.Proofs

open Sys2Proof.Machine
open Sys2Proof.Safety

section
variable {c : Cmd} {r : Request} {s : State}

theorem judgeEarly_of_badStructure (h : structureOk c r s = false) : judgeEarly c r s = some { status := stBadParam } := by
  simp only [judgeEarly, h, Bool.not_false, if_true]

theorem judgeEarly_of_badState (h1 : structureOk c r s = true) (h : stateOk c r s = false) :
    judgeEarly c r s = some { status := stState, result := stateRole s } := by
  simp only [judgeEarly, h1, h, Bool.not_true, Bool.not_false, Bool.false_eq_true, if_false, if_true]

theorem judgeEarly_of_badRole (h1 : structureOk c r s = true) (h2 : stateOk c r s = true)
    (h : legalRole c.op s.dev.role = false) : judgeEarly c r s = some { status := stRole, result := stateRole s } := by
  simp only [judgeEarly, h1, h2, h, Bool.not_true, Bool.not_false, Bool.false_eq_true, if_false, if_true]

/-- The nonce is used when the last checks judge a command that needs a token. -/
theorem judged_of_authNeeded (hu : urgentPath r.origin = false) (hn : authNeeded c r (advance r.time s) = true) :
    judged c r s = useNonce (advance r.time s) := by
  simp only [judged, hu, hn, Bool.not_false, Bool.and_self, if_true]

@[simp] theorem reserve_sec (o : Origin) (s : State) : (reserve o s).sec = s.sec := by
  unfold reserve
  split
  · split <;> rfl
  · rfl

/-- Past the early checks, off the urgent path, a command that needs a token is judged by it. -/
theorem runChecks_of_authNeeded (hu : urgentPath r.origin = false) (hj : judgeEarly c r s = none)
    (hn : authNeeded c r s = true) :
    runChecks c r s =
      if !hasAuth r then ({ status := stAuthRequired }, s)
      else if tokenFails s c.op r.params r.auth (if byPointer r then some r.payload else none) then
        ({ status := stAuthFailed }, recordAuthFailed (byteAt r.auth 0) c.op s)
      else runLate c r (useNonce s) := by
  simp only [runChecks, hj, hu, hn, if_true, Bool.false_eq_true, if_false]

/-- A request that carries a token is authorized by one that verifies. -/
theorem authorized_of_hasAuth (hn : authNeeded c r s = true) (ha : hasAuth r = true) :
    authorized c r s = !tokenFails s c.op r.params r.auth (if byPointer r then some r.payload else none) := by
  simp only [authorized, hn, ha, Bool.not_true, Bool.false_or, Bool.true_and]

/-- A request without the token that it needs is not authorized. -/
theorem hasAuth_of_authorized (hn : authNeeded c r s = true) (ha : authorized c r s = true) : hasAuth r = true := by
  simp only [authorized, hn, Bool.not_true, Bool.false_or, Bool.and_eq_true] at ha
  exact ha.1

/-- A token that verifies leads to the last checks, with the nonce used. -/
theorem runChecks_of_authorized (hu : urgentPath r.origin = false) (hj : judgeEarly c r s = none)
    (hn : authNeeded c r s = true) (ha : authorized c r s = true) : runChecks c r s = runLate c r (useNonce s) := by
  have hh := hasAuth_of_authorized hn ha
  rw [authorized_of_hasAuth hn hh, Bool.not_eq_true'] at ha
  simp only [runChecks_of_authNeeded hu hj hn, hh, ha, Bool.not_true, Bool.false_eq_true, if_false]

/-- On the urgent path a command is judged by steps 2 to 5 alone. -/
theorem runChecks_of_urgent (hu : urgentPath r.origin = true) (hj : judgeEarly c r s = none) :
    runChecks c r s = c.effect r s := by
  simp only [runChecks, hj, hu, if_true]

/-- MGMT_UART is no urgent path. -/
theorem origin_ne_uart (hu : urgentPath r.origin = true) : (r.origin == .uart) = false := by
  cases h : r.origin <;> simp_all [urgentPath]

end

/-- Settles O8: each check of `judgeEarly` in its order, by the answer that `serve` gives to it. -/
theorem checksRefuseInOrder : Obligations.ChecksRefuseInOrder := by
  unfold Obligations.ChecksRefuseInOrder
  intro c r s hp
  refine ⟨fun h => ?_, fun h1 h => ?_, fun h1 h2 h => ?_, fun a h1 h2 h3 h => ?_⟩
  · exact serve_of_plainly_refused c r s _ hp (judgeEarly_of_badStructure h) (by decide)
  · exact serve_of_plainly_refused c r s _ hp (judgeEarly_of_badState h1 h) (show stState ≠ stAuthFailed by decide)
  · exact serve_of_plainly_refused c r s _ hp (judgeEarly_of_badRole h1 h2 h) (show stRole ≠ stAuthFailed by decide)
  · exact serve_of_refused c r s a hp ((judgeEarly_eq_range h1 h2 h3).trans h)

/-- Settles O9: authorization as `runChecks` judges it, and the nonce that `useNonce` uses up. -/
theorem authorizationUsesNonceOnce : Obligations.AuthorizationUsesNonceOnce := by
  unfold Obligations.AuthorizationUsesNonceOnce
  intro c r s hu hp hj hn
  have hjudged := judged_of_authNeeded hu hn
  have hnonce : (judged c r s).sec.nonce = none := by rw [hjudged]; rfl
  refine ⟨fun h => ?required, fun h ha => ?failed, fun a ha hl => ?late, fun ha hl => ?runs, hnonce, ?begins⟩
  case required =>
    rw [serve_eq_runChecks hp, runChecks_of_authNeeded hu hj hn, h]
    rfl
  case failed =>
    rw [authorized_of_hasAuth hn h, Bool.not_eq_false'] at ha
    simp only [serve_eq_runChecks hp, runChecks_of_authNeeded hu hj hn, h, ha, Bool.not_true, Bool.false_eq_true, if_false, if_true]
  case late =>
    rw [serve_eq_runChecks hp, runChecks_of_authorized hu hj hn ha, ← hjudged, runLate, hl]
  case runs =>
    have hbegins : begins c r s = reserve r.origin (judged c r s) := by
      simp only [Safety.begins, hu, Bool.false_eq_true, if_false]
    rw [serve_eq_runChecks hp, runChecks_of_authorized hu hj hn ha, ← hjudged, runLate, hl, hbegins]
  case begins =>
    simp only [Safety.begins, hu, Bool.false_eq_true, if_false, reserve_sec, hnonce]

/-- Settles O10: an opcode outside the five is refused by the path, and one of the five is judged by steps 2 to 5. -/
theorem urgentPathServesFiveOpcodes : Obligations.UrgentPathServesFiveOpcodes := by
  unfold Obligations.UrgentPathServesFiveOpcodes
  intro c r s hu hs hw
  have hw' : (advance r.time s).chg.window = none := hw
  constructor
  · intro ho
    simp only [serve, hu, hs, hw', ho, Option.isSome_none, Bool.not_true, Bool.not_false, Bool.false_and, Bool.or_self, Bool.and_self,
      Bool.false_eq_true, if_false, if_true]
  · intro ho hj
    have hp : pathTakes c r (advance r.time s) = true := by
      simp only [pathTakes, hs, hw', ho, bne, origin_ne_uart hu, Option.isNone_none, Bool.true_or, Bool.or_true, Bool.not_false,
        Bool.and_self]
    rw [serve_eq_runChecks hp, runChecks_of_urgent hu hj]

end Sys2Proof.Proofs
end

section
/-! SUPPORT. The completion of an answer in its completion ring (R28, R38 to R40), the effects of the core commands, and the
settlements of O11, O12 and O23. -/

namespace Sys2Proof.Proofs

open Sys2Proof.Machine
open Sys2Proof.Safety

/-! ### Completions -/

/-- A ring as it stands after a completion at its tail, in local time now (R39). -/
def pushed (c : Completion) (now : Nat) (q : KqRing) : KqRing :=
  { q with
    mem := insertAt q.mem q.tail (q.phase, c)
    written := insertAt q.written q.tail now
    tail := (q.tail + 1) % q.size
    phase := if (q.tail + 1) % q.size = 0 then !q.phase else q.phase }

section
variable {s : State}

@[simp] theorem raiseVector_host (v : Nat) (s : State) : (raiseVector v s).host = s.host := by
  obtain ⟨f, hf⟩ := raiseVector_eq_onRegs s v
  rw [hf, onRegs_host]

theorem getKq_congr {s t : State} (h : t.host = s.host) (k : Nat) : getKq t k = getKq s k := by
  unfold getKq
  rw [h]

/-- The check of a ring's thresholds at most disarms it (R42). -/
theorem getKq_kqCheck {k : Nat} (h : k < s.host.kq.length) :
    getKq (kqCheck k s) k = getKq s k ∨ getKq (kqCheck k s) k = { getKq s k with armed := false } := by
  unfold kqCheck
  dsimp only
  split
  · exact .inr ((getKq_congr (raiseVector_host _ _) k).trans (getKq_onKq_same _ h))
  · exact .inl rfl

theorem reserved_kqCheck (k : Nat) (s : State) : (kqCheck k s).host.reserved = s.host.reserved := by
  unfold kqCheck
  dsimp only
  split
  · rw [raiseVector_host]; rfl
  · rfl

/-- A completion is written at tail, and at most disarms its ring. -/
theorem getKq_kqWrite {k : Nat} (c : Completion) (h : k < s.host.kq.length) :
    getKq (kqWrite k c s) k = pushed c s.dev.now (getKq s k) ∨
      getKq (kqWrite k c s) k = { pushed c s.dev.now (getKq s k) with armed := false } := by
  have hlen : k < (onKq k (pushed c s.dev.now) s).host.kq.length := by simpa [onKq, modifyNth] using h
  have hring : getKq (onKq k (pushed c s.dev.now) s) k = pushed c s.dev.now (getKq s k) := getKq_onKq_same _ h
  have hcheck := getKq_kqCheck hlen
  rw [hring] at hcheck
  exact hcheck

/-- With room, the completion takes the reserved entry. -/
theorem completeN_room {n : Nat} (c : Completion) (h : (getKq s (getCq s n).kq).room = true) :
    completeN n c s = kqWrite (getCq s n).kq c (onHost (fun h => { h with reserved := none }) s) :=
  if_pos h

/-- Without room, the completion is held. -/
theorem completeN_noRoom {n : Nat} (c : Completion) (h : (getKq s (getCq s n).kq).room = false) :
    completeN n c s = onHost (fun h => { h with heldImmediate := h.heldImmediate ++ [(n, (getCq s n).kq, c)] })
      (onHost (fun h => { h with reserved := none }) s) :=
  if_neg (by rw [Bool.not_eq_true]; exact h)

end

/-- Settles O11: a completion is written at tail where there is room, and joins the held ones where there is none. -/
theorem answerWritesOneCompletion : Obligations.AnswerWritesOneCompletion := by
  unfold Obligations.AnswerWritesOneCompletion
  intro n c s _ hkq _ hk
  refine ⟨fun hroom => ?room, fun hroom => ?held, ?reserved⟩
  case room =>
    have hlen : (getCq s n).kq < s.host.kq.length := hkq ▸ hk
    have hentry : ∀ q : KqRing, look (pushed c s.dev.now q).mem q.tail = some (q.phase, c) ∧
        ∀ j, j ≠ q.tail → look (pushed c s.dev.now q).mem j = look q.mem j :=
      fun q => ⟨(look_insertAt ..).trans (if_pos rfl), fun j hj => (look_insertAt ..).trans (if_neg hj)⟩
    obtain ⟨hsame, hother⟩ := hentry (getKq s (getCq s n).kq)
    intro k q q'
    have hq' : q' = pushed c s.dev.now q ∨ q' = { pushed c s.dev.now q with armed := false } := by
      have hring := getKq_kqWrite (s := onHost (fun h => { h with reserved := none }) s) c hlen
      rwa [← completeN_room c hroom] at hring
    rcases hq' with hq' | hq' <;> rw [hq'] <;> exact ⟨hsame, rfl, rfl, rfl, hother⟩
  case held =>
    rw [completeN_noRoom c hroom]
    exact ⟨rfl, rfl⟩
  case reserved =>
    cases hroom : (getKq s (getCq s n).kq).room with
    | true => rw [completeN_room c hroom, kqWrite, reserved_kqCheck]; rfl
    | false => rw [completeN_noRoom c hroom]; rfl

/-! ### The core commands -/

/-- Settles O12: each core command serves its request, and its effect is the one stated. -/
theorem coreCommandsRun : Obligations.CoreCommandsRun := by
  unfold Obligations.CoreCommandsRun
  intro r
  refine ⟨?echo, ?info, ?state, ?query, ?release, ?cancel, ?reset⟩ <;>
    exact runs_of_serve (fun _ => rfl) rfl

/-- Judging a command touches no handle. -/
theorem findOp_begins (c : Cmd) (r : Request) (s : State) (v : Nat) : findOp (begins c r s) v = findOp (advance r.time s) v := by
  have hreserve : ∀ t, findOp (reserve r.origin t) v = findOp t v := by
    intro t
    unfold reserve
    split
    · split <;> rfl
    · rfl
  unfold Safety.begins judged
  split
  · rfl
  · rw [hreserve]
    split <;> rfl

/-- Settles O23: the effect of HANDLE_RELEASE in its two cases. -/
theorem handleReleaseFreesDoneHandle : Obligations.HandleReleaseFreesDoneHandle := by
  unfold Obligations.HandleReleaseFreesDoneHandle
  intro r s o ha ho
  obtain ⟨-, -, -, -, hrun, -⟩ := coreCommandsRun r
  have hx := hrun s ha
  simp only [findOp_begins, ho] at hx
  refine ⟨fun hd => ⟨_, ?done, ?freed, rfl⟩, fun hp => ?pending⟩
  case done => exact hx.trans (by simp only [hd, if_true] <;> rfl)
  case freed => exact List.mem_append_right _ (List.mem_singleton_self _)
  case pending => exact hx.trans (by simp only [hp, Bool.false_eq_true, if_false])

end Sys2Proof.Proofs
end

section
/-! SUPPORT. The invariant of O5 as one predicate, and what keeps it: an update of one part of the state that leaves the tables'
lengths and the sparse memories in form, a choice, a fold. In this section and those below each function f of the state has one
lemma `Formed.f`: it makes a state in form of a state in form. A lemma's proof follows its function's composition, so that
`h.g.f` proves `Formed (f (g s))`. -/

namespace Sys2Proof.Proofs

open Sys2Proof.Machine
open Sys2Proof.Safety

/-- The fixed tables have their sizes, and the sparse memories are in canonical form. -/
structure Formed (s : State) : Prop where
  cq : s.host.cq.length = 64
  kq : s.host.kq.length = 64
  tasks : s.scan.tasks.length = 64
  engines : s.scan.engines.length = 16
  pairs : s.scan.pairs.length = 8
  ports : s.net.ports.length = 4
  ch : s.fio.ch.length = 32
  live : sparseWf TWord.empty s.img.live = true
  data : sparseWf TWord.empty s.mem.data = true
  legacy : sparseWf 0 s.mem.legacy = true

theorem formed_iff (s : State) : Formed s ↔ shapes s = true ∧ memories s = true := by
  simp only [shapes, memories, Image.wf, Memory.wf, Bool.and_eq_true, beq_iff_eq]
  constructor
  · intro h
    exact ⟨⟨⟨⟨⟨⟨⟨h.cq, h.kq⟩, h.tasks⟩, h.engines⟩, h.pairs⟩, h.ports⟩, h.ch⟩, h.live, h.data, h.legacy⟩
  · rintro ⟨⟨⟨⟨⟨⟨⟨hcq, hkq⟩, htasks⟩, hengines⟩, hpairs⟩, hports⟩, hch⟩, hlive, hdata, hlegacy⟩
    exact ⟨hcq, hkq, htasks, hengines, hpairs, hports, hch, hlive, hdata, hlegacy⟩

/-- A fold of writes keeps the canonical form. -/
theorem sparseWf_foldl {α β : Type} [DecidableEq β] {d : β} {f : List (Nat × β) → α → List (Nat × β)} {l : List α}
    {m : List (Nat × β)} (hf : ∀ m a, sparseWf d m = true → sparseWf d (f m a) = true) (h : sparseWf d m = true) :
    sparseWf d (l.foldl f m) = true := by
  induction l generalizing m with
  | nil => exact h
  | cons a r ih => exact ih (hf m a h)

namespace Formed

variable {s t : State}

/-! ### Updates of one part -/

theorem onDev {f} (h : Formed s) : Formed (onDev f s) := { h with }
theorem onChg {f} (h : Formed s) : Formed (onChg f s) := { h with }
theorem onPair {f} (h : Formed s) : Formed (onPair f s) := { h with }
theorem onEnergy {f} (h : Formed s) : Formed (onEnergy f s) := { h with }
theorem onCal {f} (h : Formed s) : Formed (onCal f s) := { h with }
theorem onInteg {f} (h : Formed s) : Formed (onInteg f s) := { h with }
theorem onWdg {f} (h : Formed s) : Formed (onWdg f s) := { h with }
theorem onLog {f} (h : Formed s) : Formed (onLog f s) := { h with }
theorem onSec {f} (h : Formed s) : Formed (onSec f s) := { h with }
theorem onFw {f} (h : Formed s) : Formed (onFw f s) := { h with }
theorem onRegs {f} (h : Formed s) : Formed (onRegs f s) := { h with }

theorem onHost {f : HostIf → HostIf} (h : Formed s)
    (hf : ∀ x, (f x).cq.length = x.cq.length ∧ (f x).kq.length = x.kq.length) : Formed (onHost f s) :=
  { h with cq := (hf _).1.trans h.cq, kq := (hf _).2.trans h.kq }

theorem onScan {f : Scan → Scan} (h : Formed s) (hf : ∀ x, (f x).tasks.length = x.tasks.length ∧
    (f x).engines.length = x.engines.length ∧ (f x).pairs.length = x.pairs.length) : Formed (onScan f s) :=
  { h with tasks := (hf _).1.trans h.tasks, engines := (hf _).2.1.trans h.engines, pairs := (hf _).2.2.trans h.pairs }

theorem onNet {f : Net → Net} (h : Formed s) (hf : ∀ x, (f x).ports.length = x.ports.length) : Formed (onNet f s) :=
  { h with ports := (hf _).trans h.ports }

theorem onFio {f : FieldIo → FieldIo} (h : Formed s) (hf : ∀ x, (f x).ch.length = x.ch.length) : Formed (onFio f s) :=
  { h with ch := (hf _).trans h.ch }

theorem onImg {f : Image → Image} (h : Formed s)
    (hf : ∀ x, sparseWf TWord.empty x.live = true → sparseWf TWord.empty (f x).live = true) : Formed (onImg f s) :=
  { h with live := hf _ h.live }

theorem onMem {f : Memory → Memory} (h : Formed s)
    (hd : ∀ x, sparseWf TWord.empty x.data = true → sparseWf TWord.empty (f x).data = true)
    (hl : ∀ x, sparseWf 0 x.legacy = true → sparseWf 0 (f x).legacy = true) : Formed (onMem f s) :=
  { h with data := hd _ h.data, legacy := hl _ h.legacy }

theorem onCq {n f} (h : Formed s) : Formed (onCq n f s) := h.onHost fun _ => ⟨List.length_modify .., rfl⟩
theorem onKq {n f} (h : Formed s) : Formed (onKq n f s) := h.onHost fun _ => ⟨rfl, List.length_modify ..⟩
theorem onEng {n f} (h : Formed s) : Formed (onEng n f s) := h.onScan fun _ => ⟨rfl, List.length_modify .., rfl⟩
theorem onAct {n f} (h : Formed s) : Formed (onAct n f s) := h.onScan fun _ => ⟨List.length_modify .., rfl, rfl⟩
theorem onPort {n f} (h : Formed s) : Formed (onPort n f s) := h.onNet fun _ => List.length_modify ..
theorem onCh {n f} (h : Formed s) : Formed (onCh n f s) := h.onFio fun _ => List.length_modify ..

theorem draw {w} (h : Formed s) : Formed (draw w s).2 := { h with }

/-! ### Choices and folds -/

theorem ite {c : Prop} [Decidable c] (hs : Formed s) (ht : Formed t) : Formed (if c then s else t) := by
  split
  · exact hs
  · exact ht

theorem snd {α : Type} {a : α} (h : Formed s) : Formed (a, s).2 := h

theorem ite_snd {α : Type} {p q : α × State} {c : Prop} [Decidable c] (hp : Formed p.2) (hq : Formed q.2) :
    Formed (if c then p else q).2 := by
  split
  · exact hp
  · exact hq

theorem whenB {c f} (h : Formed s) (hf : ∀ {t}, Formed t → Formed (f t)) : Formed (whenB c f s) := (hf h).ite h

theorem foldl {α : Type} {f : State → α → State} {l : List α} (h : Formed s) (hf : ∀ {t a}, Formed t → Formed (f t a)) :
    Formed (l.foldl f s) := by
  induction l generalizing s with
  | nil => exact h
  | cons a r ih => exact ih (hf h)

theorem foldl_snd {α β : Type} {f : β × State → α → β × State} {l : List α} {p : β × State} (h : Formed p.2)
    (hf : ∀ {p a}, Formed p.2 → Formed (f p a).2) : Formed (l.foldl f p).2 := by
  induction l generalizing p with
  | nil => exact h
  | cons a r ih => exact ih (hf h)

end Formed

end Sys2Proof.Proofs
end

section
/-! SUPPORT. The state's operations that the chapters share keep the form. -/

namespace Sys2Proof.Proofs

open Sys2Proof.Machine
open Sys2Proof.Safety

namespace Formed

variable {s t : State}

/-! ### The device, records, rings and long operations -/

theorem advance {tt} (h : Formed s) : Formed (advance tt s) := h.onDev
theorem raiseVector {v} (h : Formed s) : Formed (raiseVector v s) := h.onRegs.ite h.onRegs

theorem raiseDevice (h : Formed s) : Formed (raiseDevice s) := by
  unfold Machine.raiseDevice
  refine h.ite ?_
  split
  · exact h.ite h.onRegs.raiseVector
  · exact h.onRegs.raiseVector

theorem setCause {n} (h : Formed s) : Formed (setCause n s) := h.onRegs.raiseDevice.ite h.onRegs
theorem capture {fw code data} (h : Formed s) : Formed (capture fw code data s) := h.onLog.ite h.onLog.setCause
theorem logHw {code data} (h : Formed s) : Formed (logHw code data s) := h.capture
theorem logFw {code data} (h : Formed s) : Formed (logFw code data s) := h.capture

theorem recordState {old} (h : Formed s) : Formed (recordState old s) := by
  unfold Machine.recordState
  dsimp only
  exact h.draw.setCause.logHw.ite h.draw.setCause

theorem leaveExtest {st} (h : Formed s) : Formed (leaveExtest st s) := (h.onSec.onNet (by simp)).ite h
theorem dropExtest {st} (h : Formed s) : Formed (dropExtest st s) := h.ite h.leaveExtest
theorem opsEnter {st} (h : Formed s) : Formed (opsEnter st s) := h.onHost (by simp)
theorem enter {st} (h : Formed s) : Formed (enter st s) := h.ite h.dropExtest.opsEnter.onDev.recordState
theorem takeRole {r} (h : Formed s) : Formed (takeRole r s) := h.ite h.onDev.recordState
theorem enterOrReturn {st} (h : Formed s) : Formed (enterOrReturn st s) := h.onDev.ite h.enter
theorem kqCheck {k} (h : Formed s) : Formed (kqCheck k s) := h.onKq.raiseVector.ite h
theorem kqWrite {k c} (h : Formed s) : Formed (kqWrite k c s) := h.onKq.kqCheck

theorem flushFinals {k l} (h : Formed s) : Formed (flushFinals k l s) := by
  induction l generalizing s with
  | nil => exact h
  | cons e r ih => exact (ih (h.onHost (by simp)).kqWrite).ite (ih h)

theorem flushHeld0 {k l} (h : Formed s) : Formed (flushHeld0 k l s) := by
  induction l generalizing s with
  | nil => exact h
  | cons e r ih => exact (ih (h.onHost (by simp)).kqWrite).ite (ih h)

theorem flushImmediate {k l} (h : Formed s) : Formed (flushImmediate k l s) := by
  induction l generalizing s with
  | nil => exact h
  | cons e r ih => exact (ih (h.onHost (by simp)).kqWrite).ite (ih h)

theorem flushKq {k} (h : Formed s) : Formed (flushKq k s) := h.flushImmediate.flushHeld0.flushFinals
theorem complete0 {c} (h : Formed s) : Formed (complete0 c s) := h.kqWrite.ite ((h.onHost (by simp)).ite h.onCq)

theorem reserve {o} (h : Formed s) : Formed (reserve o s) := by
  unfold Machine.reserve
  split
  · exact h.ite (h.onHost (by simp))
  · exact h

theorem completeN {n c} (h : Formed s) : Formed (completeN n c s) :=
  (h.onHost (by simp)).kqWrite.ite ((h.onHost (by simp)).onHost (by simp))

theorem answer {r a} (h : Formed s) : Formed (answer r a s) := by
  unfold Machine.answer
  split
  · exact h.complete0.ite h.completeN
  · exact h.onHost (by simp)
  · exact (h.onHost (by simp)).onFw
  · exact h
  · exact h

theorem allocHandle {o} (h : Formed s) : Formed (allocHandle o s).2 := by
  unfold Machine.allocHandle
  exact snd (h.onHost (by simp))

theorem onOp {i f} (h : Formed s) : Formed (onOp i f s) := by
  unfold Machine.onOp
  split
  · exact h
  · exact h.onHost (by simp)

theorem postFinal {i o status result} (h : Formed s) : Formed (postFinal i o status result s) := by
  unfold Machine.postFinal
  split
  · exact h.kqWrite.ite (h.onHost (by simp))
  · exact h.onHost (by simp)
  · exact h

theorem endOp {i status result} (h : Formed s) : Formed (endOp i status result s) := by
  unfold Machine.endOp
  split
  · exact h
  · exact h.ite h.onOp.postFinal

theorem mirror {d} (h : Formed s) : Formed (mirror d s) := h.onPair.ite h
theorem sendSel {b} (h : Formed s) : Formed (sendSel b s) := h.onPair
theorem holdTimebase (h : Formed s) : Formed (holdTimebase s) := h.onNet fun n => by split <;> rfl
theorem pauseCore (h : Formed s) : Formed (pauseCore s) := h.onFw.holdTimebase

/-! ### Nonces and grants -/

theorem issueNonce {v} (h : Formed s) : Formed (issueNonce v s) := h.onSec
theorem useNonce (h : Formed s) : Formed (useNonce s) := h.onSec
theorem recordAuthFailed {slot op} (h : Formed s) : Formed (recordAuthFailed slot op s) := h.logHw
theorem debugRelease (h : Formed s) : Formed (debugRelease s) := (h.onScan (by simp)).onSec
theorem endGrant (h : Formed s) : Formed (endGrant s) := h.onSec.debugRelease.ite h

/-! ### The checks of a host command -/

theorem runLate {c r} (h : Formed s) (hc : ∀ {r t}, Formed t → Formed (c.effect r t).2) : Formed (runLate c r s).2 := by
  unfold Machine.runLate
  split
  · exact h
  · exact hc h.reserve

theorem runChecks {c r} (h : Formed s) (hc : ∀ {r t}, Formed t → Formed (c.effect r t).2) : Formed (runChecks c r s).2 := by
  unfold Machine.runChecks
  split
  · exact h.recordAuthFailed.ite h
  · exact ite_snd (hc h) (ite_snd (ite_snd h (ite_snd h.recordAuthFailed (h.useNonce.runLate hc))) (h.runLate hc))

theorem serve {c r} (h : Formed s) (hc : ∀ {r t}, Formed t → Formed (c.effect r t).2) : Formed (serve c r s) :=
  h.advance.ite (h.advance.answer.ite (h.advance.answer.ite (h.advance.runChecks hc).answer))

theorem accept {op r total aux} (h : Formed s) : Formed (accept op r total aux s).2 := h.allocHandle
theorem putPayload {r b} (h : Formed s) : Formed (putPayload r b s) := h.onHost (by simp)

theorem goOn {i f} (h : Formed s) (hf : ∀ {o t}, Formed t → Formed (f o t)) : Formed (goOn i f s) := by
  unfold Machine.goOn
  split
  · exact h
  · exact h.ite (h.endOp.ite (hf h))

theorem goOnOp {op f} (h : Formed s) (hf : ∀ {i o t}, Formed t → Formed (f i o t)) : Formed (goOnOp op f s) := by
  unfold Machine.goOnOp
  split
  · exact h.goOn hf
  · exact h

theorem waitHere {i} (h : Formed s) : Formed (waitHere i s) := h.onOp

/-! ### Persistent groups -/

theorem dropGroup {g} (h : Formed s) : Formed (dropGroup g s) := h.onMem (by simp) (by simp)
theorem addGroup {k} (h : Formed s) : Formed (addGroup k s) := h.ite (h.onMem (by simp) (by simp))

theorem writeBlock {b} (h : Formed s) : Formed (writeBlock b s) := by
  unfold Machine.writeBlock
  split
  · exact h.onMem (by simp) (by simp)
  · exact h.onMem (by simp) (by simp)

theorem writeBlocks {n} (h : Formed s) : Formed (writeBlocks n s) := by
  induction n generalizing s with
  | zero => exact h
  | succ n ih =>
    unfold Machine.writeBlocks
    split
    · exact h
    · exact ih h.writeBlock

theorem countStall (h : Formed s) : Formed (countStall s) := h.onEnergy.ite h.onEnergy.onEnergy.logHw

theorem touchBlock {waits b} (h : Formed s) : Formed (touchBlock waits b s).2 := by
  unfold Machine.touchBlock
  split
  · exact h
  · exact snd ((h.ite h.countStall.writeBlocks).onMem (by simp) (by simp))

theorem touchWord {waits g i old new} (h : Formed s) : Formed (touchWord waits g i old new s).2 := by
  unfold Machine.touchWord
  dsimp only
  split
  · split
    · exact h
    · exact h.touchBlock
  · refine touchBlock ?_
    split
    · exact h
    · exact h.touchBlock

/-! ### The slot image -/

theorem persistSlot {waits slot old new} (h : Formed s) : Formed (persistSlot waits slot old new s).2 := by
  unfold Machine.persistSlot
  split
  · split
    · exact h.touchWord
    · exact h
  · exact h

theorem writeLive {waits slot w} (h : Formed s) : Formed (writeLive waits slot w s).2 := by
  have hwritten := (h.persistSlot (waits := waits) (slot := slot) (old := liveWord s slot) (new := w)).onImg
    (f := fun i => { i with live := writeAt TWord.empty i.live slot w }) fun _ => sparseWf_writeAt _ _ _ _
  unfold Machine.writeLive
  dsimp only
  split
  · exact hwritten
  · exact hwritten.mirror

theorem setLive {slot w} (h : Formed s) : Formed (setLive slot w s) := h.writeLive.onImg (by simp)

theorem writeRunning {slot w} (h : Formed s) : Formed (writeRunning slot w s).2 := by
  unfold Machine.writeRunning
  dsimp only
  exact h.writeLive.onImg fun _ => by split <;> exact id

theorem showWrites {ws} (h : Formed s) : Formed (showWrites ws s) := h.onImg (by simp)
theorem substitute {slot} (h : Formed s) : Formed (substitute slot s) := h.setLive
theorem substituteOutputs (h : Formed s) : Formed (substituteOutputs s) := h.foldl fun h => h.substitute
theorem recordForce {slot action old new} (h : Formed s) : Formed (recordForce slot action old new s) := h.logFw
theorem markForces (h : Formed s) : Formed (markForces s) := h.onImg (by simp)
theorem freezeView (h : Formed s) : Formed (freezeView s) := h.onImg (by simp)

theorem setForce {slot w} (h : Formed s) : Formed (setForce slot w s) := by
  unfold Machine.setForce
  exact (h.markForces.onImg (by simp)).mirror.recordForce

theorem clearForce {action slot} (h : Formed s) : Formed (clearForce action slot s) := by
  unfold Machine.clearForce
  split
  · exact h
  · exact (h.markForces.onImg (by simp)).mirror.recordForce

theorem clearForces {origin} (h : Formed s) : Formed (clearForces origin s) := by
  have hcleared := (h.markForces.onImg (f := fun i => { i with forces := [], markerPending := true }) (by simp)).mirror
    (d := .forceClearAll)
  unfold Machine.clearForces
  refine h.ite ?_
  split
  · exact hcleared.logHw
  · exact hcleared.logFw

theorem writeMarker (h : Formed s) : Formed (writeMarker s) := (h.onImg (by simp)).ite h

theorem placeDescs {base ds} (h : Formed s) : Formed (placeDescs base ds s) :=
  h.foldl fun h => setLive (onImg ((h.onImg (by simp)).mirror.addGroup.ite (h.onImg (by simp)).mirror) (by simp))

theorem clearDescs {base n} (h : Formed s) : Formed (clearDescs base n s) :=
  (h.onImg fun _ => sparseWf_filter _ _ _).foldl fun h => h.dropGroup

/-! ### The code store -/

theorem keepTable {p} (h : Formed s) : Formed (keepTable p s) := h.onMem (by simp) (by simp)
theorem loseEntry {second gen page line} (h : Formed s) : Formed (loseEntry second gen page line s) := h.onMem (by simp) (by simp)

theorem placePage {gen page b} (h : Formed s) : Formed (placePage gen page b s) := by
  unfold Machine.placePage
  split
  · exact h.onMem (by simp) (by simp)
  · exact h.onMem (by simp) (by simp)
  · exact h

theorem dropFrame {i} (h : Formed s) : Formed (dropFrame i s) := h.onMem (by simp) (by simp)
theorem markBad {gen page} (h : Formed s) : Formed (markBad gen page s) := h.onMem (by simp) (by simp)

theorem recordRefetch {gen page line} (h : Formed s) : Formed (recordRefetch gen page line s) :=
  (h.onMem (by simp) (by simp)).logHw

theorem putFrame {gen page} (h : Formed s) : Formed (putFrame gen page s) := by
  unfold Machine.putFrame
  split
  · exact h
  · refine h.ite ?_
    split
    · exact h.placePage
    · exact h.recordRefetch.markBad

end Formed

end Sys2Proof.Proofs
end

section
/-! SUPPORT. The operations of the tasks and the engines keep the form. -/

namespace Sys2Proof.Proofs

open Sys2Proof.Machine
open Sys2Proof.Safety

namespace Formed

variable {s t : State}

/-! ### Releases, triggers and assignments -/

theorem onTask {n f} (h : Formed s) : Formed (onTask n f s) := mirror (h.onScan fun _ => ⟨List.length_modify .., rfl, rfl⟩)

theorem copySnapshot {n} (h : Formed s) : Formed (copySnapshot n s) := by
  unfold Machine.copySnapshot
  exact h.onImg (by simp)

theorem headFreeze (h : Formed s) : Formed (headFreeze s) := by
  unfold Machine.headFreeze
  split
  · exact h.copySnapshot
  · exact h

theorem endFreeze {n} (h : Formed s) : Formed (endFreeze n s) := (h.onAct.onScan (by simp)).headFreeze

theorem emptyFreezes {n} (h : Formed s) : Formed (emptyFreezes n s) := by
  induction n generalizing s with
  | zero => exact h
  | succ n ih =>
    unfold Machine.emptyFreezes
    split
    · exact (ih h.endFreeze).ite h
    · exact h

theorem startFreeze {n} (h : Formed s) : Formed (startFreeze n s) := by
  unfold Machine.startFreeze
  split
  · exact (h.onScan (by simp)).headFreeze.emptyFreezes
  · exact h.onScan (by simp)

theorem releaseIn {tick n src capture at' arg} (h : Formed s) : Formed (releaseIn tick n src capture at' arg s) :=
  h.onTask.startFreeze

theorem release {n src capture at' arg} (h : Formed s) : Formed (release n src capture at' arg s) := h.releaseIn

theorem latchTrigger {n src capture arg} (h : Formed s) : Formed (latchTrigger n src capture arg s).2 := by
  unfold Machine.latchTrigger
  split
  · exact snd h.onTask
  · exact snd h.onTask

theorem fireTrigger {n src capture arg} (h : Formed s) : Formed (fireTrigger n src capture arg s).2 := by
  unfold Machine.fireTrigger
  dsimp only
  split
  · exact h
  · split
    · exact h.release
    · exact h.latchTrigger

theorem releaseLatched {n at'} (h : Formed s) : Formed (releaseLatched n at' s) := by
  unfold Machine.releaseLatched
  dsimp only
  split
  · exact h.release.ite h
  · exact h

theorem withTriggers {slots f} (h : Formed s) (hf : ∀ {t}, Formed t → Formed (f t)) : Formed (withTriggers slots f s) :=
  (hf h).foldl fun h => h.foldl fun h => h.fireTrigger

theorem assign {n e} (h : Formed s) : Formed (assign n e s) := by
  unfold Machine.assign
  split
  · exact (h.onEng.onEng.ite h.onEng).onTask.onAct
  · exact h

theorem requestStop {n e} (h : Formed s) : Formed (requestStop n e s) := h.onEng.onEng.ite h.onEng

theorem dispatchOne {n} (h : Formed s) : Formed (dispatchOne n s) := by
  unfold Machine.dispatchOne
  split
  · exact h.assign
  · refine h.ite ?_
    split
    · exact h.requestStop
    · exact h

theorem dispatch (h : Formed s) : Formed (dispatch s) := h.ite (h.foldl fun h => h.dispatchOne)

theorem unassign {e} (h : Formed s) : Formed (unassign e s) := by
  unfold Machine.unassign
  dsimp only
  split
  · exact h.ite (h.onScan (by simp)).onTask
  · exact h

theorem reopen (h : Formed s) : Formed (reopen s) :=
  h.ite ((h.onScan (by simp)).foldl fun h => h.unassign)

theorem setPair {k p} (h : Formed s) : Formed (setPair k p s) := mirror (h.onScan fun _ => ⟨rfl, rfl, List.length_modify ..⟩)
theorem clearDiscrepancies (h : Formed s) : Formed (clearDiscrepancies s) := (h.foldl fun h => h.mirror).onImg (by simp)
theorem joinPair {k} (h : Formed s) : Formed (joinPair k s) := h.setPair.clearDiscrepancies

theorem pairProgress1 {k} (h : Formed s) : Formed (pairProgress1 k s) := by
  unfold Machine.pairProgress1
  split
  · split
    · exact h.setPair.endOp
    · refine ite ?_ h
      split
      · exact h.setPair.onOp
      · exact h.setPair
  · split
    · exact h.joinPair.endOp
    · refine ite ?_ h
      split
      · exact h.setPair.endOp
      · exact h.setPair
  · exact h

theorem settle (h : Formed s) : Formed (settle s) := (h.foldl fun h => h.pairProgress1).reopen.dispatch
theorem freeEngine {e} (h : Formed s) : Formed (freeEngine e s) := h.onEng
theorem publish {n} (h : Formed s) : Formed (publish n s) := h.showWrites

theorem discard {n} (h : Formed s) : Formed (discard n s) := by
  unfold Machine.discard
  exact (h.foldl fun h => h.freeEngine).publish.onTask.onScan (by simp)

theorem discardAll (h : Formed s) : Formed (discardAll s) := h.foldl fun h => h.discard.ite h

theorem stopReleasing (h : Formed s) : Formed (stopReleasing s) :=
  (h.onDev.onMem (by simp) (by simp)).foldl fun h => h.onTask.ite h

theorem substituteDeclared {n} (h : Formed s) : Formed (substituteDeclared n s) :=
  h.withTriggers fun h => h.foldl fun h => h.substitute

theorem captureEnd {n at' halt eng} (h : Formed s) : Formed (captureEnd n at' halt eng s) :=
  (h.publish.advance.foldl fun h => h.freeEngine).onTask.releaseLatched

theorem endActivation {n halt} (h : Formed s) : Formed (endActivation n halt s) :=
  h.captureEnd.ite ((h.foldl fun h => h.freeEngine).ite h).onAct

theorem captureEnds (h : Formed s) : Formed (captureEnds s) := by
  unfold Machine.captureEnds
  refine h.foldl fun h => ?_
  split
  · exact h.captureEnd.ite h
  · exact h

/-! ### The pager -/

theorem beginLead {n} (h : Formed s) : Formed (beginLead n s) := h.ite (h.onMem (by simp) (by simp))

theorem timerLead {n} (h : Formed s) : Formed (timerLead n s) := by
  unfold Machine.timerLead
  dsimp only
  split
  · exact h.beginLead.ite h
  · exact h

theorem leadLoads (h : Formed s) : Formed (leadLoads s) := h.ite (h.foldl fun h => h.ite ((h.beginLead.ite h).ite h.timerLead))
theorem afterFill (h : Formed s) : Formed (afterFill s) := ((h.foldl fun h => h.onTask.ite h).onMem (by simp) (by simp)).settle

theorem fillPage {gen page} (h : Formed s) : Formed (fillPage gen page s) := by
  unfold Machine.fillPage
  refine h.putFrame.ite ?_
  split
  · exact h.dropFrame.putFrame
  · exact h

theorem dropGeneration {gen} (h : Formed s) : Formed (dropGeneration gen s) := h.onMem (by simp) (by simp)

theorem loadResident {p pages} (h : Formed s) : Formed (loadResident p pages s) :=
  (h.keepTable.onMem (by simp) (by simp)).foldl fun h => h.fillPage

theorem replan (h : Formed s) : Formed (replan s) := by
  unfold Machine.replan
  exact h.onMem (by simp) (by simp)

/-! ### Programs -/

theorem setRefs (h : Formed s) : Formed (setRefs s) := by
  unfold Machine.setRefs
  exact h.onImg (by simp)

/-! ### Data memory -/

theorem writePhys {waits a w} (h : Formed s) : Formed (writePhys waits a w s).2 := by
  unfold Machine.writePhys
  refine mirror (onMem ?_ (fun _ => sparseWf_writeAt _ _ _ _) (by simp))
  split
  · exact h.touchWord
  · exact h

theorem markTraced {a} (h : Formed s) : Formed (markTraced a s) := h.onChg.ite h

theorem markPhys {a} (h : Formed s) : Formed (markPhys a s) := by
  unfold Machine.markPhys
  split
  · exact (h.foldl fun h => h.markTraced).ite h
  · exact h

theorem writeData {waits a w} (h : Formed s) : Formed (writeData waits a w s).2 := by
  unfold Machine.writeData
  split
  · exact h.writePhys.markPhys
  · exact h

theorem carryWord {src dst es pairs a} (h : Formed s) : Formed (carryWord src dst es pairs a s) :=
  h.foldl fun h => (h.writePhys.onChg.ite h.writePhys).ite h

theorem carryTraced {a} (h : Formed s) : Formed (carryTraced a s) := by
  unfold Machine.carryTraced
  split
  · exact h
  · refine ite ?_ ?_
    · split
      · exact h.carryWord
      · exact h
    · split
      · exact h.carryWord
      · exact h

theorem addGroups {l} (h : Formed s) : Formed (addGroups l s) := h.foldl fun h => h.addGroup
theorem dropPages {pages} (h : Formed s) : Formed (dropPages pages s) := h.foldl fun h => h.dropGroup

theorem giveRun {base order} (h : Formed s) : Formed (giveRun base order s) :=
  ((h.foldl fun h => h.clearForce).onImg (by simp)).mirror.clearDescs.ite h

theorem abortAttempt (h : Formed s) : Formed (abortAttempt s) := by
  unfold Machine.abortAttempt
  split
  · exact h.endOp.onChg
  · exact h

theorem discardStaged {cause} (h : Formed s) : Formed (discardStaged cause s) := by
  unfold Machine.discardStaged
  split
  · exact h
  · refine capture (mirror (setRefs (onChg (dropPages (dropGeneration (h.abortAttempt.foldl fun h => ?_))))))
    split
    · exact h.giveRun
    · exact h

theorem dropRetained (h : Formed s) : Formed (dropRetained s) := by
  unfold Machine.dropRetained
  split
  · exact h
  · exact h.dropGeneration.dropPages.onChg.setRefs

/-! ### Halts and faults -/

theorem sendNotice {k hold} (h : Formed s) : Formed (sendNotice k hold s) := h.sendSel.sendSel.sendSel
theorem setHaltAll (h : Formed s) : Formed (setHaltAll s) := (h.onNet (by simp)).mirror
theorem liftHalt (h : Formed s) : Formed (liftHalt s) := (h.onNet (by simp)).mirror

theorem goHalted (h : Formed s) : Formed (goHalted s) :=
  h.setHaltAll.onChg.ite (h.discardStaged.ite h).setHaltAll.stopReleasing.enterOrReturn

theorem haltOutputs (h : Formed s) : Formed (haltOutputs s) := by
  unfold Machine.haltOutputs
  split
  · exact h.goHalted
  · exact h.goHalted
  · exact h.goHalted
  · exact h
  · exact h
  · exact h.setHaltAll.onNet (by simp)
  · exact h.setHaltAll

theorem haltRequested (h : Formed s) : Formed (haltRequested s) := h.haltOutputs

theorem stopProgram (h : Formed s) : Formed (stopProgram s) := by
  unfold Machine.stopProgram
  split
  case h_4 => exact h
  all_goals
    extract_lets s1 s2 s3
    have h2 : Formed s2 := (h.discardStaged.ite h).stopReleasing.discardAll.substituteOutputs
    exact (h2.liftHalt.ite h2).enterOrReturn.settle

theorem endSync {status} (h : Formed s) : Formed (endSync status s) := by
  unfold Machine.endSync
  split
  · exact h.onPair.endOp
  · exact h.onPair

theorem abandonChange (h : Formed s) : Formed (abandonChange s) := by
  unfold Machine.abandonChange
  dsimp only
  split
  · exact h.abortAttempt.endOp.onChg
  · exact h.abortAttempt

theorem enterFault {detail} (h : Formed s) : Formed (enterFault detail s) := by
  unfold Machine.enterFault
  extract_lets s1 s2 s3
  have h1 : Formed s1 := h.setHaltAll.stopReleasing.discardAll.abandonChange.endSync
  have h2 : Formed s2 := h1.sendNotice.ite h1
  dsimp only
  exact h.ite h2.onPair.onDev.enter.takeRole.draw.logHw

theorem budgetAction {a} (h : Formed s) : Formed (budgetAction a s) := by
  unfold Machine.budgetAction
  split
  · exact h.stopProgram
  · exact h.haltOutputs
  · exact h

theorem haltTask {n reason} (h : Formed s) : Formed (haltTask n reason s) := h.substituteDeclared.endActivation
theorem putEvidence {which e} (h : Formed s) : Formed (putEvidence which e s) := h.onWdg

theorem captureEvidence {which where0 where1 good} (h : Formed s) : Formed (captureEvidence which where0 where1 good s) :=
  h.putEvidence

theorem expireBudget {n} (h : Formed s) : Formed (expireBudget n s) := by
  unfold Machine.expireBudget
  split
  · exact h
  · exact h.captureEvidence.logHw.logHw.onTask.haltTask.settle.budgetAction

/-! ### The run of one instruction -/

theorem shadowUs {e} (h : Formed s) : Formed (shadowUs e s).2 := by
  unfold Machine.shadowUs
  dsimp only
  exact h.draw

theorem raiseTask {n w} (h : Formed s) : Formed (raiseTask n w s).2 := by
  unfold Machine.raiseTask
  split
  · exact h.fireTrigger
  · exact h

theorem startTimer {n} (h : Formed s) : Formed (startTimer n s) := h.onTask.timerLead

theorem setLegacy {a w} (h : Formed s) : Formed (setLegacy a w s) :=
  mirror (h.onMem (fun _ => id) fun _ => sparseWf_writeAt _ _ _ _)

theorem perform {n e op} (h : Formed s) : Formed (perform n e op s).2.2 := by
  unfold Machine.perform
  cases op with
  | readData | readSlot | readDesc | readLegacy | trapped | ended | bufferFull => exact h
  | writeSlot a w =>
    have hset {c : Prop} [Decidable c] {tt} :
        Formed (if c then Machine.advance tt (Machine.writeRunning a w s).2 else (Machine.writeRunning a w s).2) :=
      h.writeRunning.advance.ite h.writeRunning
    dsimp only
    exact onAct (ite (dispatch (h.withTriggers fun _ => hset)) (h.withTriggers fun _ => hset))
  | writeLegacy a w => exact h.setLegacy
  | putLegacyBit a k w => exact h.setLegacy
  | raise t w => exact h.advance.raiseTask.dispatch
  | timerStart t =>
    dsimp only
    split
    · exact h.advance.startTimer
    · exact h
  | timerStop t =>
    dsimp only
    split
    · exact h.onTask
    · exact h
  | logEvent c w => exact h.advance.logHw
  | timeNow => exact h.shadowUs (e := e)

theorem readLocal {e a} (h : Formed s) : Formed (readLocal e a s).2 := by
  unfold Machine.readLocal
  split
  · exact h
  · exact h.draw.onEng

theorem writeAll {l} (h : Formed s) : Formed (writeAll l s).2 := by
  induction l generalizing s with
  | nil => exact h
  | cons e r ih => exact ih h.writeData

theorem recordTrap {underEnd n e cause pc user} (h : Formed s) : Formed (recordTrap underEnd n e cause pc user s) := h.logHw

theorem commitData {paired e ws} (h : Formed s) : Formed (commitData paired e ws s).2 := by
  unfold Machine.commitData
  split
  · exact snd h.onEng
  · exact h.writeAll

theorem complete {paired n e len f} (h : Formed s) : Formed (complete paired n e len f s) := by
  unfold Machine.complete
  split
  · exact h.commitData.onEng.recordTrap.ite h.commitData.onEng
  · exact h.commitData.onEng

theorem trapEnd {n e cause user units} (h : Formed s) : Formed (trapEnd n e cause user units s) :=
  (h.foldl fun h => h.onEng).substituteDeclared.recordTrap.endActivation.settle

theorem setDualFault {k} (h : Formed s) : Formed (setDualFault k s) := (h.onScan (by simp)).setCause

theorem mismatch {n k reason target nth' rest} (h : Formed s) : Formed (mismatch n k reason target nth' rest s) :=
  (h.onEng.onEng.haltTask.onScan (by simp)).setDualFault.logHw.setPair.settle

theorem commitPair {n k} (h : Formed s) : Formed (commitPair n k s).2 := by
  unfold Machine.commitPair
  split
  · exact snd h.mismatch
  · dsimp only
    exact h.writeAll.onEng.onEng

theorem discrepancies {k l} (h : Formed s) : Formed (discrepancies k l s).2 := by
  induction l generalizing s with
  | nil => exact h
  | cons e r ih => exact ite_snd (ih (h.onImg (by simp)).mirror) (ih (h.onImg (by simp)).mirror)

theorem cutCommit {n k} (h : Formed s) : Formed (cutCommit n k s) := h.writeAll.onEng.onEng.expireBudget

theorem finalCommit {n k finish} (h : Formed s) (hfinish : ∀ {t}, Formed t → Formed (finish t)) :
    Formed (finalCommit n k finish s) := by
  have hread := h.discrepancies (k := k) (l := (getEng s (2 * k)).discWrites)
  unfold Machine.finalCommit
  split
  next heq => exact (heq ▸ hread : Formed (_, _).2).mismatch
  next heq =>
    have hread : Formed (_, _).2 := heq ▸ hread
    exact hread.commitPair.ite (hread.cutCommit.ite (hfinish hread.commitPair))

theorem endPair {n k} (h : Formed s) : Formed (endPair n k s) := h.finalCommit fun h => h.endActivation.settle
theorem issue {e op i} (h : Formed s) : Formed (issue e op i s) := h.onEng
theorem fillBuffer {e f} (h : Formed s) : Formed (fillBuffer e f s) := h.onEng
theorem pushResult {e w} (h : Formed s) : Formed (pushResult e w s) := h.onEng

theorem runPaired {n e i k} (h : Formed s) : Formed (runPaired n e i k s) := by
  induction k generalizing s with
  | zero => exact h
  | succ k ih =>
    unfold Machine.runPaired
    split
    · exact h
    · split
      · exact ih h.readLocal.pushResult
      · exact ih h.shadowUs.pushResult
      · split
        · split
          · exact ih h.pushResult
          · exact h.issue
        · exact h.issue
      · exact h.issue
      · split
        · exact h.issue
        · exact h.issue.ite (h.fillBuffer.issue.ite h.complete)

theorem runAlone {n e i k} (h : Formed s) : Formed (runAlone n e i k s) := by
  induction k generalizing s with
  | zero => exact h
  | succ k ih =>
    unfold Machine.runAlone
    split
    · exact h
    · split
      · exact ih h.readLocal.pushResult
      · exact ih h.shadowUs.pushResult
      · exact ih h.perform.pushResult.onEng
      · exact h.trapEnd
      · exact h.complete.endActivation.settle.ite h.complete

theorem levelClocks {k extra} (h : Formed s) : Formed (levelClocks k extra s) := h.onEng.onEng

theorem agreeTrap {n k cause i j} (h : Formed s) : Formed (agreeTrap n k cause i j s) := by
  unfold Machine.agreeTrap
  split
  · split
    · exact h.complete.complete.levelClocks
    · exact h.finalCommit fun h => h.trapEnd
    · exact h
  · exact h

theorem makeOp {n k a b op i j} (h : Formed s) : Formed (makeOp n k a b op i j s) :=
  h.levelClocks.perform.onEng.onEng.levelClocks.runPaired.runPaired

theorem resolve {n k} (h : Formed s) : Formed (resolve n k s) := by
  unfold Machine.resolve
  dsimp only
  split
  · split
    · exact h.agreeTrap.ite h.mismatch
    · exact h.mismatch
    · exact h.mismatch
    · exact h.mismatch
    · exact h.mismatch
    · exact h.onEng.onEng.endPair
    · exact h
    · refine h.mismatch.ite ?_
      split
      · exact h.makeOp
      · exact h.mismatch
  · exact h.mismatch.ite h
  · exact h.mismatch.ite h
  · exact h.mismatch.ite h
  · exact h.mismatch.ite h
  · exact h.levelClocks.ite h

theorem resolveAll {n k m} (h : Formed s) : Formed (resolveAll n k m s) := by
  induction m generalizing s with
  | zero => exact h
  | succ m ih => exact (ih h.resolve).ite h.resolve

theorem putCtx {d i w} (h : Formed s) : Formed (putCtx d i w s) := by
  unfold Machine.putCtx
  split
  · exact mirror (h.onMem (fun _ => sparseWf_writeAt _ _ _ _) (by simp))
  · exact h

theorem saveCtx {n e} (h : Formed s) : Formed (saveCtx n e s) := by
  unfold Machine.saveCtx
  split
  · exact h
  · exact (h.foldl fun h => h.putCtx).foldl fun h => h.readLocal.putCtx

theorem suspendOn {n e} (h : Formed s) : Formed (suspendOn n e s) := (h.saveCtx.foldl fun h => h.freeEngine).onTask.onAct.settle

theorem preempt {n e} (h : Formed s) : Formed (preempt n e s) :=
  h.ite ((h.ite (h.mismatch.ite (h.commitPair.suspendOn.ite h.commitPair))).ite h.suspendOn)

theorem runInstr {e i} (h : Formed s) : Formed (runInstr e i s) := by
  unfold Machine.runInstr
  refine h.ite ?_
  split
  · exact h.preempt.ite (h.ite (h.onEng.runPaired.resolveAll.ite h.onEng.runAlone))
  · exact h

/-! ### Engine pairs -/

theorem cmdEngineSplit {r} (h : Formed s) : Formed (cmdEngineSplit.effect r s).2 := h.accept.setPair.ite h.accept
theorem cmdEngineJoin {r} (h : Formed s) : Formed (cmdEngineJoin.effect r s).2 := h.accept.setPair.ite h.accept

theorem finishPairOp {i o} (h : Formed s) : Formed (finishPairOp i o s) := by
  unfold Machine.finishPairOp
  dsimp only
  split
  · exact h.settle
  · refine h.settle.ite (h.settle.endOp.ite ?_)
    split
    · exact h.settle.endOp
    · exact h.settle.endOp.ite h.settle
    · exact h.settle

theorem endPairOp {op k status res} (h : Formed s) : Formed (endPairOp op k status res s) := by
  unfold Machine.endPairOp
  split
  · exact h.ite h.endOp
  · exact h

theorem writeStatDual {v} (h : Formed s) : Formed (writeStatDual v s) := h.onScan (by simp)
theorem countUe {mem addr} (h : Formed s) : Formed (countUe mem addr s) := h.onInteg.logHw

theorem waitLine {e} (h : Formed s) : Formed (waitLine e s) := by
  unfold Machine.waitLine
  dsimp only
  split
  · exact h.draw.foldl fun h => h.onEng
  · exact h

theorem rewriteLine {frame line b} (h : Formed s) : Formed (rewriteLine frame line b s) := h.onMem (by simp) (by simp)

theorem stopAtPage {es} (h : Formed s) : Formed (stopAtPage es s) := by
  unfold Machine.stopAtPage
  refine h.foldl fun h => ?_
  split
  · exact h.preempt
  · exact h

theorem lineRefetch {frame line ddrBad} (h : Formed s) : Formed (lineRefetch frame line ddrBad s) := by
  unfold Machine.lineRefetch
  split
  · exact h
  · exact h.ite ((h.countUe.recordRefetch.rewriteLine.foldl fun h => h.waitLine).ite h.countUe.recordRefetch.markBad.stopAtPage)

theorem losePage {gen page} (h : Formed s) : Formed (losePage gen page s) := (h.onMem (by simp) (by simp)).logFw.setCause

theorem rebuildPage {gen page b readBackFails} (h : Formed s) : Formed (rebuildPage gen page b readBackFails s) :=
  (h.onMem (by simp) (by simp)).placePage.logFw.afterFill

end Formed

end Sys2Proof.Proofs
end

section
/-! SUPPORT. The chapters on energy, completion interrupts, tasks, integrity and the calendar keep the form. -/

namespace Sys2Proof.Proofs

open Sys2Proof.Machine
open Sys2Proof.Safety

namespace Formed

variable {s t : State}

/-! ### Energy -/

theorem sampleBank {senseMv} (h : Formed s) : Formed (sampleBank senseMv s) := h.onEnergy
theorem judgeShort (h : Formed s) : Formed (judgeShort s) := h.ite (h.onEnergy.logHw.setCause.ite h.onEnergy.logHw)
theorem updateLimit (h : Formed s) : Formed (updateLimit s) := h.onEnergy.judgeShort

theorem considerJob {i} (h : Formed s) : Formed (considerJob s i) := by
  unfold Machine.considerJob
  split
  · exact h
  · exact h.endOp.ite (h.onOp.ite (h.endOp.ite h.onOp))

theorem considerJobs (h : Formed s) : Formed (considerJobs s) := h.foldl fun h => h.considerJob
theorem pauseJobs (h : Formed s) : Formed (pauseJobs s) := h.foldl fun h => h.onOp

theorem capStep (h : Formed s) : Formed (capStep s) :=
  h.ite (h.pauseJobs.onEnergy.onEnergy.ite (h.onEnergy.onEnergy.ite ((h.foldl fun h => h.onEng).onEnergy.ite h)))

theorem overStep (h : Formed s) : Formed (overStep s) := h.onEnergy.onEnergy.logHw.setCause.ite h.onEnergy

theorem undoStep (h : Formed s) : Formed (undoStep s) := by
  unfold Machine.undoStep
  split
  · exact (h.onScan (by simp)).onEnergy
  · exact h.onEnergy.onEnergy.ite (h.onEnergy.onEnergy.ite h)

theorem underStep (h : Formed s) : Formed (underStep s) := h.onEnergy.undoStep.ite h.onEnergy
theorem uncap (h : Formed s) : Formed (uncap s) := h.onEnergy.onScan fun _ => ⟨rfl, List.length_map .., rfl⟩

theorem capInterval (h : Formed s) : Formed (capInterval s) :=
  h.onEnergy.ite (h.onEnergy.uncap.ite (h.onEnergy.capStep.overStep.ite h.onEnergy.underStep))

theorem meterStage (h : Formed s) : Formed (meterStage s) := h.onEnergy.ite h
theorem countPass (h : Formed s) : Formed (countPass s) := h.onInteg
theorem setCell {absent} (h : Formed s) : Formed (setCell absent s) := h.onEnergy.logHw.setCause
theorem judgeCell (h : Formed s) : Formed (judgeCell s) := (h.setCell.ite h).setCell.ite (h.setCell.ite h)

theorem cmdEnergyStatus {r} (h : Formed s) : Formed (cmdEnergyStatus.effect r s).2 :=
  (h.putPayload.ite h).onEnergy.ite (h.putPayload.ite h)

theorem cmdPowerCapSet {r} (h : Formed s) : Formed (cmdPowerCapSet.effect r s).2 := by
  unfold Machine.cmdPowerCapSet
  dsimp only
  exact h.onEnergy

theorem configureHoldup {hh discard} (h : Formed s) : Formed (configureHoldup hh discard s) := h.onEnergy.judgeShort
theorem cmdHoldupConfig {r} (h : Formed s) : Formed (cmdHoldupConfig.effect r s).2 := h.configureHoldup
theorem cmdCellConfig {r} (h : Formed s) : Formed (cmdCellConfig.effect r s).2 := h.onEnergy.onDev.ite h.onEnergy

/-! ### Completion interrupts -/

theorem raiseRingErr (h : Formed s) : Formed (raiseRingErr s) := h.raiseVector.ite h
theorem stopRing {n code} (h : Formed s) : Formed (stopRing n code s) := h.onCq.onRegs.ite h.onCq.onRegs.raiseRingErr
theorem startCq {n} (h : Formed s) : Formed (startCq n s) := h.onCq.onRegs

theorem writeCqCtrl {n v} (h : Formed s) : Formed (writeCqCtrl n v s) :=
  (h.ite h.onCq).ite (h.onCq.ite (h.onCq.startCq.ite h.onCq.stopRing))

theorem startKq {k} (h : Formed s) : Formed (startKq k s) := h.onKq.flushKq.kqCheck

theorem writeKqCtrl {k v} (h : Formed s) : Formed (writeKqCtrl k v s) :=
  (h.onKq.kqCheck.ite h.onKq.onKq).ite (h.onKq.onKq.ite (h.onKq.onKq.startKq.ite h.onKq.onKq.onKq))

theorem writeCqPi {n v} (h : Formed s) : Formed (writeCqPi n v s) :=
  h.onCq.ite (h.onCq.stopRing.ite (h.onCq.onHost fun _ => by unfold ringDoorbell; split <;> exact ⟨rfl, rfl⟩))

theorem writeKqHead {k v} (h : Formed s) : Formed (writeKqHead k v s) := h.onKq.flushKq.kqCheck
theorem writeKqIrq {k v} (h : Formed s) : Formed (writeKqIrq k v s) := h.onKq.kqCheck
theorem writeCqBase {n hi v} (h : Formed s) : Formed (writeCqBase n hi v s) := h.onCq
theorem writeKqBase {k hi v} (h : Formed s) : Formed (writeKqBase k hi v s) := h.onKq
theorem completionDue {n waitedUs} (h : Formed s) : Formed (completionDue n waitedUs s) := (h.ite h.advance).kqCheck

/-! ### Program and task commands -/

theorem resetData {lo} (h : Formed s) : Formed (resetData lo s) := by
  unfold Machine.resetData
  split
  · exact h
  · exact h.foldl fun h => h.writePhys

theorem installData {old p} (h : Formed s) : Formed (installData old p s) :=
  (h.foldl fun h => h.dropGroup).addGroups.foldl fun h => h.writePhys

theorem installTasks {p} (h : Formed s) : Formed (installTasks p s) := h.foldl fun h => h.onTask.mirror
theorem mirrorGenerations (h : Formed s) : Formed (mirrorGenerations s) := h.mirror
theorem cmdProgramLoad {r} (h : Formed s) : Formed (cmdProgramLoad.effect r s).2 := h.accept
theorem clearLegacy (h : Formed s) : Formed (clearLegacy s) := (h.foldl fun h => h.mirror).onMem (fun _ => id) fun _ _ => rfl
theorem archiveProgramNow {p} (h : Formed s) : Formed (archiveProgramNow p s) := h.onChg

theorem installProgram {p} (h : Formed s) : Formed (installProgram p s) := by
  unfold Machine.installProgram
  extract_lets old s1 s2 s3 s4 s5 s6
  have h2 : Formed s2 := by
    unfold s2 old
    split
    · exact h.dropRetained.dropGeneration
    · exact h.dropRetained
  have h6 : Formed s6 :=
    (h2.onChg.onMem (by simp) (by simp)).clearLegacy.installData.installTasks.setRefs.loadResident.mirrorGenerations.logFw
  exact h6.enter.ite h6

theorem goOnLoad {f} (h : Formed s) (hf : ∀ {i o t}, Formed t → Formed (f i o t)) : Formed (goOnLoad f s) := by
  unfold Machine.goOnLoad
  split
  · exact h.goOn hf
  · exact h

theorem finishArchive {i o} (h : Formed s) : Formed (finishArchive i o s) := by
  unfold Machine.finishArchive
  refine h.ite ?_
  split
  · exact h
  · exact h.archiveProgramNow.onOp

theorem startLeads (h : Formed s) : Formed (startLeads s) := h.foldl fun h => h.beginLead.ite h
theorem restartTasks (h : Formed s) : Formed (restartTasks s) := h.foldl fun h => h.ite h.onTask

theorem startProgram {mode} (h : Formed s) : Formed (startProgram mode s) := by
  unfold Machine.startProgram
  refine startLeads (enter (replan (onDev (clearDiscrepancies (h.liftHalt.ite ?_)))))
  refine restartTasks ?_
  split
  · exact h.resetData
  · exact h.resetData
  · exact h

theorem cmdProgramStart {r} (h : Formed s) : Formed (cmdProgramStart.effect r s).2 := by
  unfold Machine.cmdProgramStart
  dsimp only
  exact h.startProgram

theorem cmdStopProgram {r} (h : Formed s) : Formed (cmdStopProgram.effect r s).2 := h.stopProgram
theorem cmdTaskConfig {r} (h : Formed s) : Formed (cmdTaskConfig.effect r s).2 := h.onTask.mirror

theorem cmdTaskStatus {r} (h : Formed s) : Formed (cmdTaskStatus.effect r s).2 :=
  (h.putPayload.ite h).onTask.ite (h.putPayload.ite h)

theorem eachTask {mask f} (h : Formed s) : Formed (eachTask mask f s).2 := by
  refine foldl_snd h fun h => ?_
  split
  · split
    · exact h.onTask.timerLead
    · exact h
  · exact h

theorem cmdTaskSuspend {r} (h : Formed s) : Formed (cmdTaskSuspend.effect r s).2 := h.eachTask
theorem cmdTaskResume {r} (h : Formed s) : Formed (cmdTaskResume.effect r s).2 := h.eachTask

theorem cmdEventTrigger {r} (h : Formed s) : Formed (cmdEventTrigger.effect r s).2 := by
  unfold Machine.cmdEventTrigger
  dsimp only
  exact h.fireTrigger.settle

/-! ### Integrity -/

theorem bucketError {mem addr} (h : Formed s) : Formed (bucketError mem addr s) :=
  h.onInteg.ite (h.onInteg.logHw.ite h.onInteg).setCause

theorem bucketErrors {m a n} (h : Formed s) : Formed (bucketErrors m a n s) := by
  induction n generalizing s with
  | zero => exact h
  | succ n ih => exact ih h.bucketError

theorem countCe {mem n} (h : Formed s) : Formed (countCe mem n s) := h.onInteg
theorem correctable {mem addr} (h : Formed s) : Formed (correctable mem addr s) := h.countCe.bucketError.ite h.countCe.logHw

theorem drawPoison (h : Formed s) : Formed (drawPoison s).2 := by
  unfold Machine.drawPoison
  dsimp only
  exact h.draw

theorem lostWord {g i} (h : Formed s) : Formed (lostWord g i s).2.2 := by
  unfold Machine.lostWord
  split
  · split
    · exact h.drawPoison
    · split
      · dsimp only
        exact h.onInteg
      · exact h.drawPoison
  · exact h.drawPoison

theorem loseData {a} (h : Formed s) : Formed (loseData a s) := by
  unfold Machine.loseData
  refine onMem ?_ (fun _ => sparseWf_writeAt _ _ _ _) (by simp)
  split
  · exact h.lostWord.touchWord
  · exact h.lostWord

theorem loseLive {slot} (h : Formed s) : Formed (loseLive slot s) := by
  have hput := fun {t} (h : Formed t) w => h.onImg
    (f := fun i => { i with live := writeAt TWord.empty i.live slot w, shown := erase i.shown slot })
    fun _ => sparseWf_writeAt _ _ _ _
  unfold Machine.loseLive
  dsimp only
  split
  · exact h
  · exact hput h _
  · refine hput ?_ _
    split
    · exact h.lostWord.touchWord
    · exact h.lostWord

theorem loseMemory {a} (h : Formed s) : Formed (loseMemory a s) := by
  have hput := fun {t} (h : Formed t) w => h.onMem (f := fun m => { m with data := writeAt TWord.empty m.data a w })
    (fun _ => sparseWf_writeAt _ _ _ _) (by simp)
  unfold Machine.loseMemory
  split
  · exact h.loseData
  · exact (hput h.drawPoison _).foldl fun h => h.onAct

theorem loseBlock {addr} (h : Formed s) : Formed (loseBlock addr s) := by
  unfold Machine.loseBlock
  exact h.onMem (fun m => by split <;> exact id) fun m => by split <;> exact id

theorem loseDdr (h : Formed s) : Formed (loseDdr s) := by
  unfold Machine.loseDdr
  dsimp only
  split
  · exact h.endOp
  · split
    · exact h.draw.ite (h.draw.markBad.ite (h.draw.draw.loseEntry.markBad.ite h.draw.draw.loseEntry))
    · exact h.draw

theorem loseView {addr} (h : Formed s) : Formed (loseView addr s) :=
  (h.drawPoison.onImg (by simp)).ite ((h.drawPoison.onNet (by simp)).ite (h.drawPoison.onScan (by simp)))

theorem loseCommit {addr} (h : Formed s) : Formed (loseCommit addr s) := h.drawPoison.onEng
theorem stopCore (h : Formed s) : Formed (stopCore s) := h.pauseCore

theorem uncorrectable {mem addr} (h : Formed s) : Formed (uncorrectable mem addr s) := by
  unfold Machine.uncorrectable
  split
  · exact h.countUe.loseMemory
  · exact h.countUe.withTriggers fun h => h.loseLive
  · exact h.countUe.onImg (by simp)
  · exact h.countUe.drawPoison.onEng
  · exact h.countUe.onMem (by simp) (by simp)
  · exact h.countUe.enterFault
  · exact h.lineRefetch
  · exact h.countUe.loseDdr
  · exact h.countUe.loseBlock
  · exact h.countUe.stopCore
  · exact h.countUe.loseView
  · exact h.countUe.loseCommit
  · exact h.countUe

theorem cmdMemFill {r} (h : Formed s) : Formed (cmdMemFill.effect r s).2 := h.accept
theorem fillData {a w} (h : Formed s) : Formed (fillData a w s) := h.writeData.ite h.writePhys

theorem doFill {r n} (h : Formed s) : Formed (doFill r n s) := by
  unfold Machine.doFill
  split
  · exact h.foldl fun h => h.fillData
  · exact h.foldl fun h => h.setLegacy
  · exact h.foldl fun h => h.onEng

theorem finishFill {i o} (h : Formed s) : Formed (finishFill i o s) := h.doFill.endOp

theorem cutFill {i o} (h : Formed s) : Formed (cutFill i o s) := by
  unfold Machine.cutFill
  dsimp only
  exact h.draw.doFill.endOp

theorem cmdScrubConfig {r} (h : Formed s) : Formed (cmdScrubConfig.effect r s).2 := by
  unfold Machine.cmdScrubConfig
  dsimp only
  split
  · exact h.onInteg.onInteg.draw.accept.waitHere
  · exact snd h.onInteg

theorem finishBurst {i o} (h : Formed s) : Formed (finishBurst i o s) := h.endOp.ite h
theorem cmdMemTest {r} (h : Formed s) : Formed (cmdMemTest.effect r s).2 := h.onInteg.accept.waitHere

theorem wipeUnit {target u} (h : Formed s) : Formed (wipeUnit target u s) := by
  unfold Machine.wipeUnit
  split
  · exact h.foldl fun h => h.writePhys
  · exact (h.foldl fun h => h.setLive).onImg (by simp)
  · exact h.foldl fun h => h.setLegacy
  · exact h.onEng
  · exact h

theorem testUnit {i ce fails o} (h : Formed s) : Formed (testUnit i ce fails o s) := by
  unfold Machine.testUnit
  extract_lets target u mem before s1 s2 s3 n first o1 s4
  have h1 : Formed s1 := h.countCe.bucketErrors
  have h2 : Formed s2 := (h1.onMem (by simp) (by simp)).ite h1
  have h4 : Formed s4 := (h2.wipeUnit.ite h2).onOp
  exact h4.endOp.ite (h4.endOp.ite h4)

theorem clearBucket {c} (h : Formed s) : Formed (clearBucket c s) := h.onInteg
theorem cmdErrStatus {r} (h : Formed s) : Formed (cmdErrStatus.effect r s).2 := h.clearBucket

/-! ### The calendar -/

theorem onAlarm {i f} (h : Formed s) : Formed (onAlarm i f s) := h.onCal
theorem fireAlarm {i} (h : Formed s) : Formed (fireAlarm i s) := h.onAlarm.logHw.setCause.ite h.onAlarm
theorem checkAlarm {i} (h : Formed s) : Formed (checkAlarm i s) := h.fireAlarm.ite h
theorem rollover (h : Formed s) : Formed (rollover s) := h.onCal.checkAlarm.checkAlarm
theorem advanceSubsec {k} (h : Formed s) : Formed (advanceSubsec k s) := h.onCal.rollover.ite h.onCal

theorem aonTick {extra} (h : Formed s) : Formed (aonTick extra s) :=
  h.ite (h.onCal.ite ((h.onCal.ite h).onCal.ite (h.onCal.ite h).advanceSubsec))

theorem setSuspect {v} (h : Formed s) : Formed (setSuspect v s) := h.onCal.ite h.onCal.logFw
theorem loadCalendar {f sub} (h : Formed s) : Formed (loadCalendar f sub s) := h.onCal.setSuspect.logFw
theorem setCurve {host k} (h : Formed s) : Formed (setCurve host k s) := h.onCal
theorem calendarLost (h : Formed s) : Formed (calendarLost s) := h.onCal

end Formed

end Sys2Proof.Proofs
end

section
/-! SUPPORT. Online changes, the event record, security and firmware keep the form. -/

namespace Sys2Proof.Proofs

open Sys2Proof.Machine
open Sys2Proof.Safety

namespace Formed

variable {s t : State}

/-! ### Online changes -/

theorem cmdChangeStage {r} (h : Formed s) : Formed (cmdChangeStage.effect r s).2 := by
  unfold Machine.cmdChangeStage
  dsimp only
  exact h.accept.onChg

theorem claimRuns {m} (h : Formed s) : Formed (claimRuns m s) := by
  unfold Machine.claimRuns
  refine h.foldl fun h => ?_
  split
  · split
    · exact (h.onImg (by simp)).mirror.foldl fun h => (h.onImg (by simp)).mirror.addGroup.ite (h.onImg (by simp)).mirror
    · exact h
  · exact h

theorem fillPrivate {run new} (h : Formed s) : Formed (fillPrivate run new s) :=
  (addGroups (h.onMem (fun _ => sparseWf_filter _ _ _) (by simp))).foldl fun h => h.writePhys

theorem clearCovered {run new m} (h : Formed s) : Formed (clearCovered run new m s) := h.foldl fun h => h.writePhys
theorem initialCarry {run new m} (h : Formed s) : Formed (initialCarry run new m s) := h.clearCovered.foldl fun h => h.carryWord
theorem archiveStaged {b} (h : Formed s) : Formed (archiveStaged b s) := h.onChg

theorem installStaged {b} (h : Formed s) : Formed (installStaged b s) := by
  unfold Machine.installStaged
  split
  · exact h
  · exact h.claimRuns.archiveStaged.onChg.onPair.fillPrivate.initialCarry.loadResident.setRefs.mirrorGenerations

theorem stageDone {i b} (h : Formed s) : Formed (stageDone i b s) := h.enterOrReturn.endOp
theorem dropForces {l} (h : Formed s) : Formed (dropForces l s) := (h.withTriggers fun h => h.foldl fun h => h.clearForce).settle
theorem stageFails {i} (h : Formed s) : Formed (stageFails i s) := h.discardStaged.endOp

theorem stageInstall {i o b} (h : Formed s) : Formed (stageInstall i o b s) :=
  h.archiveStaged.endOp.ite (h.installStaged.onOp.stageDone.ite
    (h.installStaged.onOp.sendSel.ite h.installStaged.onOp.stageFails))

theorem beginAttempt {revert op r} (h : Formed s) : Formed (beginAttempt revert op r s).2 := by
  unfold Machine.beginAttempt
  exact snd h.accept.onChg

theorem cmdChangeCommit {r} (h : Formed s) : Formed (cmdChangeCommit.effect r s).2 := h.beginAttempt

theorem cmdChangeAbort {r} (h : Formed s) : Formed (cmdChangeAbort.effect r s).2 :=
  h.discardStaged.enterOrReturn.mirrorGenerations

theorem cmdChangeRevert {r} (h : Formed s) : Formed (cmdChangeRevert.effect r s).2 := h.dropForces.beginAttempt

theorem releaseRetained (h : Formed s) : Formed (releaseRetained s) := by
  unfold Machine.releaseRetained
  split
  · exact h
  · exact (h.abortAttempt.dropRetained.foldl fun h => h.giveRun).mirror.mirrorGenerations

theorem cmdChangeRelease {r} (h : Formed s) : Formed (cmdChangeRelease.effect r s).2 := h.releaseRetained
theorem skipControlled {n} (h : Formed s) : Formed (skipControlled n s) := h.onTask.logHw

theorem openWindow {a} (h : Formed s) : Formed (openWindow a s) := by
  unfold Machine.openWindow
  exact h.onOp.onChg

theorem attemptsEnd {a} (h : Formed s) : Formed (attemptsEnd a s) := h.onChg.endOp
theorem attemptFails {a} (h : Formed s) : Formed (attemptFails a s) := h.logHw.onOp.attemptsEnd.ite h.logHw.onOp.onChg

theorem examine {a} (h : Formed s) : Formed (examine a s) :=
  h.openWindow.ite ((h.onOp.foldl fun h => h.skipControlled).onChg.ite h.attemptFails)

theorem attemptBoundary (h : Formed s) : Formed (attemptBoundary s) := by
  unfold Machine.attemptBoundary
  split
  · exact h
  · split
    · exact h.onChg
    · exact h.onChg.ite (h.ite (h.abortAttempt.ite h.examine))

theorem moveRun {k src dst} (h : Formed s) : Formed (moveRun k src dst s) :=
  h.foldl fun h => (h.onImg (by simp)).mirror.mirror.setLive

theorem retypeSlot {a d} (h : Formed s) : Formed (retypeSlot a d s) := (h.onImg (by simp)).mirror.setLive

theorem forwardActions {m} (h : Formed s) : Formed (forwardActions m s) := by
  unfold Machine.forwardActions
  refine h.foldl fun h => ?_
  split
  · exact h.moveRun
  · exact h
  · exact h.retypeSlot

theorem backwardActions {b} (h : Formed s) : Formed (backwardActions b s) := by
  unfold Machine.backwardActions
  refine h.foldl fun h => ?_
  split
  · exact h.moveRun
  · exact h
  · split
    · exact h.retypeSlot
    · exact h

theorem passTasks {p} (h : Formed s) : Formed (passTasks p s) := h.foldl fun h => h.onTask.mirror.timerLead.ite h.onTask.mirror
theorem becomeRunning {p} (h : Formed s) : Formed (becomeRunning p s) := (h.onChg.onMem (by simp) (by simp)).passTasks.replan

theorem switchForward {b run} (h : Formed s) : Formed (switchForward b run s) :=
  ((h.foldl fun h => h.carryTraced).withTriggers fun h => h.forwardActions).onChg.becomeRunning

theorem switchBack {b run} (h : Formed s) : Formed (switchBack b run s) := by
  unfold Machine.switchBack
  extract_lets s1 s2 s3
  have h2 : Formed s2 := ((h.foldl fun h => h.carryTraced).withTriggers fun h => h.backwardActions).onChg.becomeRunning
  have h3 : Formed s3 := h2.foldl fun h => by
    split
    · exact h.giveRun
    · exact h
  exact h3.dropGeneration.dropPages

theorem windowReleases {w} (h : Formed s) : Formed (windowReleases w s) := by
  unfold Machine.windowReleases
  refine h.foldl fun h => ?_
  split
  · exact h.releaseIn.ite h
  · exact h.releaseLatched

theorem endWindow (h : Formed s) : Formed (endWindow s) := by
  unfold Machine.endWindow
  split
  · split
    · exact h.onChg
    · extract_lets s1 s2 s3 s4 s5
      have h1 : Formed s1 := by
        unfold s1
        split
        · exact h.advance.switchBack
        · exact h.advance.switchForward
      have h5 : Formed s5 := h1.onChg.setRefs.enterOrReturn.mirrorGenerations.logHw.endOp.onChg
      exact h5.goHalted.ite h5.windowReleases.settle
  · exact h

/-! ### The event record -/

theorem issueSeq (h : Formed s) : Formed (issueSeq s).2 := by
  unfold Machine.issueSeq
  exact snd h.onLog

theorem writeRepeat (h : Formed s) : Formed (writeRepeat s) := h.onLog.ite h
theorem settleNewest (h : Formed s) : Formed (settleNewest s) := h.writeRepeat.onLog
theorem pushRecord {x} (h : Formed s) : Formed (pushRecord x s) := h.settleNewest.onLog
theorem foldRepeat {e} (h : Formed s) : Formed (foldRepeat e s) := h.onLog

theorem writeEvent {e} (h : Formed s) : Formed (writeEvent e s).2 := by
  unfold Machine.writeEvent
  dsimp only
  split
  · exact h.issueSeq.pushRecord.issueSeq.pushRecord
  · exact h.issueSeq.pushRecord

theorem takeEvent (h : Formed s) : Formed (takeEvent s) := by
  unfold Machine.takeEvent
  split
  · exact h
  · exact (h.onLog.foldRepeat.ite h.onLog.writeEvent).onLog.logHw.ite (h.onLog.foldRepeat.ite h.onLog.writeEvent)

theorem takeEvents {n} (h : Formed s) : Formed (takeEvents n s) := by
  induction n generalizing s with
  | zero => exact h
  | succ n ih => exact ih h.takeEvent

theorem startLog (h : Formed s) : Formed (startLog s) := by
  unfold Machine.startLog
  exact h.onLog.onDev

theorem cmdLogRead {r} (h : Formed s) : Formed (cmdLogRead.effect r s).2 := h.putPayload
theorem cmdLogExport {r} (h : Formed s) : Formed (cmdLogExport.effect r s).2 := h.accept
theorem finishExport {i o} (h : Formed s) : Formed (finishExport i o s) := h.endOp.ite h.putPayload.endOp

theorem cmdLogMark {r} (h : Formed s) : Formed (cmdLogMark.effect r s).2 := by
  unfold Machine.cmdLogMark
  dsimp only
  split
  · exact h.logFw
  · split
    · exact h.logFw.takeEvents
    · exact h.logFw

theorem cmdLogClear {r} (h : Formed s) : Formed (cmdLogClear.effect r s).2 := by
  unfold Machine.cmdLogClear
  dsimp only
  exact h.writeRepeat.writeEvent.onLog

theorem latchLogSeq (h : Formed s) : Formed (latchLogSeq s) := h.onRegs

/-! ### Security -/

theorem tapToReset (h : Formed s) : Formed (tapToReset s) := h.onSec.leaveExtest
theorem closeGrant (h : Formed s) : Formed (closeGrant s) := h.endGrant.leaveExtest.ite h.endGrant
theorem lifecycleChanged (h : Formed s) : Formed (lifecycleChanged s) := h.useNonce.endGrant.tapToReset
theorem blowBit {i} (h : Formed s) : Formed (blowBit i s) := h.onSec.ite h.onSec.lifecycleChanged
theorem cmdAuthNonce {random r} (h : Formed s) : Formed ((cmdAuthNonce random).effect r s).2 := h.issueNonce

theorem newGrant {observe control seconds} (h : Formed s) : Formed (newGrant observe control seconds s) := by
  unfold Machine.newGrant
  dsimp only
  exact h.draw.onSec.logFw

theorem cmdDebugUnlock {r} (h : Formed s) : Formed (cmdDebugUnlock.effect r s).2 := by
  unfold Machine.cmdDebugUnlock
  dsimp only
  split
  · exact h.closeGrant
  · split
    · exact h
    · exact h.newGrant

theorem cmdFuseRead {r} (h : Formed s) : Formed (cmdFuseRead.effect r s).2 := by
  unfold Machine.cmdFuseRead
  dsimp only
  split
  · exact h
  · split
    · exact h
    · exact h.putPayload

theorem cmdFuseProgram {r} (h : Formed s) : Formed (cmdFuseProgram.effect r s).2 := h.accept.onOp
theorem storeKeyOf {r} (h : Formed s) : Formed (storeKeyOf r s) := h.onSec

theorem finishFuse {i o} (h : Formed s) : Formed (finishFuse i o s) := by
  unfold Machine.finishFuse
  dsimp only
  exact ((h.storeKeyOf.ite h).draw.ite (h.storeKeyOf.ite h).draw.logFw).endOp

theorem cmdKeyRevoke {r} (h : Formed s) : Formed (cmdKeyRevoke.effect r s).2 := by
  unfold Machine.cmdKeyRevoke
  exact h.draw.blowBit.blowBit.logFw.ite h

/-! ### Firmware -/

theorem onBank {b f} (h : Formed s) : Formed (onBank b f s) := h.onFw

theorem runBank {n} (h : Formed s) : Formed (runBank n s) := by
  unfold Machine.runBank
  exact h.onFw

theorem recordBank {code n} (h : Formed s) : Formed (recordBank code n s) := h.logFw
theorem scanBanks (h : Formed s) : Formed (scanBanks s) := h.onBank.onBank.onFw.recordBank.ite h.onBank.onBank

theorem beginUpdate {r n} (h : Formed s) : Formed (beginUpdate r n s) := by
  unfold Machine.beginUpdate
  exact h.onFw

theorem cmdFwBegin {r} (h : Formed s) : Formed (cmdFwBegin.effect r s).2 := h.accept.beginUpdate
theorem finishBegin {i o io} (h : Formed s) : Formed (finishBegin i o io s) := (h.ite h.onBank).endOp.ite (h.ite h.onBank).endOp

theorem cmdFwData {r} (h : Formed s) : Formed (cmdFwData.effect r s).2 := by
  unfold Machine.cmdFwData
  dsimp only
  split
  · exact h
  · exact h.onFw.accept

theorem finishData {i o io} (h : Formed s) : Formed (finishData i o io s) := h.endOp.ite (h.onBank.endOp.ite h.onBank.onFw.endOp)
theorem cmdFwFinish {r} (h : Formed s) : Formed (cmdFwFinish.effect r s).2 := h.onFw.accept.waitHere

theorem finishFinish {i o io} (h : Formed s) : Formed (finishFinish i o io s) := by
  unfold Machine.finishFinish
  dsimp only
  refine h.ite ?_
  split
  · exact h.draw.onFw.endOp
  · exact h.draw.onFw.endOp.ite h.draw.onFw.endOp

theorem beginActivate {op r n} (h : Formed s) : Formed (beginActivate op r n s).2 := h.accept.onOp
theorem cmdFwActivate {r} (h : Formed s) : Formed (cmdFwActivate.effect r s).2 := h.beginActivate
theorem cmdFwRevert {r} (h : Formed s) : Formed (cmdFwRevert.effect r s).2 := h.beginActivate

theorem writeSeal {n} (h : Formed s) : Formed (writeSeal n s) := by
  unfold Machine.writeSeal
  exact h.onBank

theorem sealActivation {i o} (h : Formed s) : Formed (sealActivation i o s) :=
  h.ite (h.writeSeal.onFw.endOp.onDev.ite h.writeSeal.onFw.pauseCore)

theorem cmdFwStatus {r} (h : Formed s) : Formed (cmdFwStatus.effect r s).2 := h
theorem abortUpdates (h : Formed s) : Formed (abortUpdates s) := h.foldl fun h => h.endOp

theorem endActivation' (h : Formed s) : Formed (endActivation' s) := by
  unfold Machine.endActivation'
  split
  · exact h
  · exact h.onFw.recordBank.endOp.ite h.onFw.onBank.recordBank.endOp

theorem reloadCore (h : Formed s) : Formed (reloadCore s) := by
  unfold Machine.reloadCore
  split
  · exact h.runBank.abortUpdates.scanBanks.endActivation'.ite h.runBank.abortUpdates.scanBanks.endActivation'.logHw
  · exact h.onFw.logHw.enterFault.ite h.onFw.logHw

theorem startRecord {kind} (h : Formed s) : Formed (startRecord kind s) := h.logFw
theorem enterRecovery (h : Formed s) : Formed (enterRecovery s) := h.onFw.onDev.enter.startRecord
theorem bootFailed {n} (h : Formed s) : Formed (bootFailed n s) := h.onFw.recordBank.enterRecovery.ite h.onFw.recordBank.onDev

end Formed

end Sys2Proof.Proofs
end

section
/-! SUPPORT. The network, power, the start, the stations and the field keep the form. -/

namespace Sys2Proof.Proofs

open Sys2Proof.Machine
open Sys2Proof.Safety

namespace Formed

variable {s t : State}

/-! ### The network's plan -/

theorem onStn {a f} (h : Formed s) : Formed (onStn a f s) := by
  unfold Machine.onStn
  split
  · exact h
  · exact ((h.onNet (by simp)).whenB fun h => h.setCause).ite ((h.onNet (by simp)).whenB fun h => h.setCause).mirror

/-! ### Network commands -/

theorem cmdNetConfig {r} (h : Formed s) : Formed (cmdNetConfig.effect r s).2 := by
  unfold Machine.cmdNetConfig
  dsimp only
  exact h.draw.accept

theorem finishNetConfig {i o} (h : Formed s) : Formed (finishNetConfig i o s) := by
  unfold Machine.finishNetConfig
  dsimp only
  split
  · exact h.endOp
  · exact (h.onNet (by simp)).endOp

theorem cmdNetStart {r} (h : Formed s) : Formed (cmdNetStart.effect r s).2 :=
  ite_snd h (mirror (h.onNet fun _ => List.length_map ..))

theorem endConfigureHalt (h : Formed s) : Formed (endConfigureHalt s) := (h.onNet (by simp)).mirror.ite h

theorem cmdNetStop {r} (h : Formed s) : Formed (cmdNetStop.effect r s).2 := by
  unfold Machine.cmdNetStop
  dsimp only
  split
  · exact (h.endConfigureHalt.onNet (by simp)).mirror
  · exact (h.endConfigureHalt.draw.onNet (by simp)).mirror

theorem cmdNetHaltAllOutputs {r} (h : Formed s) : Formed (cmdNetHaltAllOutputs.effect r s).2 := h.haltOutputs

theorem cmdStationHaltOutputs {r} (h : Formed s) : Formed (cmdStationHaltOutputs.effect r s).2 :=
  h.ite (mirror (h.onNet fun _ => by split <;> rfl))

theorem cmdPtpConfig {r} (h : Formed s) : Formed (cmdPtpConfig.effect r s).2 := (h.onNet (by simp)).mirror

theorem measure {ns} (h : Formed s) : Formed (measure ns s) := by
  unfold Machine.measure
  dsimp only
  exact h.draw.onNet (by simp)

/-! ### Power -/

theorem resetDie (h : Formed s) : Formed (resetDie s) :=
  have hleft := h.leaveExtest (st := .boot)
  { cq := rfl, kq := rfl, engines := rfl, live := rfl, data := rfl, legacy := rfl
    tasks := (List.length_map ..).trans hleft.tasks
    pairs := hleft.pairs
    ports := (List.length_map ..).trans hleft.ports
    ch := (List.length_map ..).trans (List.length_range ..) }

theorem beginBoot {cause} (h : Formed s) : Formed (beginBoot cause s) := by
  unfold Machine.beginBoot
  exact h.resetDie.onDev

theorem dropPower (h : Formed s) : Formed (dropPower s) := by
  unfold Machine.dropPower
  exact h.onDev.resetDie.onDev

theorem leaveService (h : Formed s) : Formed (leaveService s) := h.dropPower.onDev
theorem railsGone (h : Formed s) : Formed (railsGone s) := h.onDev
theorem railsBack (h : Formed s) : Formed (railsBack s) := h.ite h.onDev
theorem tryBoot (h : Formed s) : Formed (tryBoot s) := h.onDev.beginBoot.ite h
theorem loseAon (h : Formed s) : Formed (loseAon s) := h.onDev.onEnergy.onWdg.calendarLost
theorem suspendOps (h : Formed s) : Formed (suspendOps s) := h.onHost (by simp)
theorem resumeOps (h : Formed s) : Formed (resumeOps s) := h.onHost (by simp)

theorem capacitance (h : Formed s) : Formed (capacitance s).2 := by
  unfold Machine.capacitance
  dsimp only
  split
  · exact h
  · exact h.draw (w := 20)

theorem estimate (h : Formed s) : Formed (estimate s) := h.ite (h.capacitance.onEnergy.logHw.ite h.capacitance.onEnergy)
theorem stopFieldAndNet (h : Formed s) : Formed (stopFieldAndNet s) := (h.onNet (by simp)).onFio fun _ => List.length_map ..

theorem beginStage2 (h : Formed s) : Formed (beginStage2 s) := by
  unfold Machine.beginStage2
  extract_lets s1 s2 s3 s4
  have h3 : Formed s3 := h.meterStage.estimate.onEnergy.endWindow.discardAll.stopReleasing
  have h4 : Formed s4 := h3.sendNotice.ite h3
  exact h.ite h4.stopFieldAndNet.writeMarker.onDev.setCause

theorem enterHoldup (h : Formed s) : Formed (enterHoldup s) := by
  unfold Machine.enterHoldup
  extract_lets s1 s2 s3 s4
  have h4 : Formed s4 := h.onDev.enter.onEnergy.suspendOps.setCause.useNonce.endGrant.tapToReset
  exact h4.beginStage2.ite h4

theorem powerLoss {drop} (h : Formed s) (hdrop : ∀ {t}, Formed t → Formed (drop t)) : Formed (powerLoss drop s) := by
  unfold Machine.powerLoss
  cases s.dev.st with
  | configure | stop | run | changing | halted => exact h.enterHoldup
  | holdup => exact h.onDev
  | boot | selftest | recovery | fault => exact hdrop h
  | off | retain => exact h

theorem returnStage1 (h : Formed s) : Formed (returnStage1 s) :=
  h.meterStage.estimate.logHw.onEnergy.resumeOps.enter.onDev.setCause

theorem sealNow (h : Formed s) : Formed (sealNow s) := by
  unfold Machine.sealNow
  exact (h.writeBlocks.onMem (by simp) (by simp)).logHw.takeEvents.onLog.onDev

/-! ### The start -/

theorem countPowerCycle (h : Formed s) : Formed (countPowerCycle s) := h.onDev.ite h
theorem enterSelftest (h : Formed s) : Formed (enterSelftest s) := h.onDev.recordState

theorem bootFirmware {env} (h : Formed s) : Formed (bootFirmware env s) := by
  unfold Machine.bootFirmware
  dsimp only
  split
  · exact h.onFw.countPowerCycle.enterRecovery
  · exact h.onFw.countPowerCycle.enterRecovery.ite
      (h.onFw.countPowerCycle.runBank.scanBanks.enterSelftest.ite h.onFw.countPowerCycle.bootFailed)

theorem recordDropped {b} (h : Formed s) : Formed (recordDropped b s) := h.logHw

theorem coldStart (h : Formed s) : Formed (coldStart s) := by
  unfold Machine.coldStart
  extract_lets drop s0 s1
  have hdrop {o t} (h : Formed t) : Formed (drop o t) := by
    cases o with
    | none => exact h
    | some b => exact h.recordDropped
  have h0 : Formed s0 := hdrop (hdrop (clearForces (h.onImg (by simp))))
  exact { h0 with
    tasks := rfl, engines := rfl, pairs := rfl, ch := (List.length_map ..).trans (List.length_range ..), live := rfl }

theorem checkedCopies {env} (h : Formed s) : Formed (checkedCopies env s) := by
  unfold Machine.checkedCopies
  exact h.onMem (by simp) (by simp)

theorem restoredWord {g i} (h : Formed s) : Formed (restoredWord g i s).2 := by
  unfold Machine.restoredWord
  split
  · exact h
  · exact h.drawPoison

theorem restoreGroup {p e} (h : Formed s) : Formed (restoreGroup p e s) := by
  refine h.foldl fun h => ?_
  split
  · exact (h.restoredWord.onMem (fun _ => sparseWf_writeAt _ _ _ _) (by simp)).ite h
  · exact (h.restoredWord.onImg fun _ => sparseWf_writeAt _ _ _ _).ite h

/-- First contents written into a sparse memory, except where something stands already, keep its canonical form. -/
theorem sparseWf_writeUnless {α β : Type} [DecidableEq β] {d : β} {c : α → Prop} [DecidablePred c] {a : α → Nat} {v : α → β}
    {l : List α} {m : List (Nat × β)} (h : sparseWf d m = true) :
    sparseWf d (l.foldl (fun m e => if c e then m else writeAt d m (a e) (v e)) m) = true := by
  refine sparseWf_foldl (fun m e hm => ?_) h
  split
  · exact hm
  · exact sparseWf_writeAt _ _ _ _ hm

theorem initialContents {p} (h : Formed s) : Formed (initialContents p s) :=
  (h.onMem (fun _ => sparseWf_writeUnless) (by simp)).onImg fun _ => sparseWf_writeUnless

theorem recordRestore (h : Formed s) : Formed (recordRestore s) := by
  unfold Machine.recordRestore
  extract_lets l s1
  have h1 : Formed s1 := by
    unfold s1
    split
    · exact h
    · exact h.onEnergy.logFw
  exact h1.ite h1.logFw

theorem firstImage (h : Formed s) : Formed (firstImage s) := h.onImg fun _ => sparseWf_writeUnless
theorem emptyImage (h : Formed s) : Formed (emptyImage s) := (h.firstImage.foldl fun h => h.restoreGroup).setRefs.recordRestore

theorem dropBeside (h : Formed s) : Formed (dropBeside s) := by
  unfold Machine.dropBeside
  refine onChg ?_
  split
  · exact h.onChg.discardStaged
  · exact (h.onChg.discardStaged.dropRetained.foldl fun h => h.giveRun).recordDropped

theorem reinstall {p} (h : Formed s) : Formed (reinstall p s) :=
  have hrestored := (h.onChg.initialContents.foldl fun h => h.restoreGroup).recordRestore
  loadResident (setRefs (hrestored.onScan fun _ => ⟨List.length_map .., rfl, rfl⟩))

theorem verifyPairs {fails} (h : Formed s) : Formed (verifyPairs fails s) := by
  refine h.foldl fun h => ?_
  split
  · exact h.onScan (by simp [modifyNth])
  · exact h.onScan (by simp [modifyNth])
  · exact ((h.onScan (by simp [modifyNth])).setDualFault.logHw).ite (h.onScan (by simp [modifyNth]))

theorem drawTick (h : Formed s) : Formed (drawTick s) := by
  unfold Machine.drawTick
  dsimp only
  exact h.draw.onDev

theorem warmStart {env} (h : Formed s) : Formed (warmStart env s) := by
  unfold Machine.warmStart
  refine verifyPairs (onImg ?_ (by simp))
  split
  · exact h.drawTick.dropBeside.checkedCopies.reinstall
  · exact h.drawTick.dropBeside.checkedCopies.emptyImage

theorem finishSelftest (h : Formed s) : Formed (finishSelftest s) := by
  unfold Machine.finishSelftest
  exact ((((h.onFio (by simp)).onMem (by simp) (by simp)).setHaltAll.ite ((h.onFio (by simp)).onMem (by simp) (by simp))).onNet
    (by simp)).onFw.onWdg

theorem loadCurve (h : Formed s) : Formed (loadCurve s) := by
  unfold Machine.loadCurve
  split
  · exact h.setCurve
  · exact h.setCurve

theorem recordRetained {i} (h : Formed s) : Formed (recordRetained i s) := h.onAlarm.logFw.ite h

theorem leaveSelftest {kind st} (h : Formed s) : Formed (leaveSelftest kind st s) := by
  have hleft := ((h.enter (st := st)).startRecord (kind := kind)).recordRetained (i := 0) |>.recordRetained (i := 1)
  exact hleft.ite (hleft.onPair.ite (hleft.onDev.ite hleft))

/-! ### Stations -/

theorem onSession {a f} (h : Formed s) : Formed (onSession a f s) := h.onStn

theorem endStationOp {a i status reason code} (h : Formed s) : Formed (endStationOp a i status reason code s) := by
  unfold Machine.endStationOp
  split
  · exact h.endOp
  · exact h

theorem setAux {i k v} (h : Formed s) : Formed (setAux i k v s) := h.onOp
theorem openSession {a kind hh restarted} (h : Formed s) : Formed (openSession a kind hh restarted s) := h.onStn
theorem setMessage {a type body} (h : Formed s) : Formed (setMessage a type body s) := h.onSession

theorem closeSession {a status reason code abort} (h : Formed s) : Formed (closeSession a status reason code abort s) := by
  unfold Machine.closeSession
  dsimp only
  split
  · exact h
  · split
    · exact h
    · split
      · exact h.logFw.onStn.endStationOp
      · exact h.logFw.onStn

theorem commitUnknown {a hh} (h : Formed s) : Formed (commitUnknown a hh s) := by
  unfold Machine.commitUnknown
  refine onStn ?_
  split
  · exact h.setAux
  · exact h

theorem closeUnresolved {a status reason code abort} (h : Formed s) : Formed (closeUnresolved a status reason code abort s) := by
  unfold Machine.closeUnresolved
  split
  · exact (h.commitUnknown.ite h).closeSession
  · exact h

theorem closeRefused {a status reason code} (h : Formed s) : Formed (closeRefused a status reason code s) := by
  unfold Machine.closeRefused
  split
  · exact h.onStn.closeSession.ite h.closeUnresolved
  · exact h

theorem restartSession {a} (h : Formed s) : Formed (restartSession a s) := by
  unfold Machine.restartSession
  split
  · exact h.closeUnresolved.ite h.openSession
  · exact h

theorem confirmCommit {a p} (h : Formed s) : Formed (confirmCommit a p s) := by
  unfold Machine.confirmCommit
  split
  · exact h
  · exact h.onStn.setMessage.onSession

theorem committedConfig {a i} (h : Formed s) : Formed (committedConfig a i s) := by
  unfold Machine.committedConfig
  split
  · exact h.setAux.setAux.confirmCommit
  · exact h

theorem chunkOrCommit {a k obj} (h : Formed s) : Formed (chunkOrCommit a k obj s) := h.setMessage.onSession.ite h.setMessage

theorem admitStation {a i} (h : Formed s) : Formed (admitStation a i s) := by
  unfold Machine.admitStation
  split
  · exact h.onStn.onOp.closeSession
  · exact h

theorem resolveCommit {a active} (h : Formed s) : Formed (resolveCommit a active s) := by
  unfold Machine.resolveCommit
  split
  · exact h.onStn.ite (h.confirmCommit.ite (h.onStn.ite h.commitUnknown))
  · exact h

theorem stationReturned {a changed} (h : Formed s) : Formed (stationReturned a changed s) := by
  unfold Machine.stationReturned
  split
  · exact h.onStn.endStationOp.ite h
  · exact h

theorem verified {a ident active} (h : Formed s) : Formed (verified a ident active s) := by
  unfold Machine.verified
  split
  · exact h
  · extract_lets differs s0 s1 changed s2 s3 s4
    have h1 : Formed s1 := h.onStn.ite h.onStn.closeSession
    have h2 : Formed s2 := h1.logFw.ite h1
    exact h1.resolveCommit.ite (h1.onStn.logFw.ite h2.resolveCommit.onStn.stationReturned)

theorem resolvedIn {a i active parameter e} (h : Formed s) : Formed (resolvedIn a i active parameter e s) := by
  unfold Machine.resolvedIn
  split
  · exact h
  · exact (h.committedConfig.ite h.setAux.onStn.closeSession).ite (h.commitUnknown.closeSession.ite h.setAux.onStn.closeSession)

theorem diagAnswered {a i data} (h : Formed s) : Formed (diagAnswered a i data s) := by
  unfold Machine.diagAnswered
  split
  · exact h
  · exact h.setAux.setAux.closeSession.ite h.setAux.setAux.putPayload.closeSession

theorem answerOk {a e data} (h : Formed s) : Formed (answerOk a e data s) := by
  unfold Machine.answerOk
  split
  · exact h.verified.ite h.closeSession
  · split
    · split
      · exact h
      · exact h.setAux.setMessage
    · exact h.admitStation
    · exact h.closeSession.ite h.chunkOrCommit
    · exact h.chunkOrCommit
    · exact h.chunkOrCommit
    · exact (h.setAux.ite h).onOp.chunkOrCommit
    · exact (h.setAux.ite h).onOp.chunkOrCommit
    · exact (h.setAux.ite h).onOp.chunkOrCommit
    · exact h.committedConfig
    · exact h.closeSession
    · exact h.setAux.onStn.closeSession
    · exact h.setMessage.onSession.ite h.closeSession
    · exact h.logFw.onStn
    · split
      · exact h.setMessage
      · exact h
    · exact h.diagAnswered
    · exact h.resolvedIn

theorem answered {a e status data} (h : Formed s) : Formed (answered a e status data s) := by
  unfold Machine.answered
  extract_lets s1
  have h1 : Formed s1 := by
    unfold s1
    split
    · exact h.setAux.ite h
    · exact h
  split
  · exact h1.answerOk
  · exact h1.onSession
  · exact h1.closeRefused
  · exact h1.restartSession
  · exact h1.closeRefused
  · exact h1.closeRefused
  · exact h1.closeRefused
  · exact h1.onStn.onSession

theorem epochEndsSession {a} (h : Formed s) : Formed (epochEndsSession a s) := by
  unfold Machine.epochEndsSession
  split
  · exact h.restartSession.ite h.closeUnresolved
  · exact h

theorem enterVerifying {a epoch} (h : Formed s) : Formed (enterVerifying a epoch s) := by
  unfold Machine.enterVerifying
  split
  · exact h
  · exact h.ite (h.logHw.onStn.epochEndsSession.ite h)

theorem epochEndsAdmission {a} (h : Formed s) : Formed (epochEndsAdmission a s) := by
  unfold Machine.epochEndsAdmission
  split
  · exact h.closeSession.ite h
  · exact h

theorem newerEpoch {a epoch} (h : Formed s) : Formed (newerEpoch a epoch s) := h.enterVerifying.ite h.epochEndsAdmission

theorem seenEpochs (h : Formed s) : Formed (seenEpochs s) := by
  unfold Machine.seenEpochs
  refine h.foldl fun h => ?_
  split
  · exact h.onStn.newerEpoch
  · exact h

theorem rejectUp {a} (h : Formed s) : Formed (rejectUp a s) := h.onStn.onSession

theorem announced {a m} (h : Formed s) : Formed (announced a m s) := by
  unfold Machine.announced
  split
  · refine h.rejectUp.ite ?_
    split
    · extract_lets ident s1
      have h1 : Formed s1 := h.putPayload.ite h
      exact h.onSession.onStn.onOp.ite (h1.closeSession.ite (h1.closeSession.ite h1.onStn.onOp.openSession))
    · exact h
  · exact h.rejectUp

theorem answerFrame {a m} (h : Formed s) : Formed (answerFrame a m s) := by
  unfold Machine.answerFrame
  split
  · exact h
  · split
    · exact h.onStn
    · exact h.onStn.ite (h.answered.ite h.rejectUp)

theorem notified {a m} (h : Formed s) : Formed (notified a m s) := by
  unfold Machine.notified
  split
  · exact h
  · exact (h.ite h.logFw).onStn

theorem sessionUp {a b} (h : Formed s) : Formed (sessionUp a b s) := by
  unfold Machine.sessionUp
  split
  · exact h.announced.ite (h.rejectUp.ite (h.newerEpoch.ite (h.announced.ite (h.answerFrame.ite (h.notified.ite h.rejectUp)))))
  · exact h.rejectUp

theorem sendAdmit {a i} (h : Formed s) : Formed (sendAdmit a i s) := by
  unfold Machine.sendAdmit
  split
  · exact h.onStn.onSession.setAux
  · exact h

theorem sendCommit {a e} (h : Formed s) : Formed (sendCommit a e s) := h.onStn.onSession

theorem firstSend {a e} (h : Formed s) : Formed (firstSend a e s) := by
  unfold Machine.firstSend
  dsimp only
  split
  · exact h
  · split
    · exact (h.onOp.ite h).sendAdmit
    · exact (h.onOp.ite h).sendCommit
    · exact (h.onOp.ite h).onSession
    · exact h.onOp.ite h

theorem countGrant {a c} (h : Formed s) : Formed (countGrant a c s) := h.onSession.ite (h.onSession.ite h)
theorem putDown {key a b} (h : Formed s) : Formed (putDown key a b s) := h.onPort

theorem sendMessage {key a} (h : Formed s) : Formed (sendMessage key a s) := by
  unfold Machine.sendMessage
  dsimp only
  split
  · exact h
  · split
    · exact (h.firstSend.ite h).onSession.putDown
    · exact h.firstSend.ite h

theorem sendDown {key a c} (h : Formed s) : Formed (sendDown key a c s) := by
  unfold Machine.sendDown
  split
  · exact h
  · split
    · exact h.countGrant.onStn.putDown
    · exact h.countGrant.onStn.putDown
    · exact h.countGrant.sendMessage.ite h.countGrant

theorem grantLine {key} (h : Formed s) : Formed (grantLine key s) := by
  unfold Machine.grantLine
  dsimp only
  split
  · exact h.onPort.onStn
  · exact h.onPort.onStn.sendDown
  · exact h.onPort

theorem cancelSessions (h : Formed s) : Formed (cancelSessions s) := by
  unfold Machine.cancelSessions
  refine h.foldl fun h => ?_
  split
  · exact h.closeSession.ite h
  · exact h

theorem beginStation {i o} (h : Formed s) : Formed (beginStation i o s) := by
  unfold Machine.beginStation
  dsimp only
  split
  · exact h.endStationOp
  · refine h.ite (h.endStationOp.ite ?_)
    split
    · exact h.onStn
    · exact h.onOp.setAux.endStationOp.ite h.onOp.setAux.openSession
    · exact (h.ite (h.endStationOp.ite h.onOp.setAux.waitHere)).ite (h.openSession.ite h)
    · exact h.setAux.endStationOp.ite h.setAux.openSession

theorem beginStations (h : Formed s) : Formed (beginStations s) := by
  unfold Machine.beginStations
  refine h.foldl fun h => ?_
  split
  · exact h.ite h.beginStation
  · exact h

theorem countWaits (h : Formed s) : Formed (countWaits s) := by
  unfold Machine.countWaits
  refine h.foldl fun h => ?_
  split
  · exact h.onSession.ite h
  · exact h

theorem openVerifications (h : Formed s) : Formed (openVerifications s) := h.foldl fun h => h.onStn.openSession.ite h

theorem finishStore {i o io} (h : Formed s) : Formed (finishStore i o io s) := by
  unfold Machine.finishStore
  refine h.ite ?_
  split
  · exact (h.onNet (by simp)).onOp.setAux.waitHere
  · exact h.endStationOp

theorem releaseStation {a k} (h : Formed s) : Formed (releaseStation a k s) := by
  unfold Machine.releaseStation
  extract_lets s1 s2 s3
  have h1 : Formed s1 := h.closeUnresolved.ite h
  have h2 : Formed s2 := by
    unfold s2
    split
    · exact h1.endStationOp
    · exact h1
  exact ((h2.onNet (by simp)).mirror.ite h2).onStn

theorem applySchedule (h : Formed s) : Formed (applySchedule s) := by
  unfold Machine.applySchedule
  split
  · exact h.ite ((h.foldl fun h => h.releaseStation).onNet fun _ => by rfl).mirror.mirror
  · exact h

theorem applyEntries (h : Formed s) : Formed (applyEntries s) := by
  unfold Machine.applyEntries
  refine h.foldl fun h => ?_
  split
  · exact h.onStn.ite h
  · exact h

/-! ### The pair's objects and deltas -/

theorem raiseEpoch (h : Formed s) : Formed (raiseEpoch s) := by
  unfold Machine.raiseEpoch
  split
  · exact h.onPair.mirror
  · exact h

theorem recordRole {code jh lost} (h : Formed s) : Formed (recordRole code jh lost s) := by
  unfold Machine.recordRole
  dsimp only
  exact h.draw.logHw.setCause

theorem recordPair {code task} (h : Formed s) : Formed (recordPair code task s) := h.logHw.setCause.ite h.logHw
theorem closeDelta (h : Formed s) : Formed (closeDelta s) := h.ite (h.onPair.sendSel.sendSel.ite h.onPair.onPair.recordPair)
theorem rawTask {n f} (h : Formed s) : Formed (rawTask n f s) := h.onScan fun _ => ⟨List.length_modify .., rfl, rfl⟩

theorem mirroredLatch {on l} (h : Formed s) : Formed (mirroredLatch on l s).2 := by
  unfold Machine.mirroredLatch
  split
  · exact h
  · split
    · exact h
    · exact (h.draw (w := 4)).draw (w := 40)

theorem applyTask {n m} (h : Formed s) : Formed (applyTask n m s) := h.mirroredLatch.rawTask

theorem applyData {a l} (h : Formed s) : Formed (applyData a l s) := by
  induction l generalizing a s with
  | nil => exact h
  | cons w r ih => exact ih h.writePhys.markPhys

theorem applyImage {a l} (h : Formed s) : Formed (applyImage a l s) := by
  induction l generalizing a s with
  | nil => exact h
  | cons w r ih => exact ih h.setLive

theorem applyLegacy {a l} (h : Formed s) : Formed (applyLegacy a l s) := by
  induction l generalizing a s with
  | nil => exact h
  | cons w r ih => exact ih (h.onMem (fun _ => id) fun _ => sparseWf_writeAt _ _ _ _)

theorem applySwitch (h : Formed s) : Formed (applySwitch s) := by
  unfold Machine.applySwitch
  split
  · exact h.switchForward.setRefs.enterOrReturn
  · exact h.switchBack.setRefs
  · exact h

theorem applyMark {m} (h : Formed s) : Formed (applyMark m s) := by
  unfold Machine.applyMark
  split
  · exact h.applySwitch
  · exact h.discardStaged
  · exact h.releaseRetained
  · exact h

theorem applySched {f} (h : Formed s) : Formed (applySched f s) := h.onNet (by simp)

theorem applyRec {r} (h : Formed s) : Formed (applyRec r s) := by
  unfold Machine.applyRec
  cases r with
  | data a ws => exact h.applyData
  | image a ws => exact h.applyImage
  | legacy a ws => exact h.applyLegacy
  | task n m => exact h.applyTask
  | schedRec n c => exact h.rawTask
  | freeRun b o => exact h.giveRun
  | pairState k st => exact h.onScan (by simp [modifyNth])
  | forceSet | forceClear | forceClearAll | slotDesc | discrepancy => exact h.onImg (by simp)
  | haltAll | haltBit | stationState | network | ptp => exact h.onNet (by simp)
  | ports | stations => exact h.applySched
  | pairConfig | roleEpoch => exact h.onPair
  | generations g a b => exact h.onChg
  | channels l => exact { h with ch := (List.length_map ..).trans (List.length_range ..) }
  | mark m => exact h.applyMark
  | allocRun b o =>
    dsimp only
    split
    · exact h.onImg (by simp)
    · exact h
  | device n =>
    dsimp only
    split
    · exact (h.replan.ite h).enter.ite h
    · exact h

theorem applyRecs {l} (h : Formed s) : Formed (applyRecs l s) := h.foldl fun h => h.applyRec
theorem deenergise (h : Formed s) : Formed (deenergise s) := h.onFio fun _ => List.length_map ..

theorem becomeSyncing (h : Formed s) : Formed (becomeSyncing s) := by
  unfold Machine.becomeSyncing
  split
  case h_6 => exact h
  all_goals exact (h.stopProgram.deenergise.onPair.onNet (by simp)).takeRole

theorem discardAllPairState (h : Formed s) : Formed (discardAllPairState s) :=
  { cq := h.cq, kq := h.kq, tasks := rfl, engines := rfl, pairs := h.pairs, ports := h.ports, ch := h.ch
    live := rfl, data := rfl, legacy := rfl }

theorem syncingEnds (h : Formed s) : Formed (syncingEnds s) :=
  (h.enterOrReturn.ite h.discardAllPairState.enterOrReturn).onPair.takeRole

theorem yieldNow (h : Formed s) : Formed (yieldNow s) := h.sendNotice.becomeSyncing.recordRole
theorem becomePrimary (h : Formed s) : Formed (becomePrimary s) := h.onPair.raiseEpoch.takeRole
theorem detectLoss {time} (h : Formed s) : Formed (detectLoss time s) := h.ite (h.onPair.ite h.becomeSyncing)

theorem leaveAsPartner (h : Formed s) : Formed (leaveAsPartner s) := by
  unfold Machine.leaveAsPartner
  split
  · exact h.stopProgram.enterOrReturn.onPair.takeRole
  · exact h.syncingEnds
  · exact h.onPair.takeRole
  · exact h

/-! ### The field -/

theorem writeInputSlot {c} (h : Formed s) : Formed (writeInputSlot c s) := by
  unfold Machine.writeInputSlot
  split
  · exact h.withTriggers fun h => h.setLive
  · exact h

theorem carryChannel {c} (h : Formed s) : Formed (carryChannel c s) :=
  h.onCh.ite (h.onCh.writeInputSlot.ite (h.onCh.writeInputSlot.foldl fun h => h.fireTrigger))

theorem writeInputSlots (h : Formed s) : Formed (writeInputSlots s) := h.foldl fun h => h.writeInputSlot.ite h
theorem testMark {i k c} (h : Formed s) : Formed (testMark i k c s) := h.onOp

theorem nextPulse {i time l} (h : Formed s) : Formed (nextPulse i time l s) := by
  induction l generalizing s with
  | nil =>
    unfold Machine.nextPulse
    split
    · exact (h.onFio (by simp)).endOp
    · exact h.onFio (by simp)
  | cons c r ih => exact (ih h.testMark).ite (h.onFio (by simp)).onCh

theorem pulseAtSample {time} (h : Formed s) : Formed (pulseAtSample time s) := by
  unfold Machine.pulseAtSample
  split
  · split
    · exact h.onFio (by simp)
    · exact (h.onFio (by simp)).ite (h.ite ((h.onFio (by simp)).endOp.ite h.nextPulse))
  · exact h

theorem latchHalt (h : Formed s) : Formed (latchHalt s) := h.onFio (by simp)

theorem latchLocal (h : Formed s) : Formed (latchLocal s) := by
  unfold Machine.latchLocal
  exact h.latchHalt.onFio (by simp)

theorem applyChannel {c} (h : Formed s) : Formed (applyChannel c s) := (((h.ite h.onCh).onFio (by simp)).ite (h.ite h.onCh)).onCh
theorem applyLocal (h : Formed s) : Formed (applyLocal s) := (h.onFio (by simp)).foldl fun h => h.applyChannel
theorem configureChannel {r c} (h : Formed s) : Formed (configureChannel r c s) := h.ite h.onCh
theorem cmdFioConfig {r} (h : Formed s) : Formed (cmdFioConfig.effect r s).2 := (h.foldl fun h => h.configureChannel).mirror
theorem cmdFioStatus {r} (h : Formed s) : Formed (cmdFioStatus.effect r s).2 := h.putPayload.ite h

theorem cmdFioTestPulse {r} (h : Formed s) : Formed (cmdFioTestPulse.effect r s).2 := by
  unfold Machine.cmdFioTestPulse
  dsimp only
  exact h.accept.onFio (by simp)

/-! ### Station commands -/

theorem cmdStationAdmit {r} (h : Formed s) : Formed (cmdStationAdmit.effect r s).2 := (h.releaseStation.ite h).accept
theorem cmdStationConfigure {r} (h : Formed s) : Formed (cmdStationConfigure.effect r s).2 := h.accept
theorem cmdStationFirmware {r} (h : Formed s) : Formed (cmdStationFirmware.effect r s).2 := h.accept
theorem cmdStationDiag {r} (h : Formed s) : Formed (cmdStationDiag.effect r s).2 := h.accept
theorem cmdStationRelease {r} (h : Formed s) : Formed (cmdStationRelease.effect r s).2 := h.ite h.releaseStation
theorem sessionExhausted {a e} (h : Formed s) : Formed (sessionExhausted a e s) := h.openSession.onSession.ite h.closeUnresolved

/-! ### Frames that come in -/

theorem countDrop {p d} (h : Formed s) : Formed (countDrop p d s) := h.onPort
theorem countPtp {p} (h : Formed s) : Formed (countPtp p s) := h.onPort
theorem markSeen {p f c} (h : Formed s) : Formed (markSeen p f c s) := h.onPort
theorem markValid {p f c} (h : Formed s) : Formed (markValid p f c s) := h.onPort

theorem noteFailFlag {a f} (h : Formed s) : Formed (noteFailFlag a f s) := by
  unfold Machine.noteFailFlag
  split
  · exact h.ite h.onStn.logHw
  · exact h

theorem noteDelay {a f} (h : Formed s) : Formed (noteDelay a f s) := by
  unfold Machine.noteDelay
  split
  · exact h.onStn.logFw.ite h
  · exact h

theorem countInput {a f} (h : Formed s) : Formed (countInput a f s) := h.onStn
theorem rejoinSeen {a} (h : Formed s) : Formed (rejoinSeen a s) := h.onStn.logHw
theorem stationAlarm {a f} (h : Formed s) : Formed (stationAlarm a f s) := (h.foldl fun h => h.fireTrigger).settle.ite h
theorem showsEpoch {a epoch} (h : Formed s) : Formed (showsEpoch a epoch s) := h.newerEpoch.ite h.onStn

theorem takeInput {p a f} (h : Formed s) : Formed (takeInput p a f s) := by
  unfold Machine.takeInput
  split
  · exact h
  · refine h.countDrop.ite (h.showsEpoch.ite ?_)
    split
    · exact h.noteFailFlag.noteDelay.stationAlarm.rejoinSeen.ite h.noteFailFlag.noteDelay.stationAlarm.countInput
    · exact h.noteFailFlag.noteDelay.stationAlarm.rejoinSeen.ite h.noteFailFlag.noteDelay.stationAlarm.countInput
    · exact h.noteFailFlag.noteDelay.stationAlarm.countInput
    · exact h.noteFailFlag.noteDelay.stationAlarm.countInput
    · exact h

theorem relayUp {p a f} (h : Formed s) : Formed (relayUp p a f s) := h.onPair.sendSel.ite h

theorem takeFrame {p f c} (h : Formed s) : Formed (takeFrame p f c s) := by
  unfold Machine.takeFrame
  extract_lets ring copy s1 a own
  have h1 : Formed s1 := h.markSeen
  refine h.countDrop.ite (h1.countDrop.ite ?_)
  split
  · exact h1
  · exact h1.countDrop.ite h1.markValid.onPort
  · refine ite ((h1.onNet (by simp)).ite h1).countDrop ?_
    split
    · exact h1.countDrop
    · extract_lets s2
      have h2 : Formed s2 := h1.markValid.onPort.relayUp
      exact h2.countDrop.ite (h2.takeInput.ite (h2.sessionUp.ite h2))

theorem receive {p f} (h : Formed s) : Formed (receive p f s) := by
  unfold Machine.receive
  dsimp only
  refine h.ite ?_
  split
  · exact h.advance.countDrop
  · exact h.advance.countPtp
  · exact h.advance.takeFrame

theorem writeInputs {a f} (h : Formed s) : Formed (writeInputs a f s) := by
  unfold Machine.writeInputs
  exact h.withTriggers fun h => h.foldl fun h => h.setLive

theorem inputsCounted {a ins d} (h : Formed s) : Formed (inputsCounted a ins d s) := h.writeInputs
theorem inputsStale {a} (h : Formed s) : Formed (inputsStale a s) := h.writeInputs
theorem inputsLost {a} (h : Formed s) : Formed (inputsLost a s) := h.writeInputs
theorem inputsLeft {a was} (h : Formed s) : Formed (inputsLeft a was s) := h.writeInputs

theorem missingSlots {a x} (h : Formed s) : Formed (missingSlots a x s) :=
  (h.inputsLost.onStn.logHw.ite h.inputsLost).ite h.inputsStale

theorem countMissing {key} (h : Formed s) : Formed (countMissing key s) := h.onPort

theorem cutMissing {key a x} (h : Formed s) : Formed (cutMissing key a x s) := by
  unfold Machine.cutMissing
  extract_lets n s2 s3 s4
  have h2 : Formed s2 := h.countMissing.onStn
  have h3 : Formed s3 := h2.logHw.ite h2
  exact (h3.onStn.logHw.ite h3).missingSlots

theorem cutCounted {a x f} (h : Formed s) : Formed (cutCounted a x f s) := by
  unfold Machine.cutCounted
  extract_lets s1 s2
  have h2 : Formed s2 := h.onStn.logHw.ite h.onStn
  exact h2.inputsStale.ite h2.inputsCounted

theorem cutStation {a} (h : Formed s) : Formed (cutStation a s) := by
  unfold Machine.cutStation
  split
  · extract_lets down due s1 s2
    have h1 : Formed s1 := by
      refine h.ite (h.countMissing.missingSlots.ite ?_)
      split
      · exact h.cutCounted
      · exact h.cutMissing
    refine ite ?_ (h1.inputsLost.ite h1).onStn
    split
    · exact (h.countMissing.ite h).inputsLost
    · exact (h.countMissing.ite h).inputsLeft
  · split
    · exact h.inputsLeft
    · exact h.inputsLost

theorem judgeRing {key l} (h : Formed s) : Formed (judgeRing key l s) :=
  h.onPort.ite ((h.onPort.logHw.ite h.onPort).ite (h.ite h.onPort))

theorem cutRing {key} (h : Formed s) : Formed (cutRing key s) := h.ite (h.onPort.ite h.judgeRing)
theorem cutNewer (h : Formed s) : Formed (cutNewer s) := (h.onNet (by simp)).onPair.ite (h.onNet (by simp))

end Formed

end Sys2Proof.Proofs
end

section
/-! SUPPORT. The base tick, the device pair and the host interface keep the form. -/

namespace Sys2Proof.Proofs

open Sys2Proof.Machine
open Sys2Proof.Safety

namespace Formed

variable {s t : State}

/-! ### The base tick -/

theorem overrunTask {n} (h : Formed s) : Formed (overrunTask n s) := h.onTask.logHw
theorem dueRelease {n} (h : Formed s) : Formed (dueRelease n s) := h.ite (h.overrunTask.ite (h.release.ite h))

theorem windowDue {n} (h : Formed s) : Formed (windowDue n s) := by
  unfold Machine.windowDue
  split
  · exact h
  · exact h.ite (h.skipControlled.ite h).onChg

theorem startRearmed (h : Formed s) : Formed (startRearmed s) := h.foldl fun h => h.startTimer.ite h

theorem releaseBoundary (h : Formed s) : Formed (releaseBoundary s) := by
  unfold Machine.releaseBoundary
  split
  · exact h
  · exact h.ite (((h.startRearmed.ite h).foldl fun h => h.windowDue).ite
      ((h.startRearmed.ite h).foldl fun h => (h.dueRelease.ite h).releaseLatched))

theorem latchOutputs (h : Formed s) : Formed (latchOutputs s) := by
  unfold Machine.latchOutputs
  exact h.onImg (by simp)

theorem updateViews (h : Formed s) : Formed (updateViews s) := by
  unfold Machine.updateViews
  exact (h.onImg (by simp)).onScan (by simp)

theorem clearCycle (h : Formed s) : Formed (clearCycle s) := (h.onNet fun _ => List.length_map ..).onPair

theorem sendOutput {key x} (h : Formed s) : Formed (sendOutput key x s) := by
  unfold Machine.sendOutput
  dsimp only
  split
  · exact h.draw.onPort.ite h
  · exact h

theorem relayLine {key} (h : Formed s) : Formed (relayLine key s) := (h.foldl fun h => h.onPair.sendSel).ite h
theorem copyEnd {key} (h : Formed s) : Formed (copyEnd key s) := h.onPort.ite h
theorem sendLine {key} (h : Formed s) : Formed (sendLine key s) := (h.onPort.foldl fun h => h.sendOutput).copyEnd.relayLine

theorem sessionWork (h : Formed s) : Formed (sessionWork s) :=
  (h.seenEpochs.countWaits.cancelSessions.beginStations.openVerifications.ite h).foldl fun h => h.grantLine

theorem carried (h : Formed s) : Formed (carried s) := h.onNet (by simp)
theorem sendFrames (h : Formed s) : Formed (sendFrames s) := (h.foldl fun h => h.sendLine).carried

theorem masterCycle (h : Formed s) : Formed (masterCycle s) :=
  (h.onNet (by simp)).onPair.sessionWork.sendFrames.ite (h.onNet (by simp)).onPair.carried

theorem joined {n} (h : Formed s) : Formed (joined n s) := by
  unfold Machine.joined
  split
  · exact h.sendSel.onPair.endOp
  · exact h.sendSel.onPair

theorem joinFails (h : Formed s) : Formed (joinFails s) := h.recordPair.endSync.sendSel

theorem applyDue (h : Formed s) : Formed (applyDue s) := by
  unfold Machine.applyDue
  refine h.ite ?_
  split
  · exact h.takeRole.applyRecs.onPair.joined.ite h.takeRole.applyRecs.onPair
  · exact h.joinFails.ite (h.ite h.recordPair.becomeSyncing)

theorem abandonSwitchover (h : Formed s) : Formed (abandonSwitchover s) := h.onPair.recordPair

theorem examineSwitchover (h : Formed s) : Formed (examineSwitchover s) := by
  unfold Machine.examineSwitchover
  split
  · exact h
  · exact h.ite (h.abandonSwitchover.ite
      (h.onPair.ite ((h.foldl fun h => h.skipControlled).onPair.ite (h.foldl fun h => h.recordPair).discardAll.onPair)))

theorem joinPartner (h : Formed s) : Formed (joinPartner s) := h.ite (h.onPair.takeRole.closeDelta.sendSel.ite h.onPair.sendSel)
theorem markSwitch (h : Formed s) : Formed (markSwitch s) := h.mirror.ite h

theorem pairBoundary (h : Formed s) : Formed (pairBoundary s) :=
  have hjoined := h.applyDue.examineSwitchover.joinPartner
  hjoined.ite (hjoined.markSwitch.ite hjoined.markSwitch.closeDelta)

theorem sendTickStatus (h : Formed s) : Formed (sendTickStatus s) := h.sendSel.ite h
theorem stepTimebase (h : Formed s) : Formed (stepTimebase s) := (h.onDev.onNet (by simp)).logFw.ite (h.onNet (by simp))
theorem nextTick (h : Formed s) : Formed (nextTick s) := h.onDev.advance.stepTimebase

theorem boundary (h : Formed s) : Formed (boundary s) := by
  unfold Machine.boundary
  extract_lets s1 s2 s3 s4 s5
  have h3 : Formed s3 :=
    h.applyLocal.pairBoundary.clearCycle.applySchedule.applyEntries.attemptBoundary.releaseBoundary
  have h5 : Formed s5 := (h3.latchHalt.ite h3.latchOutputs.latchLocal).masterCycle
  exact h.ite (h5.ite h5.updateViews).leadLoads.captureEnds.settle.sendTickStatus

/-! ### Core commands -/

theorem cmdEcho {r} (h : Formed s) : Formed (cmdEcho.effect r s).2 := h
theorem cmdGetInfo {r} (h : Formed s) : Formed (cmdGetInfo.effect r s).2 := h
theorem cmdGetState {r} (h : Formed s) : Formed (cmdGetState.effect r s).2 := h

theorem cmdHandleQuery {r} (h : Formed s) : Formed (cmdHandleQuery.effect r s).2 := by
  unfold Machine.cmdHandleQuery
  dsimp only
  split
  · exact h
  · exact h

theorem releaseHandle {i} (h : Formed s) : Formed (releaseHandle i s) := h.onHost (by simp)

theorem cmdHandleRelease {r} (h : Formed s) : Formed (cmdHandleRelease.effect r s).2 := by
  unfold Machine.cmdHandleRelease
  dsimp only
  split
  · split
    · exact h.releaseHandle
    · exact h
  · exact h

theorem cmdHandleCancel {r} (h : Formed s) : Formed (cmdHandleCancel.effect r s).2 := by
  unfold Machine.cmdHandleCancel
  dsimp only
  split
  · exact h.ite h.onOp
  · exact h

theorem cmdResetDevice {r} (h : Formed s) : Formed (cmdResetDevice.effect r s).2 := by
  unfold Machine.cmdResetDevice
  dsimp only
  exact h.onDev

/-! ### The device pair -/

theorem hear {hh} (h : Formed s) : Formed (hear hh s) := h.onPair

theorem resend {n} (h : Formed s) : Formed (resend n s) := by
  unfold Machine.resend
  split
  · exact h.onPair
  · exact h

theorem beginSwitchover {hold} (h : Formed s) : Formed (beginSwitchover hold s).2 := ite_snd h (ite_snd h (snd h.onPair))

theorem switchoverCommand {hold} (h : Formed s) : Formed (switchoverCommand hold s).2 := by
  unfold Machine.switchoverCommand
  split
  · exact h.beginSwitchover
  · split
    · exact h
    · split
      · exact h
      · exact h.sendNotice
  · exact h

theorem cmdPairSwitchover {r} (h : Formed s) : Formed (cmdPairSwitchover.effect r s).2 := h.switchoverCommand
theorem cmdPairConfig {r} (h : Formed s) : Formed (cmdPairConfig.effect r s).2 := h.onPair.mirror
theorem cmdPairLeave {r} (h : Formed s) : Formed (cmdPairLeave.effect r s).2 := h.sendNotice.endSync.leaveAsPartner
theorem cmdPairStatus {r} (h : Formed s) : Formed (cmdPairStatus.effect r s).2 := h.onPair.ite h
theorem sendOffer (h : Formed s) : Formed (sendOffer s) := h.sendSel
theorem beginSync {hh} (h : Formed s) : Formed (beginSync hh s) := h.onPair.sendOffer
theorem resetEpoch (h : Formed s) : Formed (resetEpoch s) := h.onPair.mirror

theorem cmdPairSync {r} (h : Formed s) : Formed (cmdPairSync.effect r s).2 := by
  unfold Machine.cmdPairSync
  exact h.draw.accept.onPair.ite (h.draw.accept.resetEpoch.ite h.draw.accept).beginSync

theorem sendPhase2 (h : Formed s) : Formed (sendPhase2 s) := by
  unfold Machine.sendPhase2
  extract_lets image s1 s2 s3
  have himage {cur e t} (h : Formed t) : Formed (image cur e t) := by
    unfold image
    split
    · exact h.sendSel
    · exact h
  have h2 : Formed s2 := (himage (himage h)).sendSel
  have h3 : Formed s3 := by
    unfold s3
    split
    · exact h2.sendSel
    · exact h2
  split
  · exact h3.sendSel
  · exact h3

theorem syncProgress {kib} (h : Formed s) : Formed (syncProgress kib s) := by
  unfold Machine.syncProgress
  split
  · exact h.onOp
  · exact h

theorem phaseDone {phase kib} (h : Formed s) : Formed (phaseDone phase kib s) := by
  unfold Machine.phaseDone
  refine h.ite (h.endSync.ite ?_)
  split
  · exact h.syncProgress.onPair.sendPhase2
  · exact h.syncProgress.onPair.sendSel
  · exact h.syncProgress.onPair
  · exact h.syncProgress

theorem partnerJoined {n} (h : Formed s) : Formed (partnerJoined n s) := by
  unfold Machine.partnerJoined
  refine h.ite ?_
  split
  · exact h.onPair.endOp
  · exact h.onPair

theorem stageAnswered {ok} (h : Formed s) : Formed (stageAnswered ok s) := by
  unfold Machine.stageAnswered
  split
  · exact h.onPair.stageDone.ite h.stageFails
  · exact h.onPair.ite h
  · exact h

theorem stageLost (h : Formed s) : Formed (stageLost s) := by
  unfold Machine.stageLost
  split
  · exact h.stageFails.ite h
  · exact h

theorem takeOffer {side serial major} (h : Formed s) : Formed (takeOffer side serial major s) := by
  unfold Machine.takeOffer
  split
  · exact h.discardAllPairState.enter.takeRole.onPair.sendSel
  · exact (h.ite h.onPair.endSync.syncingEnds).sendSel

theorem failSync {status} (h : Formed s) : Formed (failSync status s) := h.onPair.endSync.syncingEnds.sendSel
theorem takeImage {cur slot gen b} (h : Formed s) : Formed (takeImage cur slot gen b s) := h.failSync.ite h.onChg.syncProgress

theorem takeConfig {l} (h : Formed s) : Formed (takeConfig l s) := by
  unfold Machine.takeConfig
  dsimp only
  split
  · exact h.applyRecs.failSync
  · exact h.applyRecs.onChg.firstImage.setRefs.loadResident.addGroups.onPair.syncProgress.sendSel

theorem takeCarryMap {b} (h : Formed s) : Formed (takeCarryMap b s) := by
  unfold Machine.takeCarryMap
  split
  · split
    · exact h.onChg
    · exact h.failSync
  · exact h.failSync

theorem takeStage {slot gen image map} (h : Formed s) : Formed (takeStage slot gen image map s) := by
  unfold Machine.takeStage
  split
  · exact h.installStaged.sendSel
  · exact h.sendSel

theorem judgePair {time} (h : Formed s) : Formed (judgePair time s) := by
  unfold Machine.judgePair
  refine h.ite ?_
  split
  · exact h.yieldNow.ite h
  · refine ite ?_ (h.becomeSyncing.ite h.detectLoss)
    split
    · exact h.onPair.logHw.ite (h.onPair.ite h)
    · exact h.detectLoss
  · exact h

theorem autoSync (h : Formed s) : Formed (autoSync s) := h.beginSync.ite h

theorem linkReturns (h : Formed s) : Formed (linkReturns s) := by
  unfold Machine.linkReturns
  dsimp only
  refine h.ite ?_
  split
  · exact h.onPair.sendOffer
  · exact h.onPair.sendPhase2
  · exact h.onPair.sendSel
  · exact h.onPair

theorem judgeEnds {missed} (h : Formed s) : Formed (judgeEnds missed s) := h.foldl fun h => h.judgeRing.onPort.ite h

theorem corrected {f} (h : Formed s) : Formed (corrected f s).2 := by
  unfold Machine.corrected
  split
  · exact h
  · exact h.draw (w := 16)

theorem setLane {lane on} (h : Formed s) : Formed (setLane lane on s) := h.onPair

theorem partnerLost (h : Formed s) : Formed (partnerLost s) := by
  unfold Machine.partnerLost
  extract_lets s1 s2
  have h2 : Formed s2 := (h.onPair.recordPair.ite h).stageLost
  exact h2.ite h2.endSync

theorem lineLost {time} (h : Formed s) : Formed (lineLost time s) := h.detectLoss.ite h

theorem arbitrated (h : Formed s) : Formed (arbitrated s) :=
  (h.becomePrimary.onNet (by simp)).onDev.ite (h.becomePrimary.onNet (by simp))

theorem loseActivation {n} (h : Formed s) : Formed (loseActivation n s) := h.onTask.recordPair.ite h

theorem takeoverRelease {j n} (h : Formed s) : Formed (takeoverRelease j n s) := by
  unfold Machine.takeoverRelease
  split
  · exact h
  · exact h.onTask.releaseIn.ite h

theorem resumeReleasing (h : Formed s) : Formed (resumeReleasing s) := h.onDev.ite h

theorem takeOver (h : Formed s) : Formed (takeOver s) := by
  unfold Machine.takeOver
  extract_lets n s1 j s2 lost s3 s4 s5 s6
  have h1 : Formed s1 := by
    unfold s1
    split
    · exact h.applyRecs.onPair.ite h
    · exact h
  have h3 : Formed s3 := (h1.becomePrimary.onPair.foldl fun h => h.loseActivation).resumeReleasing
  have h4 : Formed s4 := ((h3.foldl fun h => h.takeoverRelease).foldl fun h => h.releaseLatched).ite h3
  have h6 : Formed s6 := (h4.onNet (by simp)).setHaltAll.haltOutputs.ite (h4.onNet (by simp))
  exact h6.latchOutputs.latchLocal.masterCycle.recordRole.settle

theorem handOver (h : Formed s) : Formed (handOver s) := h.mirror.closeDelta.takeRole.onDev.onPair.recordRole

theorem takeHandover {d} (h : Formed s) : Formed (takeHandover d s) := by
  unfold Machine.takeHandover
  extract_lets s1 s2 s3 s4
  have h3 : Formed s3 := h.applyRecs.becomePrimary.onPair.resumeReleasing
  have h4 : Formed s4 := ((h3.foldl fun h => h.takeoverRelease).foldl fun h => h.releaseLatched).ite h3
  exact h4.recordRole.settle

/-! ### Slot and force commands -/

theorem cmdSlotAlloc {r} (h : Formed s) : Formed (cmdSlotAlloc.effect r s).2 := by
  unfold Machine.cmdSlotAlloc
  dsimp only
  split
  · exact h
  · exact (h.onImg (by simp)).mirror.placeDescs

theorem freeSlots {b k} (h : Formed s) : Formed (freeSlots b k s) := (h.onImg (by simp)).mirror.clearDescs
theorem cmdSlotFree {r} (h : Formed s) : Formed (cmdSlotFree.effect r s).2 := h.freeSlots

theorem placeOutput {r b} (h : Formed s) : Formed (placeOutput r b s).2 := by
  unfold Machine.placeOutput
  split
  · exact h
  · exact h.putPayload

theorem cmdSlotRead {r} (h : Formed s) : Formed (cmdSlotRead.effect r s).2 := h.placeOutput
theorem cmdSnapshotRead {r} (h : Formed s) : Formed (cmdSnapshotRead.effect r s).2 := h.placeOutput

theorem cmdSlotWrite {r} (h : Formed s) : Formed (cmdSlotWrite.effect r s).2 := by
  unfold Machine.cmdSlotWrite
  dsimp only
  exact (h.withTriggers fun h => h.setLive).settle

theorem cmdForceSet {r} (h : Formed s) : Formed (cmdForceSet.effect r s).2 := by
  unfold Machine.cmdForceSet
  dsimp only
  exact (h.withTriggers fun h => h.setForce).settle

theorem cmdForceClear {r} (h : Formed s) : Formed (cmdForceClear.effect r s).2 := by
  unfold Machine.cmdForceClear
  dsimp only
  exact (h.withTriggers fun h => h.clearForce).settle

theorem cmdForceList {r} (h : Formed s) : Formed (cmdForceList.effect r s).2 := h.putPayload

theorem cmdForceClearAll {r} (h : Formed s) : Formed (cmdForceClearAll.effect r s).2 := by
  unfold Machine.cmdForceClearAll
  dsimp only
  exact (h.withTriggers fun h => h.clearForces).settle

/-! ### Time commands -/

theorem cmdTimeSet {r} (h : Formed s) : Formed (cmdTimeSet.effect r s).2 := by
  unfold Machine.cmdTimeSet
  dsimp only
  split
  · exact h.loadCalendar
  · exact snd h.onCal

theorem latchNs (h : Formed s) : Formed (latchNs s).2 := by
  unfold Machine.latchNs
  dsimp only
  exact h.draw

theorem cmdTimeGet {r} (h : Formed s) : Formed (cmdTimeGet.effect r s).2 := h.latchNs.putPayload.ite h.latchNs
theorem cmdTimeShift {r} (h : Formed s) : Formed (cmdTimeShift.effect r s).2 := h.logFw.aonTick.ite h.logFw.onCal

theorem cmdAlarmSet {r} (h : Formed s) : Formed (cmdAlarmSet.effect r s).2 := by
  unfold Machine.cmdAlarmSet
  dsimp only
  exact h.onAlarm

theorem cmdTrimCurveSet {r} (h : Formed s) : Formed (cmdTrimCurveSet.effect r s).2 := by
  unfold Machine.cmdTrimCurveSet
  dsimp only
  exact h.setCurve.onCal

theorem writeStatCal {v} (h : Formed s) : Formed (writeStatCal v s) := h.onAlarm.onAlarm

/-! ### Watchdogs -/

theorem ownUrgent {op f} (h : Formed s) (hf : ∀ {t}, Formed t → Formed (f t)) : Formed (ownUrgent op f s) := (hf h).ite h

theorem wdgAction {a} (h : Formed s) : Formed (wdgAction a s) := by
  unfold Machine.wdgAction
  split
  · exact h
  · exact h.ownUrgent fun h => h.ite h.stopProgram
  · exact (h.ownUrgent fun h => h.switchoverCommand).ite (h.ownUrgent fun h => h.haltOutputs)
  · exact h.ownUrgent fun h => h.haltOutputs

theorem wdgAct (h : Formed s) : Formed (wdgAct s) := h.onWdg.ite h.wdgAction

theorem wdgAfterWindow (h : Formed s) : Formed (wdgAfterWindow s) := by
  unfold Machine.wdgAfterWindow
  split
  · exact h.onWdg.wdgAction
  · exact h

theorem wdgFail {cause c v} (h : Formed s) : Formed (wdgFail cause c v s) := h.captureEvidence.logHw.setCause.onWdg.wdgAct

theorem wdgExpire {n c} (h : Formed s) : Formed (wdgExpire n c s) := by
  induction n generalizing s with
  | zero => exact h
  | succ n ih => exact (ih h.wdgFail).ite h

theorem wdgTo {c} (h : Formed s) : Formed (wdgTo c s) := by
  unfold Machine.wdgTo
  exact h.advance.wdgExpire.onWdg

theorem wdgGood {c} (h : Formed s) : Formed (wdgGood c s) := h.onWdg

theorem wdgJudge {c v} (h : Formed s) : Formed (wdgJudge c v s) :=
  (h.onWdg.ite h.wdgFail).ite ((h.wdgFail.ite h.wdgGood).ite h.wdgFail)

theorem writeWdgService {v} (h : Formed s) : Formed (writeWdgService v s) := h.ite (h.onWdg.ite h.wdgTo.wdgFail)
theorem wdgSet {r} (h : Formed s) : Formed (wdgSet r s) := h.onWdg.onWdg.ite (h.onWdg.ite h.onWdg.onWdg)
theorem cmdWdgConfig {r} (h : Formed s) : Formed (cmdWdgConfig.effect r s).2 := h.wdgSet
theorem cmdWdgEvidence {r} (h : Formed s) : Formed (cmdWdgEvidence.effect r s).2 := h.putEvidence.logFw.ite h

/-! ### Commands taken from the rings -/

theorem serveOp {op r} (h : Formed s) : Formed (serveOp op r s) := by
  unfold Machine.serveOp
  split
  · exact h.serve fun h => h.cmdEcho
  · exact h.serve fun h => h.cmdGetInfo
  · exact h.serve fun h => h.cmdGetState
  · exact h.serve fun h => h.cmdResetDevice
  · exact h.serve fun h => h.cmdHandleQuery
  · exact h.serve fun h => h.cmdHandleRelease
  · exact h.serve fun h => h.cmdHandleCancel
  · exact h.serve fun h => h.cmdProgramLoad
  · exact h.serve fun h => h.cmdProgramStart
  · exact h.serve fun h => h.cmdStopProgram
  · exact h.serve fun h => h.cmdTaskConfig
  · exact h.serve fun h => h.cmdTaskStatus
  · exact h.serve fun h => h.cmdTaskSuspend
  · exact h.serve fun h => h.cmdTaskResume
  · exact h.serve fun h => h.cmdEventTrigger
  · exact h.serve fun h => h.cmdEngineSplit
  · exact h.serve fun h => h.cmdEngineJoin
  · exact h.serve fun h => h.cmdSlotAlloc
  · exact h.serve fun h => h.cmdSlotFree
  · exact h.serve fun h => h.cmdSlotRead
  · exact h.serve fun h => h.cmdSlotWrite
  · exact h.serve fun h => h.cmdForceSet
  · exact h.serve fun h => h.cmdForceClear
  · exact h.serve fun h => h.cmdForceList
  · exact h.serve fun h => h.cmdForceClearAll
  · exact h.serve fun h => h.cmdSnapshotRead
  · exact h.serve fun h => h.cmdChangeStage
  · exact h.serve fun h => h.cmdChangeCommit
  · exact h.serve fun h => h.cmdChangeAbort
  · exact h.serve fun h => h.cmdChangeRevert
  · exact h.serve fun h => h.cmdChangeRelease
  · exact h.serve fun h => h.cmdNetConfig
  · exact h.serve fun h => h.cmdNetStart
  · exact h.serve fun h => h.cmdNetStop
  · exact h.serve fun h => h.cmdStationAdmit
  · exact h.serve fun h => h.cmdStationConfigure
  · exact h.serve fun h => h.cmdStationFirmware
  · exact h.serve fun h => h.cmdStationDiag
  · exact h.serve fun h => h.cmdStationRelease
  · exact h.serve fun h => h.cmdStationHaltOutputs
  · exact h.serve fun h => h.cmdNetHaltAllOutputs
  · exact h.serve fun h => h.cmdPairConfig
  · exact h.serve fun h => h.cmdPairSync
  · exact h.serve fun h => h.cmdPairSwitchover
  · exact h.serve fun h => h.cmdPairLeave
  · exact h.serve fun h => h.cmdPairStatus
  · exact h.serve fun h => h.cmdTimeSet
  · exact h.serve fun h => h.cmdTimeGet
  · exact h.serve fun h => h.cmdTimeShift
  · exact h.serve fun h => h.cmdAlarmSet
  · exact h.serve fun h => h.cmdTrimCurveSet
  · exact h.serve fun h => h.cmdPtpConfig
  · exact h.serve fun h => h.cmdLogRead
  · exact h.serve fun h => h.cmdLogExport
  · exact h.serve fun h => h.cmdLogClear
  · exact h.serve fun h => h.cmdLogMark
  · exact h.serve fun h => h.cmdFwBegin
  · exact h.serve fun h => h.cmdFwData
  · exact h.serve fun h => h.cmdFwFinish
  · exact h.serve fun h => h.cmdFwActivate
  · exact h.serve fun h => h.cmdFwStatus
  · exact h.serve fun h => h.cmdFwRevert
  · exact h.serve fun h => h.cmdEnergyStatus
  · exact h.serve fun h => h.cmdPowerCapSet
  · exact h.serve fun h => h.cmdHoldupConfig
  · exact h.serve fun h => h.cmdCellConfig
  · exact h.draw.serve fun h => h.cmdAuthNonce
  · exact h.serve fun h => h.cmdDebugUnlock
  · exact h.serve fun h => h.cmdFuseRead
  · exact h.serve fun h => h.cmdFuseProgram
  · exact h.serve fun h => h.cmdKeyRevoke
  · exact h.serve fun h => h.cmdMemFill
  · exact h.serve fun h => h.cmdScrubConfig
  · exact h.serve fun h => h.cmdMemTest
  · exact h.serve fun h => h.cmdErrStatus
  · exact h.serve fun h => h.cmdFioConfig
  · exact h.serve fun h => h.cmdFioStatus
  · exact h.serve fun h => h.cmdFioTestPulse
  · exact h.serve fun h => h.cmdWdgConfig
  · exact h.serve fun h => h.cmdWdgEvidence
  · exact h.advance.answer

theorem passEntries {n count} (h : Formed s) : Formed (passEntries n count s) := h.onCq

theorem takeFrom {n rd} (h : Formed s) : Formed (takeFrom n rd s) :=
  (h.onHost (by simp)).stopRing.ite
    ((h.onHost (by simp)).stopRing.ite ((h.onHost (by simp)).ite (h.ite (h.onHost (by simp)).passEntries.serveOp)))

theorem serveUrg {v} (h : Formed s) : Formed (serveUrg v s) := h.answer.ite h.serveOp

theorem drainUrgent {l} (h : Formed s) : Formed (drainUrgent l s) := by
  induction l generalizing s with
  | nil => exact h
  | cons w q ih =>
    cases w with
    | none => exact h.ite (ih (h.onHost (by simp)))
    | some v => exact h.ite (ih (h.onHost (by simp)).serveUrg)

theorem drain (h : Formed s) : Formed (drain s) := h.drainUrgent

theorem writeUrg {v} (h : Formed s) : Formed (writeUrg v s) :=
  (h.onHost (by simp)).ite (h.serveUrg.ite (h.onHost (by simp)).drain)

theorem takeCq0 {rd} (h : Formed s) : Formed (takeCq0 rd s) := h.stopRing.ite (h.ite (h.onHost (by simp)).passEntries.serveOp)

theorem finishOp {i io o} (h : Formed s) : Formed (finishOp i io o s) := by
  unfold Machine.finishOp
  split
  · exact h.finishArchive
  · exact h.finishPairOp
  · exact h.finishPairOp
  · exact h.finishNetConfig
  · exact h.finishStore
  · exact h.finishExport
  · exact h.finishBegin
  · exact h.finishData
  · exact h.finishFinish
  · exact h.sealActivation
  · exact h.sealActivation
  · exact h.finishFuse.ite h
  · exact h.finishFill
  · exact h.finishBurst
  · exact h

/-! ### Registers -/

theorem raisePending (h : Formed s) : Formed (raisePending s) := h.ite h.raiseDevice

theorem writeIntCtrl {v} (h : Formed s) : Formed (writeIntCtrl v s) :=
  (h.onRegs.raisePending.ite h.onRegs).ite (h.onRegs.raisePending.ite h.onRegs).raiseRingErr

theorem writeIntMask {v} (h : Formed s) : Formed (writeIntMask v s) := h.onRegs.ite h.onRegs.raisePending
theorem writeIntCause {v} (h : Formed s) : Formed (writeIntCause v s) := h.onRegs
theorem sendPending {v} (h : Formed s) : Formed (sendPending v s) := h.onRegs.ite h
theorem writeMsix {off v} (h : Formed s) : Formed (writeMsix off v s) := h.onRegs.sendPending
theorem storeMsix {off v} (h : Formed s) : Formed (storeMsix off v s) := h.writeMsix.ite h
theorem latchTick (h : Formed s) : Formed (latchTick s) := h.onRegs
theorem latchOptime (h : Formed s) : Formed (latchOptime s) := h.onRegs

theorem readReg {off} (h : Formed s) : Formed (readReg off s).2 :=
  ite_snd h.latchTick (ite_snd h.latchOptime (ite_snd h.latchLogSeq h))

theorem writeCqReg {n i v} (h : Formed s) : Formed (writeCqReg n i v s) := by
  unfold Machine.writeCqReg
  split
  · exact h.writeCqBase
  · exact h.writeCqBase
  · exact h.writeCqCtrl.drain
  · exact h.writeCqPi.drain
  · exact h

theorem writeKqReg {n i v} (h : Formed s) : Formed (writeKqReg n i v s) := by
  unfold Machine.writeKqReg
  split
  · exact h.writeKqBase
  · exact h.writeKqBase
  · exact h.writeKqCtrl
  · exact h.writeKqHead
  · exact h.writeKqIrq
  · exact h

theorem writeReg {off v} (h : Formed s) : Formed (writeReg off v s) := by
  unfold Machine.writeReg
  split
  · exact h.writeStatDual
  · exact h.writeStatCal
  · exact h.clearBucket
  · exact h.writeWdgService
  · exact h.writeIntCtrl
  · exact h.writeIntMask
  · exact h.writeIntCause
  · exact h.writeUrg
  · exact h.writeCqReg.ite (h.writeKqReg.ite (h.writeMsix.ite h))

theorem storeReg {off size v} (h : Formed s) : Formed (storeReg off size v s) := h.writeReg.ite h

/-! ### The debug port -/

theorem selectIr {ir} (h : Formed s) : Formed (selectIr ir s) := by
  unfold Machine.selectIr
  split
  · exact h.tapToReset
  · exact h.onSec.ite h.onSec.leaveExtest

theorem setOutcome {n} (h : Formed s) : Formed (setOutcome n s) := h.onSec

theorem respond {r} (h : Formed s) : Formed (respond r s) :=
  h.setOutcome.ite (h.setOutcome.ite ((h.closeGrant.draw (w := 8)).setOutcome.ite
    (h.recordAuthFailed.setOutcome.ite h.useNonce.cmdDebugUnlock.setOutcome)))

theorem dbgResult {status data} (h : Formed s) : Formed (dbgResult status data s) := h.onSec

theorem dbgLocal {addr} (h : Formed s) : Formed (dbgLocal addr s).2 := by
  unfold Machine.dbgLocal
  split
  · exact h
  · exact h.draw.onEng

theorem dbgWord {space addr} (h : Formed s) : Formed (dbgWord space addr s).2 := by
  unfold Machine.dbgWord
  split
  · exact h
  · exact h
  · exact h
  · exact h.dbgLocal
  · exact h
  · exact h.readReg
  · exact h.draw

theorem unmirrored {f} (h : Formed s) (hf : ∀ {t}, Formed t → Formed (f t)) : Formed (unmirrored f s) := by
  unfold Machine.unmirrored
  exact (hf h).onPair

theorem dbgPut {space addr data} (h : Formed s) : Formed (dbgPut space addr data s) := by
  unfold Machine.dbgPut
  split
  · exact h.writePhys
  · exact h.setLive
  · exact h.onImg (by simp)
  · exact h.onEng
  · exact h.setLegacy
  · exact h.writeReg
  · exact h

/-! ### Register writes of the host -/

theorem enableCq {n ctrl} (h : Formed s) : Formed (enableCq n ctrl s) := h.writeCqCtrl.ite h
theorem disableCq {n ctrl} (h : Formed s) : Formed (disableCq n ctrl s) := h.writeCqCtrl.drain.ite h
theorem enableKq {n ctrl} (h : Formed s) : Formed (enableKq n ctrl s) := h.writeKqCtrl.ite h
theorem disableKq {n ctrl} (h : Formed s) : Formed (disableKq n ctrl s) := h.writeKqCtrl.ite h
theorem doorbellWrite {n v} (h : Formed s) : Formed (doorbellWrite n v s) := h.writeCqPi.drain
theorem armKq {n v} (h : Formed s) : Formed (armKq n v s) := h.writeKqHead

theorem hostWrite {i} (h : Formed s) : Formed (hostWrite i s) := by
  unfold Machine.hostWrite
  cases i with
  | ringCqEnable n v => exact h.enableCq
  | ringCqDisable n v => exact h.disableCq
  | ringKqEnable n v => exact h.enableKq
  | ringKqDisable n v => exact h.disableKq
  | ringCqPi n v => exact h.doorbellWrite
  | ringKqHead n v => exact h.writeKqHead
  | arm n v => exact h.armKq
  | wdgService v => exact h.writeWdgService
  | statDualFaultClear v => exact h.writeStatDual
  | statCalAlarmClear v => exact h.writeStatCal
  | errBucketClear v => exact h.clearBucket
  | intCauseClear v => exact h.writeIntCause
  | intCtrl v => exact h.writeIntCtrl
  | intMask v => exact h.writeIntMask
  | msixTableWrite off v => exact h.storeMsix
  | statLogSeqRead => exact h.latchLogSeq
  | sysTickLoRead => exact h.latchTick
  | sysOptimeLoRead => exact h.latchOptime
  | registerWrite off size v => exact h.storeReg
  | urgCommand v time => exact h.writeUrg
  | _ => exact h

theorem releaseWithheld {l} (h : Formed s) : Formed (releaseWithheld l s) := by
  induction l generalizing s with
  | nil => exact h
  | cons i r ih => exact (h.onHost (by simp)).ite (ih (h.onHost (by simp)).hostWrite)

theorem drainAll (h : Formed s) : Formed (drainAll s) := h.drain.releaseWithheld
theorem resetHostIf (h : Formed s) : Formed (resetHostIf s) := (h.onHost fun _ => ⟨List.length_map .., List.length_map ..⟩).onRegs

end Formed

end Sys2Proof.Proofs
end

section
/-! SUPPORT. What every command makes of a state in form, command by command, and O5 from it. -/

namespace Sys2Proof.Proofs

open Sys2Proof.Machine
open Sys2Proof.Safety

/-- The outcome is a next state, and that state has the form. -/
def NextFormed (o : Out) : Prop := ∃ t, o = .next t ∧ Formed t

namespace Formed

variable {s t : State}

/-! ### The ways in which a command ends -/

theorem finish (h : Formed t) : NextFormed (finish s t) := ⟨_, rfl, { h with }⟩

theorem finishServe {c r} (h : Formed s) (hc : ∀ {r t}, Formed t → Formed (c.effect r t).2) :
    NextFormed (Machine.finish s (Machine.serve c r s)) :=
  (h.serve hc).finish

theorem hostReg {i f} (h : Formed s) (hf : ∀ {t}, Formed t → Formed (f t)) : NextFormed (hostReg i f s) :=
  finish (h.ite ((hf h).ite (h.onHost (by simp))))

theorem heard {hd f} (h : Formed s) (hf : ∀ {t}, Formed t → Formed (f t)) : NextFormed (heard hd s f) :=
  finish ((hf h.hear).ite h)

/-! ### Events and register accesses -/

theorem execRingCqEnable {n ctrl} (h : Formed s) : NextFormed (execRingCqEnable n ctrl s) := h.hostReg fun h => h.enableCq
theorem execRingCqDisable {n ctrl} (h : Formed s) : NextFormed (execRingCqDisable n ctrl s) := h.hostReg fun h => h.disableCq
theorem execRingKqEnable {n ctrl} (h : Formed s) : NextFormed (execRingKqEnable n ctrl s) := h.hostReg fun h => h.enableKq
theorem execRingKqDisable {n ctrl} (h : Formed s) : NextFormed (execRingKqDisable n ctrl s) := h.hostReg fun h => h.disableKq
theorem execRingCqPi {n v} (h : Formed s) : NextFormed (execRingCqPi n v s) := h.hostReg fun h => h.doorbellWrite

theorem execDescriptorTake {n rd} (h : Formed s) : NextFormed (execDescriptorTake n rd s) :=
  finish (h.advance.takeFrom.ite h.advance)

theorem execCq0DescriptorTake {rd} (h : Formed s) : NextFormed (execCq0DescriptorTake rd s) :=
  finish (h.advance.takeCq0.drainAll.ite h.advance)

theorem execRingKqHead {n v} (h : Formed s) : NextFormed (execRingKqHead n v s) := h.hostReg fun h => h.writeKqHead
theorem execArm {n v} (h : Formed s) : NextFormed (execArm n v s) := h.hostReg fun h => h.armKq

theorem execCompletionInterrupt {n waitedUs} (h : Formed s) : NextFormed (execCompletionInterrupt n waitedUs s) :=
  finish (h.completionDue.ite h)

theorem execFinalCompletion {idx time io} (h : Formed s) : NextFormed (execFinalCompletion idx time io s) := by
  unfold Machine.execFinalCompletion
  refine finish ?_
  split
  · exact h.advance
  · exact h.advance.ite (h.advance.cutFill.ite ((h.advance.goOn fun h => h.finishOp).ite (h.advance.ite h.advance.finishOp)))

theorem execWdgService {v} (h : Formed s) : NextFormed (execWdgService v s) := h.hostReg fun h => h.writeWdgService

theorem execWdgServiceCapture {c} (h : Formed s) : NextFormed (execWdgServiceCapture c s) := by
  unfold Machine.execWdgServiceCapture
  refine finish ?_
  split
  · exact h
  · exact h.onWdg.wdgTo.wdgJudge.ite h.onWdg

theorem execHostWatchdogExpiry {c} (h : Formed s) : NextFormed (execHostWatchdogExpiry c s) := finish (h.wdgTo.ite h)
theorem execStatDualFaultClear {v} (h : Formed s) : NextFormed (execStatDualFaultClear v s) := h.hostReg fun h => h.writeStatDual
theorem execStatCalAlarmClear {v} (h : Formed s) : NextFormed (execStatCalAlarmClear v s) := h.hostReg fun h => h.writeStatCal
theorem execErrBucketClear {v} (h : Formed s) : NextFormed (execErrBucketClear v s) := h.hostReg fun h => h.clearBucket
theorem execIntCauseClear {v} (h : Formed s) : NextFormed (execIntCauseClear v s) := h.hostReg fun h => h.writeIntCause
theorem execIntCtrl {v} (h : Formed s) : NextFormed (execIntCtrl v s) := h.hostReg fun h => h.writeIntCtrl
theorem execIntMask {v} (h : Formed s) : NextFormed (execIntMask v s) := h.hostReg fun h => h.writeIntMask
theorem execMsixTableWrite {off v} (h : Formed s) : NextFormed (execMsixTableWrite off v s) := h.hostReg fun h => h.storeMsix
theorem execStatLogSeqRead (h : Formed s) : NextFormed (execStatLogSeqRead s) := h.hostReg fun h => h.latchLogSeq
theorem execSysTickLoRead (h : Formed s) : NextFormed (execSysTickLoRead s) := h.hostReg fun h => h.latchTick
theorem execSysOptimeLoRead (h : Formed s) : NextFormed (execSysOptimeLoRead s) := h.hostReg fun h => h.latchOptime

theorem execRegisterWrite {off size v} (h : Formed s) : NextFormed (execRegisterWrite off size v s) :=
  h.hostReg fun h => h.storeReg

theorem execHostInterfaceReset (h : Formed s) : NextFormed (execHostInterfaceReset s) := finish (h.resetHostIf.drainAll.ite h)

theorem execDbgChallenge {random} (h : Formed s) : NextFormed (execDbgChallenge random s) :=
  finish (h.selectIr.issueNonce.onSec.ite h.selectIr)

theorem execDbgResponse {dr} (h : Formed s) : NextFormed (execDbgResponse dr s) := finish (h.selectIr.respond.ite h.selectIr)

theorem execDbgAccessRead {space addr} (h : Formed s) : NextFormed (execDbgAccessRead space addr s) :=
  finish (h.selectIr.ite (h.selectIr.dbgResult.ite (h.selectIr.dbgResult.ite h.selectIr.dbgWord.dbgResult)))

theorem execDbgAccessWrite {space addr data} (h : Formed s) : NextFormed (execDbgAccessWrite space addr data s) :=
  finish (h.selectIr.ite (h.selectIr.dbgResult.ite
    (h.selectIr.dbgResult.ite (h.selectIr.dbgPut.ite (h.selectIr.unmirrored fun h => h.dbgPut)).dbgResult)))

theorem execDbgAccessControl {space addr data} (h : Formed s) : NextFormed (execDbgAccessControl space addr data s) :=
  finish (h.selectIr.ite (h.selectIr.dbgResult.ite
    (h.selectIr.onEng.dbgResult.ite ((h.selectIr.onSec.whenB fun h => h.holdTimebase).dbgResult.ite h.selectIr.dbgResult))))

theorem execExtest {enter} (h : Formed s) : NextFormed (execExtest enter s) := by
  unfold Machine.execExtest
  split
  · exact finish ((h.selectIr.onSec.setHaltAll.onNet (by simp)).ite h.selectIr)
  · exact finish h.selectIr

theorem execTapReset (h : Formed s) : NextFormed (execTapReset s) := finish h.tapToReset
theorem execUartRateFrame {code} (h : Formed s) : NextFormed (execUartRateFrame code s) := finish (h.onFw.ite h)
theorem execUartRateTimeout (h : Formed s) : NextFormed (execUartRateTimeout s) := finish h.advance.onFw
theorem execVaonRise (h : Formed s) : NextFormed (execVaonRise s) := finish (h.ite (h.loseAon.onDev.onDev.ite h.loseAon.onDev))
theorem execRetainLost (h : Formed s) : NextFormed (execRetainLost s) := finish (h.loseAon.onDev.onDev.ite h.loseAon.onDev)
theorem execMainRailsGood (h : Formed s) : NextFormed (execMainRailsGood s) := finish (h.ite h.railsBack.tryBoot)

theorem execPwrRstAssert {time} (h : Formed s) : NextFormed (execPwrRstAssert time s) :=
  finish (h.advance.onDev.ite (h.advance.onDev.beginStage2.onDev.ite h.advance.onDev.beginBoot))

theorem execPwrRstRelease (h : Formed s) : NextFormed (execPwrRstRelease s) :=
  finish (h.ite (h.onDev.beginBoot.ite h.onDev.tryBoot))

theorem execPowerFail {time} (h : Formed s) : NextFormed (execPowerFail time s) :=
  finish (h.advance.onDev.powerLoss fun h => h.leaveService)

theorem execMainRailTrip {time} (h : Formed s) : NextFormed (execMainRailTrip time s) :=
  finish (h.advance.dropPower.ite (h.advance.railsGone.ite (h.advance.powerLoss fun h => h.dropPower)))

theorem execPowerReturn {time} (h : Formed s) : NextFormed (execPowerReturn time s) :=
  finish ((h.advance.onDev.returnStage1.ite (h.advance.onDev.beginBoot.ite h.advance.onDev.onDev)).ite
    h.advance.onDev.railsBack.tryBoot)

theorem execHoldupSample {senseMv time} (h : Formed s) : NextFormed (execHoldupSample senseMv time s) :=
  finish ((h.advance.sampleBank.onEnergy.beginStage2.ite h.advance.sampleBank.onEnergy).ite h.advance)

theorem execRideThroughExpiry {time} (h : Formed s) : NextFormed (execRideThroughExpiry time s) :=
  finish (h.advance.beginStage2.ite h.advance)

theorem execSeal {time} (h : Formed s) : NextFormed (execSeal time s) :=
  finish ((h.advance.sealNow.beginBoot.ite (h.advance.sealNow.beginBoot.ite h.advance.sealNow)).ite h.advance)

theorem execBoot {env} (h : Formed s) : NextFormed (execBoot env s) :=
  finish (h.advance.ite ((h.advance.ite h.advance.startLog).onSec.onPair.countPowerCycle.enterRecovery.ite
    (h.advance.ite h.advance.startLog).onSec.onPair.bootFirmware))

theorem execSelftest {env} (h : Formed s) : NextFormed (execSelftest env s) := by
  unfold Machine.execSelftest
  refine finish (h.advance.ite ?_)
  split
  · exact h.advance.logHw.enterFault
  · exact h.advance.loadCurve.warmStart.finishSelftest.leaveSelftest.ite
      h.advance.coldStart.loadCurve.onDev.finishSelftest.leaveSelftest

theorem execArbitration {time} (h : Formed s) : NextFormed (execArbitration time s) := by
  unfold Machine.execArbitration
  refine finish ?_
  split
  · exact h.advance
  · exact h.advance.becomeSyncing.ite
      ((h.advance.arbitrated.ite h.advance).ite
        ((h.advance.arbitrated.ite h.advance.becomeSyncing).ite
          ((h.advance.arbitrated.ite h.advance).ite (h.advance.arbitrated.ite h.advance))))

theorem execDeviceReset (h : Formed s) : NextFormed (execDeviceReset s) := by
  unfold Machine.execDeviceReset
  refine finish ?_
  split
  · exact h
  · exact h.ite h.advance.onDev.beginBoot

theorem execFwWatchdogExpiry {pc time} (h : Formed s) : NextFormed (execFwWatchdogExpiry pc time s) := by
  unfold Machine.execFwWatchdogExpiry
  refine finish (h.advance.ite ?_)
  split
  · exact h.advance.captureEvidence.logHw.bootFailed
  · exact h.advance.captureEvidence.logHw
  · exact h.advance.captureEvidence.logHw.onFw.pauseCore

theorem execServiceCoreRestart {time} (h : Formed s) : NextFormed (execServiceCoreRestart time s) :=
  finish (h.advance.ite h.advance.onFw.reloadCore)

theorem execHaltReqCapture {time} (h : Formed s) : NextFormed (execHaltReqCapture time s) :=
  have hlow := h.advance.onDev
  finish (((hlow.haltRequested.ite hlow).onFio fun _ => List.length_map ..).ite hlow)

theorem execHaltReqRelease (h : Formed s) : NextFormed (execHaltReqRelease s) := finish h.onDev
theorem execBaseTick (h : Formed s) : NextFormed (execBaseTick s) := finish (h.ite (h.nextTick.boundary.ite h.nextTick))

theorem execTakeover {time} (h : Formed s) : NextFormed (execTakeover time s) := by
  unfold Machine.execTakeover
  refine finish ?_
  split
  · exact h.advance.takeOver.ite h.advance
  · exact h.advance

theorem execYieldPrimary {time} (h : Formed s) : NextFormed (execYieldPrimary time s) := finish (h.advance.yieldNow.ite h.advance)

theorem execHandover {time} (h : Formed s) : NextFormed (execHandover time s) := by
  unfold Machine.execHandover
  refine finish (h.advance.handOver.ite ?_)
  refine ite ?_ h.advance
  split
  · exact h.advance.takeHandover
  · exact h.advance

theorem execMastershipPass (h : Formed s) : NextFormed (execMastershipPass s) := by
  unfold Machine.execMastershipPass
  refine finish ?_
  split
  · exact ((h.onPair.onPair.onNet (by simp)).deenergise.ite h.onPair).ite h
  · exact h

theorem execSwitchWindowEnd {time} (h : Formed s) : NextFormed (execSwitchWindowEnd time s) :=
  finish (h.advance.endWindow.wdgAfterWindow.drainAll.ite h)

theorem execFreezeEnd {task time} (h : Formed s) : NextFormed (execFreezeEnd task time s) :=
  finish (h.advance.endFreeze.emptyFreezes.settle.ite h)

theorem execPreemptionStop {e time} (h : Formed s) : NextFormed (execPreemptionStop e time s) := by
  unfold Machine.execPreemptionStop
  refine finish ?_
  split
  · exact h.advance.expireBudget.ite h.advance.preempt
  · exact h

theorem execBudgetExpiry {task time} (h : Formed s) : NextFormed (execBudgetExpiry task time s) :=
  finish (h.advance.expireBudget.ite h)

theorem execTaskTimerExpiry {task time} (h : Formed s) : NextFormed (execTaskTimerExpiry task time s) := by
  unfold Machine.execTaskTimerExpiry
  refine finish ?_
  split
  · exact h.advance.onTask.fireTrigger.settle.ite h
  · exact h

theorem execCommitFlush {k} (h : Formed s) : NextFormed (execCommitFlush k s) := by
  unfold Machine.execCommitFlush
  refine finish ?_
  split
  · exact h.commitPair.onEng.onEng.runPaired.runPaired.resolveAll.ite h.commitPair
  · exact h

theorem execVerificationActivation {k pass} (h : Formed s) : NextFormed (execVerificationActivation k pass s) :=
  finish (h.ite (((h.onEng.onEng.joinPair.onScan (by simp)).endPairOp.setPair.ite
    (h.onEng.onEng.joinPair.onScan (by simp)).endPairOp).settle.ite
      (h.onEng.onEng.setPair.onScan (by simp)).setDualFault.logHw.endPairOp.endPairOp.settle))

theorem execPageFill {gen page} (h : Formed s) : NextFormed (execPageFill gen page s) := finish (h.fillPage.afterFill.ite h)

theorem execLineRefetch {frame line ddrBad} (h : Formed s) : NextFormed (execLineRefetch frame line ddrBad s) :=
  finish h.lineRefetch

theorem execPageRebuild {gen page lineFails readBackFails} (h : Formed s) :
    NextFormed (execPageRebuild gen page lineFails readBackFails s) := by
  unfold Machine.execPageRebuild
  refine finish (h.ite ?_)
  split
  · exact (h.onMem (by simp) (by simp)).losePage.ite (h.onMem (by simp) (by simp)).rebuildPage
  · exact (h.onMem (by simp) (by simp)).losePage

theorem execScrubRead {mem addr f} (h : Formed s) : NextFormed (execScrubRead mem addr f s) := by
  unfold Machine.execScrubRead
  refine finish (h.ite ?_)
  split
  · exact h
  · exact h.correctable
  · exact h.uncorrectable.settle

theorem execBucketLeak (h : Formed s) : NextFormed (execBucketLeak s) := finish h.onInteg

theorem execPersistWrite (h : Formed s) : NextFormed (execPersistWrite s) :=
  finish (h.ite (h.writeMarker.writeBlocks.ite h.writeMarker))

theorem execEnergyIntervalEnd {rails senseMv time} (h : Formed s) :
    NextFormed (execEnergyIntervalEnd rails senseMv time s) := by
  have hmetered {f} := (h.advance (tt := time)).onEnergy (f := f) |>.meterStage
  unfold Machine.execEnergyIntervalEnd
  split
  · exact h.finish
  · refine finish (onEnergy (countPass (whenB (updateLimit (capInterval ?_)) fun h => h.considerJobs)))
    exact hmetered.ite hmetered.sampleBank

theorem execVbatMeasure {mv charge} (h : Formed s) : NextFormed (execVbatMeasure mv charge s) :=
  finish (h.ite h.onEnergy.judgeCell)

theorem execCalendarRollover (h : Formed s) : NextFormed (execCalendarRollover s) := finish (h.onCal.rollover.ite h)
theorem execTrimEvaluation {temp} (h : Formed s) : NextFormed (execTrimEvaluation temp s) := finish (h.onCal.ite h)

theorem execTimeSetPendingLoad (h : Formed s) : NextFormed (execTimeSetPendingLoad s) := by
  unfold Machine.execTimeSetPendingLoad
  refine finish ?_
  split
  · exact h.loadCalendar
  · exact h

theorem execShiftHoldEnd (h : Formed s) : NextFormed (execShiftHoldEnd s) := finish h.onCal
theorem execNonceExpiry {time} (h : Formed s) : NextFormed (execNonceExpiry time s) := finish (h.advance.useNonce.ite h.advance)
theorem execGrantExpiry {time} (h : Formed s) : NextFormed (execGrantExpiry time s) := finish (h.advance.closeGrant.ite h.advance)
theorem execOptimeSave {time} (h : Formed s) : NextFormed (execOptimeSave time s) := finish (h.advance.onDev.ite h)
theorem execEventRecordWrite (h : Formed s) : NextFormed (execEventRecordWrite s) := finish (h.takeEvent.ite h)
theorem execRepeatUpdate (h : Formed s) : NextFormed (execRepeatUpdate s) := finish (h.writeRepeat.ite h)
theorem execClearedOverwrite (h : Formed s) : NextFormed (execClearedOverwrite s) := finish (h.onLog.ite h)
theorem execInputFrame {port f} (h : Formed s) : NextFormed (execInputFrame port f s) := finish h.receive

theorem execInputCutoff {time} (h : Formed s) : NextFormed (execInputCutoff time s) :=
  finish (h.ite ((((h.onNet (by simp)).advance.foldl fun h => h.cutRing).foldl fun h => h.cutStation).cutNewer.onNet
    (by simp)).settle)

theorem execRingBroken {port} (h : Formed s) : NextFormed (execRingBroken port s) := finish (h.onPort.logHw.ite h)
theorem execPortLinkDown {port} (h : Formed s) : NextFormed (execPortLinkDown port s) := finish (h.onPort.ite h)
theorem execScheduleSwitch (h : Formed s) : NextFormed (execScheduleSwitch s) := finish (h.applySchedule.ite h)

theorem execPtpMessage {port f offsetNs} (h : Formed s) : NextFormed (execPtpMessage port f offsetNs s) :=
  finish (h.receive.measure.ite h.receive)

theorem execDelayReq {port f} (h : Formed s) : NextFormed (execDelayReq port f s) := finish (h.receive.ite h)
theorem execTimebaseHoldover (h : Formed s) : NextFormed (execTimebaseHoldover s) := finish ((h.onNet (by simp)).ite h)
theorem execTimebaseStep (h : Formed s) : NextFormed (execTimebaseStep s) := finish ((h.onNet (by simp)).ite h)

theorem execPpsInEdge {offsetNs} (h : Formed s) : NextFormed (execPpsInEdge offsetNs s) :=
  finish ((h.onNet (by simp)).measure.ite h)

theorem execAnnounce {port f} (h : Formed s) : NextFormed (execAnnounce port f s) := finish (h.receive.ite h)
theorem execAnswer {port f} (h : Formed s) : NextFormed (execAnswer port f s) := finish (h.receive.ite h)
theorem execNotify {port f} (h : Formed s) : NextFormed (execNotify port f s) := finish (h.receive.ite h)

theorem execSessionAnswerTimeout {station} (h : Formed s) : NextFormed (execSessionAnswerTimeout station s) := by
  unfold Machine.execSessionAnswerTimeout
  refine finish ?_
  split
  · exact h.ite (h.onSession.ite h.sessionExhausted)
  · exact h

theorem execSessionWaitTimeout {station} (h : Formed s) : NextFormed (execSessionWaitTimeout station s) := by
  unfold Machine.execSessionWaitTimeout
  refine finish ?_
  split
  · exact h.closeUnresolved.ite h
  · exact h

theorem execProbeTimeout {station} (h : Formed s) : NextFormed (execProbeTimeout station s) := by
  unfold Machine.execProbeTimeout
  refine finish ?_
  split
  · exact h.closeSession.ite h
  · exact h

theorem execVerificationRepeat {station} (h : Formed s) : NextFormed (execVerificationRepeat station s) := finish (h.onStn.ite h)

theorem execStationReturnTimeout {station} (h : Formed s) : NextFormed (execStationReturnTimeout station s) := by
  unfold Machine.execStationReturnTimeout
  refine finish ?_
  split
  · exact h.onStn.endStationOp.ite h
  · exact h

theorem execStatus {hh role state flags linkMajor lowestMissing} (h : Formed s) :
    NextFormed (execStatus hh role state flags linkMajor lowestMissing s) := by
  unfold Machine.execStatus
  refine h.heard fun h => ?_
  extract_lets was s1 s2 s3
  have h2 : Formed s2 := h.onPair.resend.linkReturns
  have h3 : Formed s3 := (h2.recordPair.ite h2).stageLost
  exact h.onPair.ite (h3.endSync.leaveAsPartner.ite (h3.detectLoss.ite h3.judgePair)).autoSync

theorem execTickStatus {hh serial linkMajor linkMinor lastApplied limitKib offsetNs missed} (h : Formed s) :
    NextFormed (execTickStatus hh serial linkMajor linkMinor lastApplied limitKib offsetNs missed s) :=
  h.heard fun h => h.onPair.judgeEnds

theorem execDelta {hh r} (h : Formed s) : NextFormed (execDelta hh r s) := h.heard fun h => h.ite (h.ite h.onPair)

theorem execDeltaEnd {hh records bytes} (h : Formed s) : NextFormed (execDeltaEnd hh records bytes s) :=
  h.heard fun h => h.ite h.onPair

theorem execRelayDown {hh port f} (h : Formed s) : NextFormed (execRelayDown hh port f s) :=
  h.heard fun h => h.ite ((h.corrected.onPair.onPort.onNet (by simp)).ite h.corrected.onPair)

theorem execRelayUp {hh port f} (h : Formed s) : NextFormed (execRelayUp hh port f s) := h.heard fun h => h.receive.ite h

theorem execBulk {hh b} (h : Formed s) : NextFormed (execBulk hh b s) := by
  unfold Machine.execBulk
  refine h.heard fun h => ?_
  split
  · exact h.takeOffer
  · exact h.takeStage.ite h
  · exact h.takeImage.ite h
  · exact h.takeCarryMap.ite h
  · exact h.ite (h.takeConfig.ite h.applyRecs.onPair.syncProgress.sendSel)
  · exact h.onPair.ite h

theorem execBulkAck {hh b} (h : Formed s) : NextFormed (execBulkAck hh b s) := by
  unfold Machine.execBulkAck
  refine h.heard fun h => ?_
  split
  · exact h.phaseDone
  · exact h.onPair.endSync.ite h
  · exact h.ite h.endSync
  · exact h.partnerJoined
  · exact h.stageAnswered

theorem execNotice {hh k holdFrom time} (h : Formed s) : NextFormed (execNotice hh k holdFrom time s) := by
  unfold Machine.execNotice
  refine h.heard fun h => ?_
  split
  · exact h.advance.endSync.leaveAsPartner
  · exact h.advance.beginSwitchover.ite h.advance
  · exact h.advance.detectLoss.ite h.advance.onPair

theorem execSelvedgeLinkDown {time} (h : Formed s) : NextFormed (execSelvedgeLinkDown time s) :=
  finish (h.advance.ite h.advance.onPair.stageLost.judgePair)

theorem execLaneLoss {lane} (h : Formed s) : NextFormed (execLaneLoss lane s) := finish (h.setLane.ite h)

theorem execPeerAliveDecode {v time} (h : Formed s) : NextFormed (execPeerAliveDecode v time s) := by
  unfold Machine.execPeerAliveDecode
  extract_lets s1 s2 s3
  have h2 : Formed s2 := h.advance.onPair
  have h3 : Formed s3 := (h2.partnerLost.ite h2).lineLost
  exact finish (h.advance.ite (h3.judgePair.ite h3))

theorem execPeerFault {low} (h : Formed s) : NextFormed (execPeerFault low s) :=
  finish (h.ite (h.onPair.setCause.ite (h.ite h.onPair)))

theorem execSyncingTimeout (h : Formed s) : NextFormed (execSyncingTimeout s) := finish (h.advance.endSync.syncingEnds.ite h)
theorem execSyncLinkTimeout (h : Formed s) : NextFormed (execSyncLinkTimeout s) := finish (h.advance.endSync.ite h)

theorem execFieldLinkFrame {time} (h : Formed s) : NextFormed (execFieldLinkFrame time s) :=
  finish (h.advance.ite ((h.advance.foldl fun h => h.carryChannel).onFio (by simp)).settle)

theorem execFieldLinkLost {time} (h : Formed s) : NextFormed (execFieldLinkLost time s) :=
  finish (h.advance.ite (h.advance.onFio fun _ => List.length_map ..).writeInputSlots.logHw.setCause.settle)

theorem execFieldLinkUp (h : Formed s) : NextFormed (execFieldLinkUp s) := finish (h.ite (h.onFio fun _ => List.length_map ..))

theorem execFieldSample {x} (h : Formed s) : NextFormed (execFieldSample x s) := by
  unfold Machine.execFieldSample
  refine finish (h.advance.ite (pulseAtSample ?_))
  exact { h.advance (tt := x.time) with ch := (List.length_map ..).trans (List.length_range ..) }

theorem execFilterChange {ch compB} (h : Formed s) : NextFormed (execFilterChange ch compB s) :=
  finish (h.ite (h.onCh.ite (h.onCh.ite h)))

theorem execWireBreak {ch broken} (h : Formed s) : NextFormed (execWireBreak ch broken s) :=
  finish (h.ite (h.onCh.logHw.ite h.onCh))

theorem execFieldSupply {group cond} (h : Formed s) : NextFormed (execFieldSupply group cond s) :=
  finish (h.ite (((h.onFio (by simp)).foldl fun h => h.onCh).ite (h.onFio (by simp))).writeInputSlots.logHw.setCause.settle)

theorem execOutputShutdown {ch} (h : Formed s) : NextFormed (execOutputShutdown ch s) := finish (h.ite h.onCh.logHw.setCause)
theorem execReadbackFail {ch} (h : Formed s) : NextFormed (execReadbackFail ch s) := finish (h.ite h.onCh.logHw.setCause)

theorem execTestPulse {ch offRead onRead disturbed} (h : Formed s) :
    NextFormed (execTestPulse ch offRead onRead disturbed s) := by
  unfold Machine.execTestPulse
  refine finish ?_
  split
  · exact h.ite ((h.onFio (by simp)).onCh.testMark.ite
      ((h.onFio (by simp)).onCh.testMark.ite (h.onFio (by simp)).onCh.onCh.logHw.setCause.testMark))
  · exact h

theorem execMemTestUnit {ce fails} (h : Formed s) : NextFormed (execMemTestUnit ce fails s) :=
  finish (h.whenB fun h => h.goOnOp fun h => h.testUnit.ite h)

theorem execFuseBit {takes} (h : Formed s) : NextFormed (execFuseBit takes s) := by
  refine finish (h.goOnOp fun h => ?_)
  split
  · exact h.endOp.ite (h.blowBit.onOp.finishFuse.ite h.blowBit.onOp)
  · exact h

theorem execTracerCopy {addr} (h : Formed s) : NextFormed (execTracerCopy addr s) := finish (h.onChg.carryTraced.ite h)

theorem execProgramInstall {time} (h : Formed s) : NextFormed (execProgramInstall time s) := by
  refine finish (h.advance.ite (h.advance.goOnLoad fun h => h.endOp.ite ?_))
  split
  · exact h.endOp
  · exact h.waitHere.onOp.ite (h.archiveProgramNow.ite h).installProgram.onOp.endOp

theorem execChangeStageInstall {time} (h : Formed s) : NextFormed (execChangeStageInstall time s) := by
  refine finish (h.advance.ite (h.advance.goOnOp fun h => h.ite ?_))
  split
  · exact h.endOp
  · exact h.endOp.ite (h.dropForces.onChg.waitHere.onOp.ite h.dropForces.onChg.stageInstall)

theorem execUrgCommand {v time} (h : Formed s) : NextFormed (execUrgCommand v time s) :=
  (h.advance (tt := time)).hostReg fun h => h.writeUrg

theorem execPortLinkUp {port} (h : Formed s) : NextFormed (execPortLinkUp port s) := finish (h.onPort.ite h)
theorem execLaneLock {lane} (h : Formed s) : NextFormed (execLaneLock lane s) := finish (h.setLane.ite h)

/-! ### Every command and every step -/

/-- A host command is served and its step finished; an event has its lemma above; what remains are the Synna Code
instructions, each one run of an engine. -/
theorem exec_nextFormed (h : Formed s) : ∀ i, NextFormed (exec i s)
  | .echo _ => h.finishServe fun h => h.cmdEcho
  | .getInfo _ => h.finishServe fun h => h.cmdGetInfo
  | .getState _ => h.finishServe fun h => h.cmdGetState
  | .handleQuery _ => h.finishServe fun h => h.cmdHandleQuery
  | .handleRelease _ => h.finishServe fun h => h.cmdHandleRelease
  | .handleCancel _ => h.finishServe fun h => h.cmdHandleCancel
  | .resetDevice _ => h.finishServe fun h => h.cmdResetDevice
  | .programLoad _ => h.finishServe fun h => h.cmdProgramLoad
  | .programStart _ => h.finishServe fun h => h.cmdProgramStart
  | .stopProgram _ => h.finishServe fun h => h.cmdStopProgram
  | .taskConfig _ => h.finishServe fun h => h.cmdTaskConfig
  | .taskStatus _ => h.finishServe fun h => h.cmdTaskStatus
  | .taskSuspend _ => h.finishServe fun h => h.cmdTaskSuspend
  | .taskResume _ => h.finishServe fun h => h.cmdTaskResume
  | .eventTrigger _ => h.finishServe fun h => h.cmdEventTrigger
  | .engineSplit _ => h.finishServe fun h => h.cmdEngineSplit
  | .engineJoin _ => h.finishServe fun h => h.cmdEngineJoin
  | .slotAlloc _ => h.finishServe fun h => h.cmdSlotAlloc
  | .slotFree _ => h.finishServe fun h => h.cmdSlotFree
  | .slotRead _ => h.finishServe fun h => h.cmdSlotRead
  | .slotWrite _ => h.finishServe fun h => h.cmdSlotWrite
  | .forceSet _ => h.finishServe fun h => h.cmdForceSet
  | .forceClear _ => h.finishServe fun h => h.cmdForceClear
  | .forceList _ => h.finishServe fun h => h.cmdForceList
  | .forceClearAll _ => h.finishServe fun h => h.cmdForceClearAll
  | .snapshotRead _ => h.finishServe fun h => h.cmdSnapshotRead
  | .changeStage _ => h.finishServe fun h => h.cmdChangeStage
  | .changeCommit _ => h.finishServe fun h => h.cmdChangeCommit
  | .changeAbort _ => h.finishServe fun h => h.cmdChangeAbort
  | .changeRevert _ => h.finishServe fun h => h.cmdChangeRevert
  | .changeRelease _ => h.finishServe fun h => h.cmdChangeRelease
  | .netConfig _ => h.finishServe fun h => h.cmdNetConfig
  | .netStart _ => h.finishServe fun h => h.cmdNetStart
  | .netStop _ => h.finishServe fun h => h.cmdNetStop
  | .stationHaltOutputs _ => h.finishServe fun h => h.cmdStationHaltOutputs
  | .netHaltAllOutputs _ => h.finishServe fun h => h.cmdNetHaltAllOutputs
  | .stationAdmit _ => h.finishServe fun h => h.cmdStationAdmit
  | .stationConfigure _ => h.finishServe fun h => h.cmdStationConfigure
  | .stationFirmware _ => h.finishServe fun h => h.cmdStationFirmware
  | .stationDiag _ => h.finishServe fun h => h.cmdStationDiag
  | .stationRelease _ => h.finishServe fun h => h.cmdStationRelease
  | .pairConfig _ => h.finishServe fun h => h.cmdPairConfig
  | .pairSync _ => h.finishServe fun h => h.cmdPairSync
  | .pairSwitchover _ => h.finishServe fun h => h.cmdPairSwitchover
  | .pairLeave _ => h.finishServe fun h => h.cmdPairLeave
  | .pairStatus _ => h.finishServe fun h => h.cmdPairStatus
  | .timeSet _ => h.finishServe fun h => h.cmdTimeSet
  | .timeGet _ => h.finishServe fun h => h.cmdTimeGet
  | .timeShift _ => h.finishServe fun h => h.cmdTimeShift
  | .alarmSet _ => h.finishServe fun h => h.cmdAlarmSet
  | .trimCurveSet _ => h.finishServe fun h => h.cmdTrimCurveSet
  | .ptpConfig _ => h.finishServe fun h => h.cmdPtpConfig
  | .logRead _ => h.finishServe fun h => h.cmdLogRead
  | .logExport _ => h.finishServe fun h => h.cmdLogExport
  | .logClear _ => h.finishServe fun h => h.cmdLogClear
  | .logMark _ => h.finishServe fun h => h.cmdLogMark
  | .fwBegin _ => h.finishServe fun h => h.cmdFwBegin
  | .fwData _ => h.finishServe fun h => h.cmdFwData
  | .fwFinish _ => h.finishServe fun h => h.cmdFwFinish
  | .fwActivate _ => h.finishServe fun h => h.cmdFwActivate
  | .fwStatus _ => h.finishServe fun h => h.cmdFwStatus
  | .fwRevert _ => h.finishServe fun h => h.cmdFwRevert
  | .energyStatus _ => h.finishServe fun h => h.cmdEnergyStatus
  | .powerCapSet _ => h.finishServe fun h => h.cmdPowerCapSet
  | .holdupConfig _ => h.finishServe fun h => h.cmdHoldupConfig
  | .cellConfig _ => h.finishServe fun h => h.cmdCellConfig
  | .authNonce _ _ => h.finishServe fun h => h.cmdAuthNonce
  | .debugUnlock _ => h.finishServe fun h => h.cmdDebugUnlock
  | .fuseRead _ => h.finishServe fun h => h.cmdFuseRead
  | .fuseProgram _ => h.finishServe fun h => h.cmdFuseProgram
  | .keyRevoke _ => h.finishServe fun h => h.cmdKeyRevoke
  | .memFill _ => h.finishServe fun h => h.cmdMemFill
  | .scrubConfig _ => h.finishServe fun h => h.cmdScrubConfig
  | .memTest _ => h.finishServe fun h => h.cmdMemTest
  | .errStatus _ => h.finishServe fun h => h.cmdErrStatus
  | .fioConfig _ => h.finishServe fun h => h.cmdFioConfig
  | .fioStatus _ => h.finishServe fun h => h.cmdFioStatus
  | .fioTestPulse _ => h.finishServe fun h => h.cmdFioTestPulse
  | .wdgConfig _ => h.finishServe fun h => h.cmdWdgConfig
  | .wdgEvidence _ => h.finishServe fun h => h.cmdWdgEvidence
  | .ringCqEnable _ _ => h.execRingCqEnable
  | .ringCqDisable _ _ => h.execRingCqDisable
  | .ringKqEnable _ _ => h.execRingKqEnable
  | .ringKqDisable _ _ => h.execRingKqDisable
  | .ringCqPi _ _ => h.execRingCqPi
  | .descriptorTake _ _ => h.execDescriptorTake
  | .cq0DescriptorTake _ => h.execCq0DescriptorTake
  | .ringKqHead _ _ => h.execRingKqHead
  | .arm _ _ => h.execArm
  | .completionInterrupt _ _ => h.execCompletionInterrupt
  | .finalCompletion _ _ _ => h.execFinalCompletion
  | .wdgService _ => h.execWdgService
  | .wdgServiceCapture _ => h.execWdgServiceCapture
  | .hostWatchdogExpiry _ => h.execHostWatchdogExpiry
  | .statDualFaultClear _ => h.execStatDualFaultClear
  | .statCalAlarmClear _ => h.execStatCalAlarmClear
  | .errBucketClear _ => h.execErrBucketClear
  | .intCauseClear _ => h.execIntCauseClear
  | .intCtrl _ => h.execIntCtrl
  | .intMask _ => h.execIntMask
  | .msixTableWrite _ _ => h.execMsixTableWrite
  | .statLogSeqRead => h.execStatLogSeqRead
  | .sysTickLoRead => h.execSysTickLoRead
  | .sysOptimeLoRead => h.execSysOptimeLoRead
  | .registerWrite _ _ _ => h.execRegisterWrite
  | .hostInterfaceReset => h.execHostInterfaceReset
  | .dbgChallenge _ => h.execDbgChallenge
  | .dbgResponse _ => h.execDbgResponse
  | .dbgAccessRead _ _ => h.execDbgAccessRead
  | .dbgAccessWrite _ _ _ => h.execDbgAccessWrite
  | .dbgAccessControl _ _ _ => h.execDbgAccessControl
  | .extest _ => h.execExtest
  | .tapReset => h.execTapReset
  | .uartRateFrame _ => h.execUartRateFrame
  | .uartRateTimeout => h.execUartRateTimeout
  | .vaonRise => h.execVaonRise
  | .retainLost => h.execRetainLost
  | .mainRailsGood => h.execMainRailsGood
  | .pwrRstAssert _ => h.execPwrRstAssert
  | .pwrRstRelease => h.execPwrRstRelease
  | .powerFail _ => h.execPowerFail
  | .mainRailTrip _ => h.execMainRailTrip
  | .powerReturn _ => h.execPowerReturn
  | .holdupSample _ _ => h.execHoldupSample
  | .rideThroughExpiry _ => h.execRideThroughExpiry
  | .seal _ => h.execSeal
  | .boot _ => h.execBoot
  | .selftest _ => h.execSelftest
  | .arbitration _ => h.execArbitration
  | .deviceReset => h.execDeviceReset
  | .fwWatchdogExpiry _ _ => h.execFwWatchdogExpiry
  | .serviceCoreRestart _ => h.execServiceCoreRestart
  | .haltReqCapture _ => h.execHaltReqCapture
  | .haltReqRelease => h.execHaltReqRelease
  | .baseTick => h.execBaseTick
  | .takeover _ => h.execTakeover
  | .yieldPrimary _ => h.execYieldPrimary
  | .handover _ => h.execHandover
  | .mastershipPass => h.execMastershipPass
  | .switchWindowEnd _ => h.execSwitchWindowEnd
  | .freezeEnd _ _ => h.execFreezeEnd
  | .preemptionStop _ _ => h.execPreemptionStop
  | .budgetExpiry _ _ => h.execBudgetExpiry
  | .taskTimerExpiry _ _ => h.execTaskTimerExpiry
  | .commitFlush _ => h.execCommitFlush
  | .verificationActivation _ _ => h.execVerificationActivation
  | .pageFill _ _ => h.execPageFill
  | .lineRefetch _ _ _ => h.execLineRefetch
  | .pageRebuild _ _ _ _ => h.execPageRebuild
  | .scrubRead _ _ _ => h.execScrubRead
  | .bucketLeak => h.execBucketLeak
  | .persistWrite => h.execPersistWrite
  | .energyIntervalEnd _ _ _ => h.execEnergyIntervalEnd
  | .vbatMeasure _ _ => h.execVbatMeasure
  | .calendarRollover => h.execCalendarRollover
  | .trimEvaluation _ => h.execTrimEvaluation
  | .timeSetPendingLoad => h.execTimeSetPendingLoad
  | .shiftHoldEnd => h.execShiftHoldEnd
  | .nonceExpiry _ => h.execNonceExpiry
  | .grantExpiry _ => h.execGrantExpiry
  | .optimeSave _ => h.execOptimeSave
  | .eventRecordWrite => h.execEventRecordWrite
  | .repeatUpdate => h.execRepeatUpdate
  | .clearedOverwrite => h.execClearedOverwrite
  | .inputFrame _ _ => h.execInputFrame
  | .inputCutoff _ => h.execInputCutoff
  | .ringBroken _ => h.execRingBroken
  | .portLinkDown _ => h.execPortLinkDown
  | .scheduleSwitch => h.execScheduleSwitch
  | .ptpMessage _ _ _ => h.execPtpMessage
  | .delayReq _ _ => h.execDelayReq
  | .timebaseHoldover => h.execTimebaseHoldover
  | .timebaseStep => h.execTimebaseStep
  | .ppsInEdge _ => h.execPpsInEdge
  | .announce _ _ => h.execAnnounce
  | .answer _ _ => h.execAnswer
  | .notify _ _ => h.execNotify
  | .sessionAnswerTimeout _ => h.execSessionAnswerTimeout
  | .sessionWaitTimeout _ => h.execSessionWaitTimeout
  | .probeTimeout _ => h.execProbeTimeout
  | .verificationRepeat _ => h.execVerificationRepeat
  | .stationReturnTimeout _ => h.execStationReturnTimeout
  | .status _ _ _ _ _ _ => h.execStatus
  | .tickStatus _ _ _ linkMinor .. => h.execTickStatus (linkMinor := linkMinor)
  | .delta _ _ => h.execDelta
  | .deltaEnd _ _ _ => h.execDeltaEnd
  | .relayDown _ _ _ => h.execRelayDown
  | .relayUp _ _ _ => h.execRelayUp
  | .bulk _ _ => h.execBulk
  | .bulkAck _ _ => h.execBulkAck
  | .notice _ _ _ _ => h.execNotice
  | .selvedgeLinkDown _ => h.execSelvedgeLinkDown
  | .laneLoss _ => h.execLaneLoss
  | .peerAliveDecode _ _ => h.execPeerAliveDecode
  | .peerFault _ => h.execPeerFault
  | .syncingTimeout => h.execSyncingTimeout
  | .syncLinkTimeout => h.execSyncLinkTimeout
  | .fieldLinkFrame _ => h.execFieldLinkFrame
  | .fieldLinkLost _ => h.execFieldLinkLost
  | .fieldLinkUp => h.execFieldLinkUp
  | .fieldSample _ => h.execFieldSample
  | .filterChange _ _ => h.execFilterChange
  | .wireBreak _ _ => h.execWireBreak
  | .fieldSupply _ _ => h.execFieldSupply
  | .outputShutdown _ => h.execOutputShutdown
  | .readbackFail _ => h.execReadbackFail
  | .testPulse _ _ _ _ => h.execTestPulse
  | .memTestUnit _ _ => h.execMemTestUnit
  | .fuseBit _ => h.execFuseBit
  | .tracerCopy _ => h.execTracerCopy
  | .programInstall _ => h.execProgramInstall
  | .changeStageInstall _ => h.execChangeStageInstall
  | .urgCommand _ _ => h.execUrgCommand
  | .portLinkUp _ => h.execPortLinkUp
  | .laneLock _ => h.execLaneLock
  | .add .. | .sub .. | .mul .. | .div .. | .mod .. | .neg .. | .abs .. | .min .. | .max .. | .lim .. | .addi ..
  | .muli .. | .sqrt .. | .ln .. | .exp .. | .sin .. | .cos .. | .atan2 .. | .eq .. | .ne .. | .lt .. | .le .. | .gt ..
  | .ge .. | .unord .. | .ceqi .. | .clti .. | .cgti .. | .and .. | .or .. | .xor .. | .not .. | .andn .. | .shl ..
  | .shr .. | .sar .. | .rol .. | .ror .. | .popc .. | .clz .. | .andi .. | .ori .. | .xori .. | .btst .. | .bset ..
  | .bclr .. | .bput .. | .mov .. | .sel .. | .ldi .. | .lui .. | .ldd .. | .typeof .. | .qualof .. | .isgood ..
  | .flags .. | .isempty .. | .qset .. | .qworse .. | .subst .. | .cvt .. | .raws .. | .rawu .. | .sflg .. | .scale ..
  | .ld .. | .st .. | .ldsA .. | .stsA .. | .lds .. | .sts .. | .ldsx .. | .stsx .. | .sdesc .. | .br .. | .bt .. | .bf ..
  | .call .. | .be .. | .jr .. | .callr .. | .ret .. | .ton .. | .tof .. | .tp .. | .ctu .. | .ctd .. | .crst ..
  | .cld .. | .tmstart .. | .tmstop .. | .tbread .. | .tbtick .. | .rtct .. | .rtcd .. | .lin .. | .raise .. | .raiser ..
  | .logev .. | .ldls .. | .stlq .. | .lbtst .. | .lbput .. | .lbputq .. | .lgon .. | .lgoff .. | .lgcry .. | .lgclr ..
  | .nop .. | .endAct .. | .trap .. | .rdstat .. | .wrstat .. | .rdfeat .. | .trapi .. | .cMov .. | .cAdd .. | .cSub ..
  | .cAnd .. | .cOr .. | .cAddi .. | .cLdk .. | .cLdl .. | .cStl .. | .cLds .. | .cSts .. | .cBr .. | .cBt .. | .cBf ..
  | .cSysNop .. | .cSysRet .. | .cSysEnd .. | .cSysTrap .. =>
    h.runInstr.finish

/-- The idle step, or the command at the front of the queue. -/
theorem step_nextFormed (h : Formed s) : NextFormed (step s) := by
  unfold Machine.step
  split
  · exact h.aonTick.finish
  next rest _ =>
    have hrest : Formed { s with pending := rest } := { h with }
    exact hrest.exec_nextFormed _

end Formed

/-- Settles O5: every function of the state that a step runs keeps the form of the tables and of the sparse memories. -/
theorem tablesAndMemoriesKeepForm : Obligations.TablesAndMemoriesKeepForm := by
  unfold Obligations.TablesAndMemoriesKeepForm
  intro s t hshapes hmemories hstep
  obtain ⟨u, hu, hformed⟩ := ((formed_iff s).mpr ⟨hshapes, hmemories⟩).step_nextFormed
  obtain rfl : u = t := Host.Outcome.next.inj (hu.symm.trans hstep)
  exact (formed_iff u).mp hformed

end Sys2Proof.Proofs
end
